-- ==== Sys2Proof/Word.lean ====
section
/-!
DEFINITION. The word types of the CQ9600: bytes, and the 16-, 32- and 64-bit words that software sees.
-/
namespace Sys2Proof

/-- One byte. -/
abbrev Byte := BitVec 8

/-- A 16-bit word. -/
abbrev Half := BitVec 16

/-- A 32-bit word. -/
abbrev Word := BitVec 32

/-- A 64-bit word. -/
abbrev DWord := BitVec 64

/-- A 128-bit card or micro-step (R94, R200). -/
abbrev Card := BitVec 128

end Sys2Proof
end

