-- ==== Sys2Proof/Machine/Bytes.lean ====
section
/-!
DEFINITION. Byte order (R11), fields of byte strings, and the two CRCs that the manual names.
-/
namespace Sys2Proof.Machine

open Sys2Proof

/-- The number that bytes spell, most significant first (R11, command packets). -/
def beNat (bs : List Byte) : Nat := bs.foldl (fun n b => n * 256 + b.toNat) 0

/-- The number that bytes spell, least significant first (R11, device memory). -/
def leNat (bs : List Byte) : Nat := bs.foldr (fun b n => b.toNat + 256 * n) 0

/-- The `n` low bytes of `v`, least significant first. -/
def leBytes : Nat → Nat → List Byte
  | 0, _ => []
  | n + 1, v => BitVec.ofNat 8 v :: leBytes n (v / 256)

/-- The `n` low bytes of `v`, most significant first. -/
def beBytes (n v : Nat) : List Byte := (leBytes n v).reverse

/-- `len` bytes from offset `off`. -/
def slice (bs : List Byte) (off len : Nat) : List Byte := (bs.drop off).take len

/-- The big-endian field of `len` bytes at offset `off`. -/
def be (bs : List Byte) (off len : Nat) : Nat := beNat (slice bs off len)

/-- The little-endian field of `len` bytes at offset `off`. -/
def le (bs : List Byte) (off len : Nat) : Nat := leNat (slice bs off len)

/-- Whether `len` bytes from `off` are all zero: a reserved field (R15). -/
def zeroAt (bs : List Byte) (off len : Nat) : Bool := (slice bs off len).all (· == 0)

/-- `n` zero bytes. -/
def zeros (n : Nat) : List Byte := List.replicate n 0

/-- `bs` cut or padded with zero bytes to exactly `n` bytes. -/
def padTo (n : Nat) (bs : List Byte) : List Byte := bs.take n ++ zeros (n - bs.length)

/-- The bits [hi:lo] of a number (R10). -/
def bitsOf (v hi lo : Nat) : Nat := v / 2 ^ lo % 2 ^ (hi + 1 - lo)

/-- Bit n of a number. -/
def bitOf (v n : Nat) : Bool := v / 2 ^ n % 2 == 1

/-- A field of a register value. -/
def fld {w : Nat} (v : BitVec w) (hi lo : Nat) : Nat := bitsOf v.toNat hi lo

/-- The number whose bit i is set when `p i`, over i < n. -/
def maskOf (n : Nat) (p : Nat → Bool) : Nat :=
  (List.range n).foldl (fun m i => if p i then m + 2 ^ i else m) 0

/-- ceil(a / b). -/
def ceilDiv (a b : Nat) : Nat := (a + b - 1) / b

/-- `a` rounded up to a multiple of `b`. -/
def roundUp (a b : Nat) : Nat := ceilDiv a b * b

/-- One bit of a reflected CRC register. -/
def crcBit (poly c : Word) : Word := if c.getLsbD 0 then (c >>> 1) ^^^ poly else c >>> 1

/-- One byte of a reflected CRC register. -/
def crcByte (poly : Word) (c : Word) (b : Byte) : Word :=
  let c := c ^^^ b.setWidth 32
  let c := crcBit poly (crcBit poly (crcBit poly (crcBit poly c)))
  crcBit poly (crcBit poly (crcBit poly (crcBit poly c)))

/-- A reflected CRC with initial value and final complement of all ones. -/
def crcWith (poly : Word) (bs : List Byte) : Word := ~~~ (bs.foldl (crcByte poly) 0xFFFFFFFF#32)

/-- CRC-32C (R349 and the other rules that name it). -/
def crc32c (bs : List Byte) : Word := crcWith 0x82F63B78#32 bs

/-- CRC-32 of IEEE 802.3 (R553). -/
def crc32 (bs : List Byte) : Word := crcWith 0xEDB88320#32 bs

/-- Add with a stop at the maximum value, as the counters of R303, R372, R413 and others do. -/
def satAdd {w : Nat} (c : BitVec w) (n : Nat) : BitVec w := BitVec.ofNat w (min (c.toNat + n) (2 ^ w - 1))

/-- Replace element i of a list by its image. -/
def modifyAt {α : Type} (l : List α) (i : Nat) (f : α → α) : List α := l.modify i f

/-- Replace the elements that satisfy `p` by their images. -/
def modifyWhere {α : Type} (l : List α) (p : α → Bool) (f : α → α) : List α :=
  l.map fun x => if p x then f x else x

/-- An ASCII string as bytes (R506: labels are ASCII byte strings). -/
def ascii (s : String) : List Byte := s.toList.map fun c => BitVec.ofNat 8 c.toNat

end Sys2Proof.Machine
end

