-- ==== Sys2Proof/Syntax.lean ====
section
/-!
DEFINITION. The commands and events of the CQ9600: one constructor of `Instr` for each row of spec/opcode_table.json,
in the table's order, with the row's operands.
-/
namespace Sys2Proof

/-- The interfaces that deliver command packets: the host link, the wake bus, the provisioning UART (R370, R513),
and Selvage class 0, on which the root forwards host packets (R310). -/
inductive Iface where
  | hostLink | wakeBus | uart | selvage
deriving DecidableEq, Repr

/-- The two masters (R349: MASTER 0x00 host, 0x01 management controller). -/
inductive MasterId where
  | host | mgmt
deriving DecidableEq, Repr

/-- A network address and UDP port (R334). -/
structure Endpoint where
  addr : List Byte
  port : Nat
deriving DecidableEq, Repr

/-- The header fields of a command packet that a command uses (R349); the checks of R351 on its other fields are
`malformedPacket`'s. -/
structure Hdr where
  iface   : Iface
  src     : Endpoint
  seq     : Word
  device  : Byte
  context : Word
  hostTag : Word
deriving DecidableEq, Repr

/-- R91: the two engines of a Loom context. -/
inductive Engine where
  | fetch | execute
deriving DecidableEq, Repr

/-- R333: the SecTAG of a received frame: channel, association, packet number, and whether its ICV was right. -/
structure SecTag where
  sci   : DWord
  an    : Nat
  pn    : DWord
  valid : Bool
deriving DecidableEq, Repr

/-- R327, R330, R332, R333: what the port looks at in a received frame before its content: the VLAN tag, the bytes of the frame
with its FCS and without a SecTAG, whether it is a PAUSE or an EAPOL frame, whether the receive crossing had no room for it,
and its SecTAG. -/
structure FrameHead where
  vlan  : Option Nat
  bytes : Nat
  pause : Bool
  eapol : Bool
  full  : Bool
  sec   : Option SecTag
deriving DecidableEq, Repr

/-- R334: the frames of the host link that the Treadle answers itself; `other` matches no accepted case, and `head` is what the
port sees of any received frame first (log 174). -/
inductive NetFrame where
  | head (f : FrameHead)
  | arp (target senderIp senderMac : List Byte)
  | ndp (target senderIp senderMac : List Byte)
  | echo (v6 : Bool) (dst src payload : List Byte)
  | other
deriving DecidableEq, Repr

/-- R334: the configuration frames; `other` matches no accepted case. -/
inductive DhcpFrame where
  | lease (addr gateway : List Byte) (pfx : Nat)
  | leaseLost
  | routerAdv (prefix64 router : List Byte)
  | other
deriving DecidableEq, Repr

/-- R335: one received IP fragment. -/
structure IpFrag where
  v6     : Bool
  src    : List Byte
  dst    : List Byte
  ident  : Word
  proto  : Byte
  offset : Nat
  more   : Bool
  data   : List Byte
deriving DecidableEq, Repr

/-- R440: one received AES3 frame: whether its preambles were in order, and of each subframe the 24-bit sample, the
validity bit and whether parity was right. -/
structure ReedFrame where
  preambleOk : Bool
  sample0    : BitVec 24
  valid0     : Bool
  parity0    : Bool
  sample1    : BitVec 24
  valid1     : Bool
  parity1    : Bool
deriving DecidableEq, Repr

/-- R528: the detection mechanisms, in the row order of the table. -/
inductive Mechanism where
  | sramEcc | dramEcc | arrayResidue | datapathResidue | watchdog | linkProtection | endToEnd
  /-- R528, R540: SRAM ECC, of a word of a cluster's weight store. -/
  | weightStore
deriving DecidableEq, Repr

/-- R530, R531: the outcome of a unit's self-test. -/
inductive SelfTest where
  | pass
  | laneGroup (g : Nat)
  | fail
deriving DecidableEq, Repr

/-- R542: the units without spares. -/
inductive SoloUnit where
  | treadle | bark
  | segment (n : Nat)
  | canopyQuadrant (n : Nat)
  | ethernet | heartwood
deriving DecidableEq, Repr

/-- R528: a unit whose handshake watchdog fired. -/
inductive WatchedUnit where
  | loom (n : Nat)
  | shuttle (cluster pos : Nat)
  | segment (n : Nat)
  | treadle
deriving DecidableEq, Repr

/-- R245: who read an uncorrectable word. -/
inductive Reader where
  | context (loom slot : Nat)
  | hotCopy (model : Word) (entry : Nat)
  | knotSlot (job : Word) (position : Nat)
  | shuttleContext (stream : Word)
deriving DecidableEq, Repr

/-- R494, R495: a controlled rail: VCORE on AVSBus, or a PMBus page. -/
inductive Rail where
  | vcore
  | pmbus (addr : Byte) (page : Nat)
deriving DecidableEq, Repr

/-- R497: what undervoltage was seen. -/
inductive SupplyFault where
  | vcore (mv : Nat)
  | pmbus (page : Byte) (statusWord : Half)
deriving DecidableEq, Repr

/-- R301: what one training of a Selvage port found: the lanes that passed and the partner's identity flit. -/
structure Training where
  lanesGood : BitVec 8
  farSerial : DWord
  farPort   : BitVec 3
  farRevision : Byte
  farDevice : Option Nat
deriving DecidableEq, Repr

/-- R302: why a Selvage port retrains. -/
inductive RetrainCause where
  | resends | lockLost | noFlit
deriving DecidableEq, Repr

/-- R244, R263: a piece that finishes its path: its tag, and how many words its read corrected. -/
structure PieceEnd where
  tag       : Nat
  corrected : Nat
deriving DecidableEq, Repr

/-- R485, R490: a domain's power-good report, with whether the CRC of the retention SRAM holds where it completes a return from
Deep sleep. -/
structure DomainReport where
  domain      : Nat
  retentionOk : Bool
deriving DecidableEq, Repr

/-- R50, R499: what one 1 ms window measured: of each powered pace counter its kind and index (R51), the waves that its
unit completed and the waves of its free-running ring, and the draw in watts. -/
structure Window where
  waves : List (Nat × Nat × Nat × Nat)
  drawW : Nat
deriving DecidableEq, Repr

/-- R593, R594: one conversion of one thermal sensor, in quarter degrees Celsius. -/
structure Conversion where
  sensor : Nat
  quarterC : Int
  refOk : Bool
deriving DecidableEq, Repr

/-- R563, R571: what a cold boot finds: the units' self-test, the populated and trained channels, the straps, and
whether a host link partner answers. -/
structure BootFindings where
  failedLooms    : List Nat
  laneFailures   : List (Nat × Nat)
  failedShuttles : List (Nat × Nat)
  populated      : BitVec 16
  trained        : BitVec 16
  density        : BitVec 4
  bestSpeed      : Nat
  straps         : BitVec 6
  linkRate       : Nat
  leader         : Bool
deriving DecidableEq, Repr

/-- R572: what a warm reset finds: newly failed units, newly failed lane groups, whether the retention SRAM's CRC
holds, and the link. -/
structure WarmFindings where
  failedLooms    : List Nat
  laneFailures   : List (Nat × Nat)
  failedShuttles : List (Nat × Nat)
  retentionOk    : Bool
  linkRate       : Nat
  leader         : Bool
deriving DecidableEq, Repr

/-- R525: the regions and instructions of the debug port. -/
inductive DapTarget where
  | idcode | bypass | samplePreload | extest | clamp | highz | scanTest
  | loomState (loom : Nat)
  | shuttleState (cluster pos : Nat)
  | ringRecorder
  | jobRegion (vault offset : Nat)
  | systemSpace (vault offset : Nat)
  | channel (ch offset : Nat)
  | modelRegion (offset : Nat)
  | barkSecret | retention | settingsStore
  | otherUnit
deriving DecidableEq, Repr

/-- R525: one TAP instruction or DAP access; a write carries the byte written. -/
structure DapAccess where
  target : DapTarget
  write  : Option Byte
deriving DecidableEq, Repr

/-- One command or event of the device: one constructor per row of spec/opcode_table.json. -/
inductive Instr where
  -- session and device
  | hello (h : Hdr) (ps : List Byte)
  | identify (h : Hdr) (ps : List Byte)
  | ping (h : Hdr) (ps : List Byte)
  | status (h : Hdr) (ps : List Byte)
  | reset (h : Hdr) (ps : List Byte)
  | paceRead (h : Hdr) (ps : List Byte)
  -- models and memory
  | modelLoadOpen (h : Hdr) (ps : List Byte)
  | modelLoadSegment (h : Hdr) (ps : List Byte)
  | modelLoadCommit (h : Hdr) (ps : List Byte)
  | modelVerify (h : Hdr) (ps : List Byte)
  | modelUnload (h : Hdr) (ps : List Byte)
  | memWrite (h : Hdr) (ps : List Byte)
  | memLayoutWrite (h : Hdr) (ps : List Byte)
  | memRead (h : Hdr) (ps : List Byte)
  | deckLoad (h : Hdr) (ps : List Byte)
  | deckUnload (h : Hdr) (ps : List Byte)
  -- jobs
  | jobSubmit (h : Hdr) (ps : List Byte)
  | jobCancel (h : Hdr) (ps : List Byte)
  | jobStatus (h : Hdr) (ps : List Byte)
  | resultFetch (h : Hdr) (ps : List Byte)
  | resultRelease (h : Hdr) (ps : List Byte)
  | sharesSetClient (h : Hdr) (ps : List Byte)
  | sharesReadClient (h : Hdr) (ps : List Byte)
  | schedConfigWrite (h : Hdr) (ps : List Byte)
  | schedConfigRead (h : Hdr) (ps : List Byte)
  | accountRead (h : Hdr) (ps : List Byte)
  -- streams
  | streamOpen (h : Hdr) (ps : List Byte)
  | streamFeed (h : Hdr) (ps : List Byte)
  | streamMarkPhrase (h : Hdr) (ps : List Byte)
  | streamMarkEnd (h : Hdr) (ps : List Byte)
  | streamClose (h : Hdr) (ps : List Byte)
  | streamRoute (h : Hdr) (ps : List Byte)
  | streamFallbackThreshold (h : Hdr) (ps : List Byte)
  | streamFallbackClear (h : Hdr) (ps : List Byte)
  | streamFallbackReturn (h : Hdr) (ps : List Byte)
  | streamStatus (h : Hdr) (ps : List Byte)
  -- ports and carding
  | portConfigWrite (h : Hdr) (ps : List Byte)
  | portConfigRead (h : Hdr) (ps : List Byte)
  | portStart (h : Hdr) (ps : List Byte)
  | portStop (h : Hdr) (ps : List Byte)
  | portStatus (h : Hdr) (ps : List Byte)
  | cardConfigOpen (h : Hdr) (ps : List Byte)
  | cardConfigClose (h : Hdr) (ps : List Byte)
  | cardGain (h : Hdr) (ps : List Byte)
  | cardTapStart (h : Hdr) (ps : List Byte)
  | cardTapStop (h : Hdr) (ps : List Byte)
  | cardStats (h : Hdr) (ps : List Byte)
  -- power
  | powerState (h : Hdr) (ps : List Byte)
  | powerStateRead (h : Hdr) (ps : List Byte)
  | domainCtrlOff (h : Hdr) (ps : List Byte)
  | domainCtrlOn (h : Hdr) (ps : List Byte)
  | domainCtrlRead (h : Hdr) (ps : List Byte)
  | padRelease (h : Hdr) (ps : List Byte)
  | voltagePolicyWrite (h : Hdr) (ps : List Byte)
  | voltagePolicyRead (h : Hdr) (ps : List Byte)
  | powerCeilingSet (h : Hdr) (ps : List Byte)
  | powerCeilingRead (h : Hdr) (ps : List Byte)
  -- security
  | attest (h : Hdr) (ps : List Byte)
  | keyInstall (h : Hdr) (ps : List Byte)
  | lifecycleTransition (h : Hdr) (ps : List Byte)
  | lifecycleRead (h : Hdr) (ps : List Byte)
  | fwInstallManifest (h : Hdr) (ps : List Byte)
  | fwInstallChunk (h : Hdr) (ps : List Byte)
  | fwInstallFinish (h : Hdr) (ps : List Byte)
  | fwInstallRead (h : Hdr) (ps : List Byte)
  | modelKeyInstall (h : Hdr) (ps : List Byte)
  | modelKeyDelete (h : Hdr) (ps : List Byte)
  -- debug
  | debugUnlock (h : Hdr) (ps : List Byte)
  | debugLock (h : Hdr) (ps : List Byte)
  | traceCtrlStart (h : Hdr) (ps : List Byte)
  | traceCtrlStop (h : Hdr) (ps : List Byte)
  | loomHalt (h : Hdr) (ps : List Byte)
  | loomResume (h : Hdr) (ps : List Byte)
  | loomStep (h : Hdr) (ps : List Byte)
  -- recorder, tables, settings
  | ringInfo (h : Hdr) (ps : List Byte)
  | ringRead (h : Hdr) (ps : List Byte)
  | tableWrite (h : Hdr) (ps : List Byte)
  | tableRead (h : Hdr) (ps : List Byte)
  | settingsCommit (h : Hdr) (ps : List Byte)
  | settingsInvalidate (h : Hdr) (ps : List Byte)
  | settingsRead (h : Hdr) (ps : List Byte)
  -- system
  | sysEnumerate (h : Hdr) (ps : List Byte)
  | sysPhaseAssign (h : Hdr) (ps : List Byte)
  | sysRouteBind (h : Hdr) (ps : List Byte)
  | sysRouteUnbind (h : Hdr) (ps : List Byte)
  | linkStatus (h : Hdr) (ps : List Byte)
  -- packets and the host link
  | malformedPacket (iface : Iface) (src : Endpoint) (bytes : List Byte)
  | fragmentReceived (opcode : Half) (h : Hdr) (ps : List Byte)
  | fragmentAssemblyExpiry (m : MasterId) (opcode : Half) (context hostTag : Word)
  | ipFragmentReceived (f : IpFrag)
  | ipReassemblyExpiry (v6 : Bool) (src dst : List Byte) (ident : Word)
  | networkControlFrame (f : NetFrame)
  | dhcpReply (f : DhcpFrame)
  | eapolFrame (bytes : List Byte)
  | hostLinkUp (rate : BitVec 2) (leader lpi : Bool)
  | hostLinkDown
  | trainingFailed
  | readvertiseTimer
  -- cards
  | load (loom slot : Nat)
  | store (loom slot : Nat)
  | loadC (loom slot : Nat)
  | storeC (loom slot : Nat)
  | peerSend (loom slot : Nat)
  | peerReceive (loom slot : Nat)
  | wait (loom slot : Nat) (eng : Engine)
  | signal (loom slot : Nat) (eng : Engine)
  | knot (loom slot : Nat)
  | loop (loom slot : Nat) (eng : Engine)
  | endLoop (loom slot : Nat) (eng : Engine)
  | mma (loom slot : Nat)
  | mmaG (loom slot : Nat)
  | vop (loom slot : Nat)
  | curve (loom slot : Nat)
  | reduce (loom slot : Nat)
  | norm (loom slot : Nat)
  | scan (loom slot : Nat)
  | conv (loom slot : Nat)
  | qstat (loom slot : Nat)
  | narrow (loom slot : Nat)
  | widen (loom slot : Nat)
  | grainKeyLoad (loom slot : Nat)
  | grainFill (loom slot : Nat)
  | gsample (loom slot : Nat)
  | halt (loom slot : Nat) (eng : Engine)
  -- transfers and scheduling
  | pieceIssue (loom : Nat)
  | pieceComplete (loom : Nat) (piece : PieceEnd)
  | jobStart
  | contextAdmit (loom : Nat)
  | waySpilled (loom : Nat)
  | sliceEnd (loom slot : Nat)
  | releaseToKnot (loom : Nat)
  | resultExpiry (job : Word)
  | batchStepStart (job : Word)
  | batchStepEnd (job : Word)
  | phraseJobStart (stream : Word)
  | tokenRecord (job : Word)
  -- Shuttles
  | frameRecord (stream : Word)
  | frameCommit (stream : Word)
  | batchStart (cluster pos : Nat)
  | microMv (cluster pos : Nat)
  | microEw (cluster pos : Nat)
  | microCrv (cluster pos : Nat)
  | microCvt (cluster pos : Nat)
  | microOut (cluster pos : Nat)
  | microDraw (cluster pos : Nat)
  | microEnd (cluster pos : Nat)
  | batchEnd (cluster pos : Nat)
  | contextMoveStart (stream : Word)
  | contextMoveArrive (stream : Word)
  | programLoadCluster (cluster : Nat) (program : Word)
  | tallyEvaluation (stream : Word)
  | egressStart (stream : Word)
  | releaseInstant (stream : Word)
  -- Reed ports and carding
  | reedInputLock (n : Nat)
  | reedInputLockLoss (n : Nat)
  | reedInputFrame (n : Nat) (f : ReedFrame)
  | wclkLock (n : Nat)
  | wclkLockLoss (n : Nat)
  | reedStartTick (port : Nat)
  | reedDataStart (port : Nat)
  | reedOutputFrame (port : Nat)
  | reedOutputClockLoss (n : Nat)
  | rateMeasureWindow (port : Nat) (rate : BitVec 25)
  | cardingStripe
  -- power, sensors, wake
  | paceWindow (w : Window)
  | thermalSensorConversion (cs : List Conversion)
  | thermalTrip (sensor : Nat) (tempC : Int)
  | vcoreUndervoltage (f : SupplyFault)
  | domainPowerGood (report : DomainReport)
  | regulatorAck (rail : Rail)
  | regulatorTimeout (rail : Rail)
  | wakePin (heldUs : Nat)
  | wakeBusFrame (addr : Byte) (bytes : List Byte)
  | wakeBusRead (addr : Byte)
  | wakeBusStall
  | selfRefreshSupervision (temps : List Int)
  | canopyRefresh (quadrant : Nat) (tempC : Int)
  | patrolScrub (vault : Nat) (corrected : Bool)
  | wckDriftCheck (ch : Nat) (drift : Bool)
  -- faults
  | uncorrectableWord (canopy : Bool) (unit : Nat) (offset : DWord) (reader : Reader)
  | loomFault (loom : Nat) (mech : Mechanism) (test : SelfTest)
  | handshakeWatchdog (unit : WatchedUnit)
  | shuttleFault (cluster pos : Nat) (mech : Mechanism) (test : SelfTest)
  | faultNoSpare (unit : SoloUnit) (mech : Mechanism)
  | scaleUnitFault (port : Nat)
  -- links
  | flitReceived (port : Nat) (bytes : List Byte)
  | ackTimer (port : Nat)
  | replayTimeout (port : Nat)
  | portRetrain (port : Nat) (cause : RetrainCause)
  | portTraining (port : Nat) (found : Option Training)
  | failedPortRetry (port : Nat)
  | linkMessage (port : Nat)
  | blockAck (binding recvEnd : Nat) (blockSeq : Word)
  | retransmitRequest (binding recvEnd : Nat) (blockSeq : Word)
  | pairMatch (port : Nat) (lsid : Byte)
  -- lifetime, reset, boot, debug port
  | operatingMinute
  | recordWrite
  | entropyFailure
  | vaonApplied
  | resetNRelease
  | coldBoot (f : BootFindings)
  | warmReset (f : WarmFindings)
  | vaonRemoved (bitsWritten : Bool)
  | resetNLow (heldUs : Nat)
  | dapAccess (a : DapAccess)
deriving DecidableEq, Repr

end Sys2Proof
end

