-- ==== Sys2Proof/Decode.lean ====
section
/-!
DEFINITION. Which row of the table a command packet is (R374, R377 to R438), and the host's word decoder.
-/
namespace Sys2Proof

open Sys2Proof.Machine

/-- The OPCODE, header and parameters of a command row; none for an event. -/
def packetOf (i : Instr) : Option (Nat × Hdr × List Byte) :=
  match i with
  | .hello h ps => some (0x0001, h, ps)
  | .identify h ps => some (0x0002, h, ps)
  | .ping h ps => some (0x0003, h, ps)
  | .status h ps => some (0x0004, h, ps)
  | .reset h ps => some (0x0005, h, ps)
  | .paceRead h ps => some (0x0006, h, ps)
  | .modelLoadOpen h ps => some (0x0101, h, ps)
  | .modelLoadSegment h ps => some (0x0101, h, ps)
  | .modelLoadCommit h ps => some (0x0101, h, ps)
  | .modelVerify h ps => some (0x0102, h, ps)
  | .modelUnload h ps => some (0x0103, h, ps)
  | .memWrite h ps => some (0x0104, h, ps)
  | .memLayoutWrite h ps => some (0x0104, h, ps)
  | .memRead h ps => some (0x0105, h, ps)
  | .deckLoad h ps => some (0x0106, h, ps)
  | .deckUnload h ps => some (0x0107, h, ps)
  | .jobSubmit h ps => some (0x0201, h, ps)
  | .jobCancel h ps => some (0x0202, h, ps)
  | .jobStatus h ps => some (0x0203, h, ps)
  | .resultFetch h ps => some (0x0204, h, ps)
  | .resultRelease h ps => some (0x0205, h, ps)
  | .sharesSetClient h ps => some (0x0206, h, ps)
  | .sharesReadClient h ps => some (0x0206, h, ps)
  | .schedConfigWrite h ps => some (0x0206, h, ps)
  | .schedConfigRead h ps => some (0x0206, h, ps)
  | .accountRead h ps => some (0x0207, h, ps)
  | .streamOpen h ps => some (0x0301, h, ps)
  | .streamFeed h ps => some (0x0302, h, ps)
  | .streamMarkPhrase h ps => some (0x0303, h, ps)
  | .streamMarkEnd h ps => some (0x0303, h, ps)
  | .streamClose h ps => some (0x0304, h, ps)
  | .streamRoute h ps => some (0x0305, h, ps)
  | .streamFallbackThreshold h ps => some (0x0306, h, ps)
  | .streamFallbackClear h ps => some (0x0306, h, ps)
  | .streamFallbackReturn h ps => some (0x0306, h, ps)
  | .streamStatus h ps => some (0x0307, h, ps)
  | .portConfigWrite h ps => some (0x0401, h, ps)
  | .portConfigRead h ps => some (0x0401, h, ps)
  | .portStart h ps => some (0x0402, h, ps)
  | .portStop h ps => some (0x0403, h, ps)
  | .portStatus h ps => some (0x0404, h, ps)
  | .cardConfigOpen h ps => some (0x0501, h, ps)
  | .cardConfigClose h ps => some (0x0501, h, ps)
  | .cardGain h ps => some (0x0502, h, ps)
  | .cardTapStart h ps => some (0x0503, h, ps)
  | .cardTapStop h ps => some (0x0503, h, ps)
  | .cardStats h ps => some (0x0504, h, ps)
  | .powerState h ps => some (0x0601, h, ps)
  | .powerStateRead h ps => some (0x0601, h, ps)
  | .domainCtrlOff h ps => some (0x0602, h, ps)
  | .domainCtrlOn h ps => some (0x0602, h, ps)
  | .domainCtrlRead h ps => some (0x0602, h, ps)
  | .padRelease h ps => some (0x0603, h, ps)
  | .voltagePolicyWrite h ps => some (0x0604, h, ps)
  | .voltagePolicyRead h ps => some (0x0604, h, ps)
  | .powerCeilingSet h ps => some (0x0605, h, ps)
  | .powerCeilingRead h ps => some (0x0605, h, ps)
  | .attest h ps => some (0x0701, h, ps)
  | .keyInstall h ps => some (0x0702, h, ps)
  | .lifecycleTransition h ps => some (0x0703, h, ps)
  | .lifecycleRead h ps => some (0x0703, h, ps)
  | .fwInstallManifest h ps => some (0x0704, h, ps)
  | .fwInstallChunk h ps => some (0x0704, h, ps)
  | .fwInstallFinish h ps => some (0x0704, h, ps)
  | .fwInstallRead h ps => some (0x0704, h, ps)
  | .modelKeyInstall h ps => some (0x0705, h, ps)
  | .modelKeyDelete h ps => some (0x0705, h, ps)
  | .debugUnlock h ps => some (0x0801, h, ps)
  | .debugLock h ps => some (0x0802, h, ps)
  | .traceCtrlStart h ps => some (0x0803, h, ps)
  | .traceCtrlStop h ps => some (0x0803, h, ps)
  | .loomHalt h ps => some (0x0804, h, ps)
  | .loomResume h ps => some (0x0804, h, ps)
  | .loomStep h ps => some (0x0805, h, ps)
  | .ringInfo h ps => some (0x0901, h, ps)
  | .ringRead h ps => some (0x0902, h, ps)
  | .tableWrite h ps => some (0x0A01, h, ps)
  | .tableRead h ps => some (0x0A02, h, ps)
  | .settingsCommit h ps => some (0x0A03, h, ps)
  | .settingsInvalidate h ps => some (0x0A03, h, ps)
  | .settingsRead h ps => some (0x0A04, h, ps)
  | .sysEnumerate h ps => some (0x0B01, h, ps)
  | .sysPhaseAssign h ps => some (0x0B02, h, ps)
  | .sysRouteBind h ps => some (0x0B03, h, ps)
  | .sysRouteUnbind h ps => some (0x0B03, h, ps)
  | .linkStatus h ps => some (0x0B04, h, ps)
  | _ => none

/-- The row of a command packet, by its OPCODE and, where one opcode has several forms, by the byte that selects the
form. A selector value that names no form falls to the first form, which answers BAD_PARAM. -/
def instrOf (opcode : Nat) (h : Hdr) (ps : List Byte) : Option Instr :=
  match opcode with
  | 0x0001 => some (.hello h ps)
  | 0x0002 => some (.identify h ps)
  | 0x0003 => some (.ping h ps)
  | 0x0004 => some (.status h ps)
  | 0x0005 => some (.reset h ps)
  | 0x0006 => some (.paceRead h ps)
  | 0x0101 => some (if ps.getD 0 0 == 1 then .modelLoadSegment h ps else if ps.getD 0 0 == 2 then .modelLoadCommit h ps else .modelLoadOpen h ps)
  | 0x0102 => some (.modelVerify h ps)
  | 0x0103 => some (.modelUnload h ps)
  | 0x0104 => some (if ps.getD 0 0 == 1 then .memLayoutWrite h ps else .memWrite h ps)
  | 0x0105 => some (.memRead h ps)
  | 0x0106 => some (.deckLoad h ps)
  | 0x0107 => some (.deckUnload h ps)
  | 0x0201 => some (.jobSubmit h ps)
  | 0x0202 => some (.jobCancel h ps)
  | 0x0203 => some (.jobStatus h ps)
  | 0x0204 => some (.resultFetch h ps)
  | 0x0205 => some (.resultRelease h ps)
  | 0x0206 => some (if ps.getD 0 0 == 1 then .sharesReadClient h ps else if ps.getD 0 0 == 2 then .schedConfigWrite h ps else if ps.getD 0 0 == 3 then .schedConfigRead h ps else .sharesSetClient h ps)
  | 0x0207 => some (.accountRead h ps)
  | 0x0301 => some (.streamOpen h ps)
  | 0x0302 => some (.streamFeed h ps)
  | 0x0303 => some (if ps.getD 0 0 == 1 then .streamMarkEnd h ps else .streamMarkPhrase h ps)
  | 0x0304 => some (.streamClose h ps)
  | 0x0305 => some (.streamRoute h ps)
  | 0x0306 =>
    let f := ps.getD 0 0
    some (if f.getLsbD 0 then .streamFallbackThreshold h ps else if f.getLsbD 1 then .streamFallbackClear h ps
      else if f.getLsbD 2 then .streamFallbackReturn h ps else .streamFallbackThreshold h ps)
  | 0x0307 => some (.streamStatus h ps)
  | 0x0401 => some (if ps.getD 1 0 == 1 then .portConfigRead h ps else .portConfigWrite h ps)
  | 0x0402 => some (.portStart h ps)
  | 0x0403 => some (.portStop h ps)
  | 0x0404 => some (.portStatus h ps)
  | 0x0501 => some (if ps.getD 0 0 == 1 then .cardConfigClose h ps else .cardConfigOpen h ps)
  | 0x0502 => some (.cardGain h ps)
  | 0x0503 => some (if ps.getD 0 0 == 1 then .cardTapStop h ps else .cardTapStart h ps)
  | 0x0504 => some (.cardStats h ps)
  | 0x0601 => some (if ps.getD 0 0 == 255 then .powerStateRead h ps else .powerState h ps)
  | 0x0602 => some (if ps.getD 0 0 == 1 then .domainCtrlOn h ps else if ps.getD 0 0 == 2 then .domainCtrlRead h ps else .domainCtrlOff h ps)
  | 0x0603 => some (.padRelease h ps)
  | 0x0604 => some (if ps.getD 0 0 == 1 then .voltagePolicyRead h ps else .voltagePolicyWrite h ps)
  | 0x0605 => some (if be ps 0 2 == 0 then .powerCeilingRead h ps else .powerCeilingSet h ps)
  | 0x0701 => some (.attest h ps)
  | 0x0702 => some (.keyInstall h ps)
  | 0x0703 => some (if ps.getD 0 0 == 255 then .lifecycleRead h ps else .lifecycleTransition h ps)
  | 0x0704 => some (if ps.getD 0 0 == 1 then .fwInstallChunk h ps else if ps.getD 0 0 == 2 then .fwInstallFinish h ps else if ps.getD 0 0 == 3 then .fwInstallRead h ps else .fwInstallManifest h ps)
  | 0x0705 => some (if ps.getD 0 0 == 1 then .modelKeyDelete h ps else .modelKeyInstall h ps)
  | 0x0801 => some (.debugUnlock h ps)
  | 0x0802 => some (.debugLock h ps)
  | 0x0803 => some (if ps.getD 0 0 == 1 then .traceCtrlStart h ps else .traceCtrlStop h ps)
  | 0x0804 => some (if ps.getD 1 0 == 1 then .loomResume h ps else .loomHalt h ps)
  | 0x0805 => some (.loomStep h ps)
  | 0x0901 => some (.ringInfo h ps)
  | 0x0902 => some (.ringRead h ps)
  | 0x0A01 => some (.tableWrite h ps)
  | 0x0A02 => some (.tableRead h ps)
  | 0x0A03 => some (if (ps.getD 0 0).getLsbD 0 then .settingsInvalidate h ps else .settingsCommit h ps)
  | 0x0A04 => some (.settingsRead h ps)
  | 0x0B01 => some (.sysEnumerate h ps)
  | 0x0B02 => some (.sysPhaseAssign h ps)
  | 0x0B03 => some (if ps.getD 0 0 == 1 then .sysRouteUnbind h ps else .sysRouteBind h ps)
  | 0x0B04 => some (.linkStatus h ps)
  | _ => none

/-- The table gives no row any bits, so no word spells a command. -/
def decodeTableWord (_nbits _w : Nat) : Option Instr := none

end Sys2Proof
end

