-- ==== Sys2Proof/Config.lean ====
section
/-!
DEFINITION. What one part fixes, and the values that the manual leaves open. An opaque constant has no value that
a proof can use: a statement holds whatever it is.
-/
namespace Sys2Proof

/-- MTYPE 0x07 of R314: what the devices of a system tell each other. The manual says when each is told, and not how the
bytes of such a message spell it (log 28). A link that is up is named by the device and port of both its ends. -/
inductive Control where
  /-- R308, R309: the device's number, the system's size, and the links that are up, which give its routes. -/
  | number (device devices : Nat) (wires : List (Nat × Nat))
  /-- R311: the root has been reset. -/
  | rootReset
  /-- R325: the links that are up, which give the routes anew. -/
  | routes (wires : List (Nat × Nat))
  /-- R308: a port is mis-wired. -/
  | miswired (port : Nat)
  /-- R326: the ports without a partner, to be switched off. -/
  | portsOff (ports : List Nat)
  /-- R320: the device's phase. -/
  | phase (code : Byte)
  /-- R312: a binding; its first end sends. An end is its device, port, LSID, position and job. -/
  | bind (number kind maxBlock window base : Nat) (narrowed : Bool) (ends : List (Nat × Nat × Byte × Nat × Word))
  /-- R403: a binding unbound. -/
  | unbind (number : Nat)
  /-- R313: a binding has ended. -/
  | ended (number : Nat)
  /-- R193, R325: a binding has failed. -/
  | failed (number : Nat)
  /-- R321: a receive end is attached, or is not. -/
  | attached (number recvEnd : Nat) (is : Bool)
  /-- R313: a receive end has left its binding. -/
  | left (number recvEnd : Nat)
  /-- R193, R321, R325: a job ends with LINK_DOWN. -/
  | stopJob (job : Word)
  /-- R325: a port's link has come up or gone down, told to the root. -/
  | linkChange (device port : Nat) (up : Bool)
  /-- R324: tokens for a stream that the device owns. -/
  | tokens (stream : Word) (tokens : List Word)
  /-- R398: a device has closed a stream; the jobs whose token sink it is are cancelled. -/
  | sinkClosed (device : Nat) (stream : Word)
deriving DecidableEq, Repr

end Sys2Proof

namespace Sys2Proof.Config

/-- R314: the body of an MTYPE 0x07 message (log 28). -/
opaque controlBody : Control → List Byte

/-- R314: what the body of an MTYPE 0x07 message says; none when it says nothing that the manual describes (log 28). -/
opaque controlOf : List Byte → Option Control

/-- R495: VOUT_COMMAND's word for a voltage in mV, in the format of the regulator's VOUT_MODE, which the manual does not give
(log 177). -/
opaque voutWord : Nat → Half

/-- R301: the identity flit of a serial number, port, silicon revision and device number; the manual gives its fields and not
where they lie (log 28). -/
opaque identityFlit : DWord → Nat → Byte → Option Nat → List Byte

/-- R308: the links that the n-th walk of the root finds between devices other than the root: serial number and port of
each end. They are other devices' (log 29). -/
opaque foundLinks : Nat → List (DWord × Nat × DWord × Nat)

/-- R308, R320: whether another device holds a job or an open stream at the n-th question (log 29). -/
opaque remoteBusy : Nat → Nat → Bool

/-- R403: whether a job of another device is Not ready at the n-th question (log 29). -/
opaque remoteJob : Nat → Nat → Word → Bool

/-- R375: the part's unique serial number (log 34, as for the constants of the part below). -/
opaque serial : DWord
/-- R2, R375: true for a CQ9600-E, false for a CQ9600-C. -/
opaque variantE : Bool
/-- R331, R375: the MAC address of the host link. -/
opaque mac : BitVec 48
/-- R374, R514: FW_VERSION of the firmware image that the part left production with. -/
opaque fwVersion : Word
/-- R561: the firmware manifest in the boot flash at delivery. -/
opaque manifest : List Byte
/-- R561: the firmware image in the boot flash at delivery. -/
opaque image : List Byte
/-- R520 bit 0: the bytes of the Seed ROM. -/
opaque seedRom : List Byte
/-- R506: the device unique secret, 32 bytes. -/
opaque dus : List Byte
/-- R506: the DIK certificate, 3,073 bytes. -/
opaque dikCert : List Byte
/-- R505: SHAKE256 digests of the four Yilath keys in the Seed ROM: 0 firmware root, 1 provisioning,
2 manufacturing debug, 3 return. -/
opaque yilathDigest : Nat → List Byte

/-- R436: PACE, in units of 1,000 waves/s, of entry i of table 0x08, measured at production test (log 34). -/
opaque paceGrid : Nat → Word

/-- R435: OFFSET in the retention SRAM of an item of the settings image (log 9). -/
opaque retentionOffset : Nat → Word
/-- R435, R490: ITEM, OFFSET and LENGTH of the entries of table 0x07 that the device keeps for itself (log 9). -/
opaque retentionOwn : List (Word × Word × Word)

/-- R150: word k (0 C0, 1 C1, 2 C2) of segment s of factory entry e of table 0x02. The manual gives the entry's
kind, domain, tails and error bound but not its coefficients. -/
opaque curveCoef : Nat → Nat → Nat → Word

/-- R148, R201: what a CRV micro-step gives that names an entry of KIND 0 of table 0x02. The manual states no result and
does not refuse such a program (log 15). -/
opaque curveUnused : Word → Word

/-- R504: Falcon-1024 verification (public key, message, signature), Falcon specification 1.2 (log 35, as for the four
functions below). -/
opaque falconVerify : List Byte → List Byte → List Byte → Bool
/-- R504: the Falcon-1024 key pair that a 48-byte seed generates: public key. -/
opaque falconPublic : List Byte → List Byte
/-- R504: the Falcon-1024 signature of a message under the key pair of a seed; n numbers the signature. -/
opaque falconSign : List Byte → List Byte → Nat → List Byte
/-- R504: the ML-KEM-1024 encapsulation key that d and z (64 bytes) generate, FIPS 203. -/
opaque kemPublic : List Byte → List Byte
/-- R504: ML-KEM-1024 decapsulation of a ciphertext under the key pair of d and z. -/
opaque kemDecaps : List Byte → List Byte → List Byte

/-- R233, R504: byte j of the n-th draw of 32 bytes from Bark's entropy source (log 36). -/
opaque randomByte : Nat → Nat → Byte

/-- R128: the FP32 code that a division of zero by zero, or of infinity by infinity, gives. The manual states neither
this quotient nor its flags (log 7). -/
opaque divInvalid : Word → Word → Word
/-- R128: whether such a division sets NV (log 7). -/
opaque divNv : Word → Word → Bool

/-- R333: what MKA has made by the n-th EAPOL frame: the CAK slot of its participant, the SCI and number of each live receive
association, and the number of the live transmit association. MKA is IEEE 802.1X's and the manual gives none of its steps
(log 32). -/
opaque mka : Nat → List Byte → Nat × List (DWord × Nat) × Option Nat

/-- R335: the identification of the datagram that is the n-th output (log 173). -/
opaque ipIdent : Nat → Word
/-- R334, R339: the UDP checksum of a datagram to an address; the manual does not give it (log 173). -/
opaque udpChecksum : List Byte → List Byte → Half
/-- R336: how many datagrams the link sends before the n-th moment that the model looks at its queues (log 173). -/
opaque linkSent : Nat → Nat

/-- R334: whether duplicate address detection of the n-th IPv6 address succeeded (log 32). -/
opaque dadPassed : Nat → Bool

/-- R347: whether the next hop of a unicast destination is resolved at its n-th use; ARP and NDP answers come from the
network (log 21). -/
opaque resolved : Nat → List Byte → Bool

/-- R340: of a sample exactly on decision value n of the law (true µ-law), whether the upper of its two neighbouring codes
is sent; ITU-T G.711's choice is not in the manual (log 20). -/
opaque g711Tie : Bool → Nat → Bool

/-- R203, R221: the n-th sample that the manual does not give: one skipped by a step without OUT, or the old program's x in a
cross-fade step whose old program ran no OUT (log 33). -/
opaque freeWord : Nat → Word

/-- R439: the whole degrees that report a temperature of a number of quarter degrees that is no multiple of 4; the manual
does not say how it is rounded (log 16). -/
opaque wholeDegrees : Int → Int

/-- R593, R594: the hottest reading in quarter degrees when every sensor is excluded (log 16). -/
opaque noSensor : Int

/-- R530, R555: the n-th number that the manual does not give: the mechanism of a unit that a warm reset's self-test retires
(log 22), or how much of a record's write a power loss lets through (log 31). -/
opaque freeNat : Nat → Nat

/-- R525: what the n-th access of the debug port reads outside job regions, external memory and model regions (log 27). -/
opaque dapData : Nat → List Byte

end Sys2Proof.Config
end

