-- ==== Sys2Proof/Machine/Factory.lean ====
section
/-!
DEFINITION. Factory contents of the retained registers and tables (R150, R330, R433, R434, R487, R570).
-/
namespace Sys2Proof.Machine.Factory

open Sys2Proof Sys2Proof.Machine

/-- R570 item 0x0001: EXT_JOB 32, SPEED 0, INLINE_ECC 0, HOT 3. -/
def memLayout : DWord := BitVec.ofNat 64 (32 * 2 ^ 28 + 3)

/-- R570 item 0x0002. -/
def netConfig : DWord :=
  BitVec.ofNat 64 (41730 * 2 ^ 48 + 1500 * 2 ^ 34 + 5 * 2 ^ 19 + 2 ^ 9 + 2 ^ 8 + 7)

/-- R570 item 0x0004: CHUNK 8, BATCH 0, DEFAULT_SHARE 256, SLICE 240. -/
def schedConfig : DWord := BitVec.ofNat 64 (8 * 2 ^ 40 + 256 * 2 ^ 16 + 240)

/-- R570 item 0x0005: SHARE 0 (unset), MAX_JOBS 4,096. -/
def shares : List (Half × Half) := List.replicate 256 (0, 4096)

/-- R411, R570: CLOCK 0, CS_ENTRY 0, RATE 2, GROUP 0, PACK 1, SILENT 1. -/
def reedConfig : DWord := BitVec.ofNat 64 (2 * 2 ^ 24 + 2 ^ 20 + 2 ^ 19)

/-- R422, R570: MIN_MV 800, MAX_MV 800, MODE 0, TARGET 0. -/
def voltagePolicy : DWord := BitVec.ofNat 64 (800 * 2 ^ 54 + 800 * 2 ^ 44)

/-- R570: table 0x01, every entry unused. -/
def table1 : List (List Byte) := List.replicate 4 (zeros 8)

/-- R149: coefficient k of segment s of factory curve e: the part's (log 6), and finite. -/
def curveCoef (e s k : Nat) : Word :=
  let w := Config.curveCoef e s k
  if w.toNat / 2 ^ 23 % 256 == 255 then w &&& 0xBFFFFFFF#32 else w

/-- The 768 bytes of the segments of factory curve e. -/
def curveSegments (e : Nat) : List Byte :=
  (List.range 64).flatMap fun s =>
    leBytes 4 (curveCoef e s 0).toNat ++ leBytes 4 (curveCoef e s 1).toNat ++ leBytes 4 (curveCoef e s 2).toNat

/-- A table 0x02 entry from its fields (R147). -/
def curveEntry (e kind tailLo tailHi : Nat) (inScale xLo xHi loValue hiValue eCoef : Nat) : List Byte :=
  leBytes 1 kind ++ leBytes 1 tailLo ++ leBytes 1 tailHi ++ zeros 1 ++ leBytes 4 inScale ++ leBytes 4 xLo
    ++ leBytes 4 xHi ++ leBytes 4 loValue ++ leBytes 4 hiValue ++ leBytes 4 eCoef ++ zeros 4 ++ curveSegments e

/-- R150: the eight factory curves; entries 8 to 63 are unused. -/
def table2 : List (List Byte) :=
  [ curveEntry 0 2 1 1 0x3FB8AA3B 0xC3160000 0x43000000 0 0x7F800000 0,
    curveEntry 1 2 1 1 0x3F800000 0xC3160000 0x43000000 0 0x7F800000 0,
    curveEntry 2 3 1 0 0x3F800000 0x00000001 0x7F7FFFFF 0xFF800000 0 0x3F317218,
    curveEntry 3 1 1 1 0x3F800000 0xC1000000 0x41000000 0 0x3F800000 0,
    curveEntry 4 1 1 1 0x3F800000 0xC0800000 0x40800000 0xBF800000 0x3F800000 0,
    curveEntry 5 1 1 2 0x3F800000 0xC1000000 0x41000000 0 0 0,
    curveEntry 6 1 1 2 0x3F800000 0xC1800000 0x41800000 0 0 0,
    curveEntry 7 1 1 2 0x3F800000 0xC1800000 0x41800000 0 0 0 ]
    ++ List.replicate 56 (zeros 800)

/-- A step of table 0x03 (R11, R432): DOMAIN, ACTION, DELAY 0. -/
def powerStep (domain action : Nat) : List Byte := leBytes 2 domain ++ beBytes 1 action ++ zeros 1

/-- An entry of table 0x03 from its steps (R432). -/
def powerEntry (steps : List (Nat × Nat)) : List Byte :=
  beBytes 1 steps.length ++ zeros 3 ++ padTo 240 (steps.flatMap fun p => powerStep p.1 p.2) ++ zeros 12

/-- R487: entries 4 and 6. -/
def powerDown : List (Nat × Nat) :=
  [(0x1005, 2), (0x1005, 0), (0x1006, 0), (0x1000, 0), (0x1001, 0), (0x1003, 2), (0x1003, 0), (0x1004, 2),
   (0x1004, 0), (0x100B, 2), (0x100B, 0), (0x1002, 2), (0x1002, 0), (0x1007, 2), (0x1007, 0), (0x1008, 0),
   (0x100A, 0), (0x1009, 0), (0x100C, 0), (0x100D, 2), (0x100D, 0)]

/-- R487: entry 5. -/
def powerUp : List (Nat × Nat) :=
  [(0x100D, 1), (0x100D, 3), (0x100C, 1), (0x1009, 1), (0x100A, 1), (0x1008, 1), (0x1007, 1), (0x1007, 3),
   (0x1002, 1), (0x1002, 3), (0x100B, 1), (0x100B, 3), (0x1004, 1), (0x1004, 3), (0x1003, 1), (0x1003, 3),
   (0x1001, 1), (0x1000, 1), (0x1006, 1), (0x1005, 1), (0x1005, 3)]

/-- R487: table 0x03. -/
def table3 : List (List Byte) :=
  [ powerEntry [], powerEntry [], powerEntry [(0x1005, 2), (0x1005, 0), (0x006F, 0)],
    powerEntry [(0x006F, 1), (0x1005, 1), (0x1005, 3)], powerEntry powerDown, powerEntry powerUp,
    powerEntry powerDown ]

/-- R286: table 0x04, every entry unused. -/
def table4 : List (List Byte) := List.replicate 64 (zeros 48)

/-- R433: table 0x05, entry 0 with KIND 1, SECTIONS 0 and GAIN 1.0. -/
def table5 : List (List Byte) :=
  (leBytes 1 1 ++ zeros 3 ++ leBytes 4 0x3F800000 ++ zeros 168) :: List.replicate 31 (zeros 176)

/-- R434: table 0x06, entry 0. -/
def table6 : List (List Byte) :=
  (leBytes 1 0x01 ++ leBytes 1 0x00 ++ leBytes 1 0x29 ++ zeros 21 ++ leBytes 1 0x01 ++ zeros 7)
    :: List.replicate 15 (zeros 32)

/-- R436: the voltages and temperatures of table 0x08. -/
def tempAxis : List Int := [-40, -20, 0, 20, 40, 55, 70, 80, 90, 95, 105]

/-- R436: VCORE of entry i in mV. -/
def gridMv (i : Nat) : Nat := 550 + 25 * (i / 11)

/-- R48: a column in units of 1,000 waves/s, at 550, 620, 700, 800 and 850 mV: at 70 °C, or the minimum of the grade. -/
def paceColumn (at70 variantE : Bool) : List (Nat × Nat) :=
  if at70 then [(550, 450000), (620, 660000), (700, 900000), (800, 1200000), (850, 1320000)]
  else if variantE then [(550, 370000), (620, 580000), (700, 820000), (800, 1120000), (850, 1230000)]
  else [(550, 410000), (620, 620000), (700, 850000), (800, 1140000), (850, 1260000)]

/-- R596: the straight line between the rows of a column, rounded up. -/
def columnAt : List (Nat × Nat) → Nat → Nat
  | (a, x) :: (b, y) :: rest, mv =>
    if mv ≤ b then x + ceilDiv ((y - x) * (mv - a)) (b - a) else columnAt ((b, y) :: rest) mv
  | [(_, x)], _ => x
  | [], _ => 0

/-- R48, R436, R596: PACE of entry i in units of 1,000 waves/s: 0 at −40, −20 and 105 °C on a CQ9600-C, and elsewhere the part's
measurement, which meets R48: the minimum of its grade, and at 70 °C the column of that name, from 625 to 800 mV to within 1 %. -/
def gridPace (i : Nat) : Nat :=
  let measured := (Config.paceGrid i).toNat
  if !Config.variantE && (i % 11 == 0 || i % 11 == 1 || i % 11 == 10) then 0
  else if i % 11 == 6 then
    let column := columnAt (paceColumn true Config.variantE) (gridMv i)
    let top := if 625 ≤ gridMv i && gridMv i ≤ 800 then column * 101 / 100 else 2 ^ 32 - 1
    min (max measured column) top
  else max measured (columnAt (paceColumn false Config.variantE) (gridMv i))

end Sys2Proof.Machine.Factory
end

