-- ==== Sys2Proof/Machine/State.lean ====
section
/-!
DEFINITION. The state of the CQ9600 as plain data, and the state after reset. The rules named are those of spec/.
-/
namespace Sys2Proof.Machine

open Sys2Proof

/-- Sparse bytes: addresses strictly rising, no listed byte equal to zero; an unlisted byte reads zero. -/
abbrev Mem := List Host.Cell

/-- R359, R597: the statuses, in the order of R359. -/
inductive Status where
  | ok | accepted
  | badCrc | badOpcode | badParam | badLength
  | notReady | resultGone | superseded | busy | wrongState
  | noSpace | noContext | limit
  | authFail | locked | rollback
  | faultReplayed | faultLost | linkDown
deriving DecidableEq, Repr

/-- R349, R350: a reply or event packet as the device forms it; its bytes and CRCs follow from these fields. -/
structure OutPacket where
  iface   : Iface
  dest    : Endpoint
  isReply : Bool
  rep     : Bool
  opcode  : Half
  status  : Status
  seq     : Word
  device  : Byte
  master  : MasterId
  context : Word
  hostTag : Word
  params  : List Byte
  /-- R349, R350: MASTER and MGMT of a request whose own do not agree with its interface; its reply copies them. -/
  copied  : Option (Byte × Bool) := none
deriving DecidableEq, Repr

/-- R337: the addressing of an egress packet: DSCP, UDP source port, and the destination's address and port. -/
structure RtpPath where
  dscp    : Nat
  srcPort : Nat
  v6      : Bool
  dst     : Endpoint
deriving DecidableEq, Repr

/-- R494: the AVSBus commands that the part uses, all on rail 0. -/
inductive AvsCommand where
  | voltageWrite (mv : Nat)
  | voltageRead
  | currentRead
  | temperatureRead
  | statusRead
deriving DecidableEq, Repr

/-- What leaves the device. On the host link it is handed to the transmit crossing, from which R336 orders the frames
(`Net.queue`, `Net.wire`). -/
inductive Output where
  /-- A reply or event packet handed to its interface. -/
  | packet (p : OutPacket)
  /-- R310: a reply or event of another device that the root passes to the host unchanged. -/
  | relay (bytes : List Byte)
  /-- R334: an ARP, NDP or ICMP answer; a link-level control frame of MKA or DHCP. -/
  | netAnswer (kind : Nat) (dest : List Byte) (body : List Byte)
  /-- R337, R339, R340: one RTP packet to one destination: stream, destination index, marker, sequence, timestamp, SSRC,
  payload type, payload and addressing. -/
  | rtp (stream : Word) (dest : Nat) (marker : Bool) (seq : Half) (ts ssrc : Word) (pt : Nat) (payload : List Byte)
      (path : RtpPath)
  /-- R440, R446: one AES3 frame of an output: preamble Z or X, and time slots 4 to 31 of each subframe. -/
  | reed (port : Nat) (z : Bool) (s0 s1 : BitVec 28)
  /-- R298: a flit handed to a Selvage port. -/
  | flit (port : Nat) (bytes : List Byte)
  /-- R513: bytes sent on the provisioning UART. -/
  | uart (bytes : List Byte)
  /-- R370: a wake-bus frame that the device sends; none is the closing delimiter alone. -/
  | wakeFrame (p : Option OutPacket)
  /-- R525: the answer of the debug port: a byte string, or an error response. -/
  | dap (answer : Option (List Byte))
  /-- R582: RAIL_EN driven high or low. -/
  | railEn (high : Bool)
  /-- R494: an AVSBus command. -/
  | avs (c : AvsCommand)
  /-- R495: the bytes that the part sends in a PMBus transaction: of a write with its PEC, of a read up to the repeated address. -/
  | pmbus (bytes : List Byte)
deriving DecidableEq, Repr

/-! ### The command protocol (spec/15) -/

/-- R356, R357: an open fragment assembly. -/
structure Assembly where
  opcode  : Half
  context : Word
  hostTag : Word
  device  : Byte
  lastSeq : Word
  frags   : Nat
  data    : List Byte
  lastMs  : Nat
deriving DecidableEq, Repr

/-- R353: one sequence number seen in the window, with its stored reply, or none while the reply is pending. -/
structure Seen where
  seq   : Word
  reply : Option OutPacket
deriving DecidableEq, Repr

/-- What a device keeps for one master. -/
structure MasterState where
  /-- Session open; 1 bit; 15 R352; reset false. -/
  session : Bool
  /-- Event mask of the last HELLO; 16 bits; 15 R365, 16 R374; reset 0 (DESIGN CHOICE 0, log 3). -/
  eventMask : Half
  /-- Address and port of the last HELLO; 14 R334; reset empty (DESIGN CHOICE, log 3). -/
  dest : Endpoint
  /-- Interface of the last HELLO; 15 R365; reset hostLink, wakeBus for the controller (DESIGN CHOICE, log 3). -/
  iface : Iface
  /-- Newest sequence accepted; 32 bits or none; 15 R353; reset none. -/
  newest : Option Word
  /-- Sequences seen in the 64-entry window, with replies; 15 R353; reset empty. -/
  seen : List Seen
  /-- Next event sequence; 32 bits; 15 R365; reset 0. -/
  eventSeq : Word
  /-- Event queue, at most 256; 15 R365; reset empty. -/
  events : List OutPacket
  /-- Open assemblies, at most 4; 15 R357; reset empty. -/
  assemblies : List Assembly
  /-- PROTO_COUNTS.BAD_HEADER; 16 bits; 15 R372; reset 0. -/
  badHeader : Half
  /-- PROTO_COUNTS.STALE; 16 bits; 15 R372; reset 0. -/
  stale : Half
  /-- PROTO_COUNTS.DUPLICATES; 32 bits; 15 R372; reset 0. -/
  duplicates : Word
  /-- PROTO_COUNTS.EVENTS_DROPPED; 32 bits; 15 R372; reset 0. -/
  eventsDropped : Word
  /-- PROTO_COUNTS.FRAG_EXPIRED; 16 bits; 15 R372; reset 0. -/
  fragExpired : Half
  /-- PROTO_COUNTS.NOT_ROOT; 16 bits; 15 R372; reset 0. -/
  notRoot : Half
deriving DecidableEq, Repr

/-- R361, R362: a waiting command that has lost a conflict, or found the firmware queue full (R364). -/
structure Doomed where
  master : MasterId
  seq    : Word
  status : Status
  winner : MasterId
  winOpcode : Half
  winSeq : Word
deriving DecidableEq, Repr

/-- R361: a waiting command that is identical to one that the other master had pending, with that one's answer. -/
structure Twin where
  master  : MasterId
  seq     : Word
  status  : Status
  params  : List Byte
  context : Option Word
deriving DecidableEq, Repr

/-- R335: a datagram in reassembly. -/
structure IpAssembly where
  v6    : Bool
  src   : List Byte
  dst   : List Byte
  ident : Word
  startMs : Nat
  proto : Byte
  pieces : List (Nat × List Byte)
  total : Option Nat
deriving DecidableEq, Repr

/-- The command protocol's state. -/
structure Proto where
  /-- The host's protocol state; 15 R352 to R372; reset: no session. -/
  host : MasterState
  /-- The management controller's protocol state; 15 R352 to R372; reset: no session. -/
  mgmt : MasterState
  /-- Wake-bus reply queue, at most 16 packets; 15 R371; reset empty. -/
  replyQueue : List OutPacket
  /-- Commands that lost a conflict and wait for their answer; 15 R361, R362; reset empty. -/
  doomed : List Doomed
  /-- Waiting commands that are identical to one that has run, with its answer; 15 R361; reset empty. -/
  twins : List Twin
  /-- Packets queued to the Treadle, 256 at most, and stream commands that wait in the hardware decoder; 15 R364, 20 R480, R484;
  reset empty. -/
  fwQueue : List Instr
  /-- Sequences of the packets of fwQueue and of those on their way from it, recorded and checked up to OPCODE on arrival; 15 R353,
  R364; reset empty. -/
  held : List (MasterId × Word)
  /-- Datagrams in IP reassembly, at most 16; 14 R335; reset empty. -/
  ip : List IpAssembly
deriving DecidableEq, Repr

/-! ### Retained fields, flash and settings (spec/24) -/

/-- The live retained fields (R570). -/
structure Retained where
  /-- MEM_LAYOUT, retained fields as written; 64 bits; 11 R243; reset EXT_JOB 32, SPEED 0, INLINE_ECC 0, HOT 3 (R570). -/
  memLayout : DWord
  /-- NET_CONFIG; 64 bits; 14 R330; reset factory of R570. -/
  netConfig : DWord
  /-- NET_ADDR; 64 bytes; 14 R331; reset zero. -/
  netAddr : List Byte
  /-- SCHED_CONFIG; 64 bits; 12 R272; reset CHUNK 8, BATCH 0, DEFAULT_SHARE 256, SLICE 240. -/
  schedConfig : DWord
  /-- SHARE and MAX_JOBS of clients 0 to 255; 16 bits each; 16 R392; reset 0 and 4,096. -/
  shares : List (Half × Half)
  /-- REED_CONFIG of AIN_0 to AIN_15; 64 bits each; 17 R411; reset RATE 2, PACK 1, SILENT 1, rest 0. -/
  reedIn : List DWord
  /-- REED_CONFIG of AOUT_0 to AOUT_15; 64 bits each; 17 R411; reset as the inputs. -/
  reedOut : List DWord
  /-- VOLTAGE_POLICY; 64 bits; 17 R422; reset MIN_MV 800, MAX_MV 800, MODE 0, TARGET 0. -/
  voltagePolicy : DWord
  /-- POWER_CEILING in watts; 16 bits; 17 R423; reset 560. -/
  ceiling : Half
  /-- Table 0x01, user formats; 4 entries of 8 bytes; 03 R76; reset unused. -/
  table1 : List (List Byte)
  /-- Table 0x02, curves; 64 entries of 800 bytes; 05 R147; reset R150 (coefficients opaque, log 6). -/
  table2 : List (List Byte)
  /-- Table 0x03, transitions; 7 entries of 256 bytes; 17 R432; reset R487. -/
  table3 : List (List Byte)
  /-- Table 0x04, fallbacks; 64 entries of 48 bytes; 12 R286; reset unused. -/
  table4 : List (List Byte)
  /-- Table 0x05, equalisation; 32 entries of 176 bytes; 17 R433; reset entry 0 used with GAIN 1.0. -/
  table5 : List (List Byte)
  /-- Table 0x06, channel status; 16 entries of 32 bytes; 17 R434; reset entry 0 professional PCM. -/
  table6 : List (List Byte)
deriving DecidableEq, Repr

/-- One key slot of Bark (R506, R512): its stored generation and its payload, empty when the slot is empty. -/
structure KeySlot where
  generation : Word
  payload    : List Byte
deriving DecidableEq, Repr

/-- R507: the key store record; four slots of each kind. -/
structure KeyStore where
  generation : Nat
  cak   : List KeySlot
  debugKeys : List KeySlot
  model : List KeySlot
deriving DecidableEq, Repr

/-- The boot flash (R561) and the settings image state. -/
structure Flash where
  /-- Firmware manifest region, empty when erased; 64 KiB; 24 R561; reset the delivered manifest. -/
  manifest : List Byte
  /-- Firmware image region; 32 MiB; 24 R561; reset the delivered image. -/
  image : List Byte
  /-- Settings slot 0, empty when erased; 128 KiB; 24 R561, R568; reset empty. -/
  slot0 : List Byte
  /-- Settings slot 1, empty when erased; 128 KiB; 24 R561, R568; reset empty. -/
  slot1 : List Byte
  /-- Key store copy 0; 64 KiB; 21 R507; reset every slot empty, generation 0. -/
  keys0 : KeyStore
  /-- Key store copy 1; 64 KiB; 21 R507; reset as copy 0. -/
  keys1 : KeyStore
  /-- Which key store copy is current; 1 bit; 21 R507; reset copy 0 (DESIGN CHOICE, log 3). -/
  keysCurrent : Bool
  /-- Last valid clock checkpoint: power-cycle count and minute value; 23 R551; reset (1, 64). -/
  checkpoint : Option (Word × Word)
  /-- Which settings slot is current; none when neither is; 24 R568; reset none. -/
  current : Option Bool
  /-- SOURCE of R438 at the last boot; 8 bits; 17 R438, 24 R568; reset 1, no image existed. -/
  source : Byte
  /-- Heartwood's copy of the current image; 128 KiB; 20 R491; reset empty. -/
  heartwoodCopy : List Byte
deriving DecidableEq, Repr

/-! ### Memory (spec/11) -/

/-- The canopy and external memory. -/
structure Memory where
  /-- Vault bytes: vault n offset o at n * 2^30 + o; 68 GiB; 11 R240; reset zero (24 R563 step 3). -/
  vault : Mem
  /-- Channel bytes: CH_n offset o at n * 2^35 + o; up to 512 GiB; 11 R248; reset unlisted, reads 0 (DESIGN CHOICE, log 4). -/
  ext : Mem
  /-- VAULT_CORR of vaults 0 to 67; 32 bits each; 11 R244; reset 0. -/
  vaultCorr : List Word
  /-- CH_CORR of CH_0 to CH_15; 32 bits each; 11 R250; reset 0. -/
  chCorr : List Word
  /-- Refresh period of each canopy quadrant in ms; 11 R246; reset 32 (DESIGN CHOICE, log 3). -/
  refreshMs : List Nat
  /-- What debug writes have changed in the records of system space since these were last written, as the difference in each
  byte: the model's own form; 11 R260, 21 R525; reset empty. -/
  altered : Mem
  /-- Blocks of system space in use: vault, block index, owner; 11 R260, R261; reset empty. -/
  blocks : List (Nat × Nat × Nat)
  /-- Reserve-pool blocks lent and not yet returned; 12 R283; reset 0. -/
  lent : Nat
deriving DecidableEq, Repr

/-! ### Units (spec/01, spec/22) -/

/-- One physical Loom. -/
structure LoomUnit where
  /-- Failed or retired; 1 bit; 01 R32, 22 R530; reset false: self-test found every unit healthy (DESIGN CHOICE, log 2). -/
  failed : Bool
  /-- Healthy weft lane groups; 16 bits; 04 R121, 22 R531; reset all (DESIGN CHOICE, log 2). -/
  lanes : BitVec 16
  /-- Halted by LOOM_HALT; 1 bit; 17 R428; reset false. -/
  halted : Bool
  /-- Operating minutes of recent faults; 22 R530; reset empty. -/
  faults : List Word
  /-- Replays of the unit's work since the last cold boot; 32 bits; 22 R543; reset 0. -/
  replays : Word
deriving DecidableEq, Repr

/-- A batch that a Shuttle runs (R205, R217): its program, its streams in ascending slot order, each with whether it is the
cross-fade companion that runs (R221), and the index of the micro-step in progress. -/
structure Batch where
  program : Word
  streams : List (Word × Bool)
  micro   : Nat
deriving DecidableEq, Repr

/-- One Shuttle. -/
structure Shuttle where
  /-- Failed or retired; 1 bit; 01 R32, 22 R530; reset false (DESIGN CHOICE, log 2). -/
  failed : Bool
  /-- Batch in progress; 09 R217; reset none. -/
  batch : Option Batch
  /-- Waves of work since its contexts were last written; 22 R538; reset 0. -/
  wavesSinceWrite : Nat
  /-- Operating minutes of recent faults; 22 R530; reset empty. -/
  faults : List Word
  /-- Replays of the unit's work; 32 bits; 22 R543; reset 0. -/
  replays : Word
deriving DecidableEq, Repr

/-- One Shuttle cluster. -/
structure Cluster where
  /-- Its 17 Shuttles; 09 R196. -/
  shuttles : List Shuttle
  /-- The spare's position; 01 R38; reset 16, the highest healthy. -/
  spare : Option Nat
  /-- Programs in the weight store, most recently used first; 4 MiB; 09 R196, R224; reset empty. -/
  programs : List Word
  /-- Of each of these programs, its micro-steps in the program memory of 64 KiB and its weights in the weight store; 09 R196,
  R224; reset empty. -/
  store : List (Word × List Card × Mem)
deriving DecidableEq, Repr

/-- The units and the dent map. -/
structure Units where
  /-- Looms 0 to 67; 01 R21. -/
  looms : List LoomUnit
  /-- Dent map: the Loom of each dent 0 to 63; 01 R33; reset R33 over 68 healthy Looms. -/
  dentMap : List (Option Nat)
  /-- Home vault of each dent; 01 R31; reset as the dent map. -/
  home : List (Option Nat)
  /-- System vaults: home to no dent, over a Loom that the cold boot's self-test passed; 11 R260, 24 R571; reset 16, 33,
  50 and 67. -/
  sysVaults : List Nat
  /-- Affinity tag of each dent; 32 bits or none; 12 R269; reset none. -/
  tags : List (Option Word)
  /-- Shuttle clusters 0 to 15; 01 R21. -/
  clusters : List Cluster
  /-- Populated channels; 16 bits; 11 R248; reset all (DESIGN CHOICE, log 2). -/
  populated : BitVec 16
  /-- CH_PRESENT: populated and trained; 16 bits; 11 R243, R249; reset all (DESIGN CHOICE, log 2). -/
  present : BitVec 16
  /-- DENSITY; 4 bits; 11 R243; reset 4, 16 GiB (DESIGN CHOICE, log 2). -/
  density : BitVec 4
  /-- SPEED_NOW; 4 bits; 11 R243; reset 0, 9,600 MT/s (DESIGN CHOICE, log 2). -/
  speedNow : BitVec 4
  /-- MEM_LAYOUT in use, fixed at cold boot; 64 bits; 11 R243; reset factory. -/
  layout : DWord
  /-- Retrainings of write DQ after a drift, of each channel; 11 R249; reset 0 each. -/
  retrained : List Nat
  /-- Channels whose training results the retention SRAM holds; 16 bits; 11 R249, 20 R490; reset all, as populated. -/
  training : BitVec 16
  /-- Read and write DQ trainings of each channel since its results were made; 11 R249; reset 1 each. -/
  dqTrained : List Nat
deriving DecidableEq, Repr

/-! ### Models, decks and jobs (spec/04, 12, 16) -/

/-- R377, R380: a hot entry. -/
structure HotRange where
  offset : Nat
  length : Nat
  dents  : DWord
  /-- R241: of each dent with a copy, the parts of its hot region that hold the copy in order: offset and length. -/
  copies : List (Nat × List (Nat × Nat))
deriving DecidableEq, Repr

/-- R377 to R382: a loaded model. -/
structure Model where
  id        : Word
  bytes     : Nat
  base      : Nat
  encrypted : Bool
  keyId     : Word
  committed : Bool
  /-- Present segments with their kept digests, in ascending index (R379). -/
  segments  : List (Nat × List Byte)
  /-- Of an encrypted model, the digests of the present segments' plain bytes (R381, log 162). -/
  plain     : List (Nat × List Byte)
  hot       : List HotRange
  programs  : List Nat
deriving DecidableEq, Repr

/-- R115: a knot table entry; a range is (stripe buffer?, first line, lines). -/
structure KnotEntry where
  bound     : Nat
  liveBytes : Nat
  ranges    : List (Bool × Nat × Nat)
deriving DecidableEq, Repr

/-- R114: a position of a deck, with its streams. -/
structure Position where
  fetch       : List Card
  execute     : List Card
  firstBound  : Nat
  knots       : List KnotEntry
  ways        : Nat
  units       : Nat
  staticWaves : Nat
deriving DecidableEq, Repr

/-- R116: a placement alternative. -/
structure Alternative where
  vaultDents : DWord
  channels   : Half
  affinity   : Word
  dents      : List Nat
deriving DecidableEq, Repr

/-- R113: a deck image as read. -/
structure DeckImage where
  waves     : DWord
  bobbins   : List Byte
  ufMask    : Byte
  deckId    : List Byte
  positions : List Position
  alts      : List Alternative
deriving DecidableEq, Repr

/-- No deck: what a member job of R295 runs. -/
def DeckImage.none : DeckImage :=
  { waves := 0, bobbins := [], ufMask := 0, deckId := [], positions := [], alts := [] }

/-- R384: a loaded deck. -/
structure Deck where
  number : Nat
  model  : Word
  offset : Nat
  length : Nat
  binds  : List Word
  image  : DeckImage
deriving DecidableEq, Repr

/-- R386: the kinds of a job. -/
inductive JobKind where
  | plain | batch | member
deriving DecidableEq, Repr

/-- R387 to R390: what is kept of a position of a job: its halts and flags. -/
structure PosState where
  fetchHalt : Option Word
  execHalt  : Option Word
  arith     : Word
  waves     : Nat
deriving DecidableEq, Repr

/-- R257: a token record held at a token port. -/
structure HeldTokens where
  seq    : Word
  tokens : List Word
deriving DecidableEq, Repr

/-- A complete record that waits at a token or frame port: the transfer and piece that carry it, and its bytes. -/
structure PortRecord where
  loom  : Nat
  tag   : Nat
  bytes : List Byte
deriving DecidableEq, Repr

/-- R396: a closed phrase. -/
structure Phrase where
  number : Word
  tokens : List Word
  last   : Bool
deriving DecidableEq, Repr

/-- R266, R366, R386, R390: a job in the job table. -/
structure Job where
  id          : Word
  hostTag     : Word
  order       : Nat
  deck        : Nat
  /-- The deck that the job runs, kept when the deck is unloaded under R381, and its bound models. -/
  image       : DeckImage
  binds       : List Word
  client      : Nat
  kind        : JobKind
  share       : Nat
  holdMs      : Nat
  tokenSink   : Word
  tokenDev    : Nat
  frameSink   : Word
  batch       : Word
  resultAddr  : Nat
  resultBytes : Nat
  endToken    : Word
  tokenLimit  : Nat
  gstream     : Word
  stepTable   : Nat
  prompt      : List Word
  /-- Tokens of the prompt already placed in a step (R295). -/
  promptDone  : Nat
  /-- A member joins its batch at a step boundary (R295). -/
  joined      : Bool
  /-- Tokens that a member has produced (R388). -/
  produced    : List Word
  /-- Step number of a batch job, and whether a step runs (R293). -/
  stepNo      : Nat
  stepRuns    : Bool
  /-- Members of the running step, in row order, with the tokens each row holds and whether it samples (R294). -/
  rows        : List (Word × Nat × Bool)
  ready       : Bool
  endStatus   : Status
  /-- A batch job or a running job that JOB_CANCEL names ends at its boundary (R389). -/
  cancelled   : Bool
  readyMs     : Nat
  fetched     : Bool
  result      : List Byte
  resultBlocks : List (Nat × Nat)
  alternative : Option Nat
  started     : Bool
  /-- Order in which it started (R292). -/
  startedAt   : Nat
  /-- Jobs submitted later that started while this one waited (R270). -/
  passedBy    : Nat
  reserved    : Option Nat
  tokenPort   : Option Nat
  tokenNext   : Word
  tokenHeld   : List HeldTokens
  tokenInbox  : List PortRecord
  substituted : Bool
  /-- The phrase of a phrase job (R397). -/
  phrase      : Option Phrase
  positions   : List PosState
  preempts    : Word
  queueWait   : Word
  faultPos    : Half
  faultEngine : Byte
  faultCard   : DWord
deriving DecidableEq, Repr

/-- R118: one engine's part of a context's architectural state; a loop entry is (remaining, card index). -/
structure EngineState where
  halted : Bool
  card   : Nat
  ix     : List DWord
  loops  : List (Nat × Nat)
deriving DecidableEq, Repr

/-- R118, R233: the architectural state of a context. -/
structure Arch where
  fetch      : EngineState
  execute    : EngineState
  knotCount  : Word
  arithFlags : Word
  key        : List Byte
  execStep   : DWord
  fetchKey   : List Byte
  fetchStep  : DWord
  waves      : DWord
  sinceKnot  : DWord
  overrun    : DWord
  bobbins    : List (List Half)
deriving DecidableEq, Repr

/-- R108: a knot slot's contents: the record, the live ranges' bytes, and the block counts of R536. -/
structure KnotSlot where
  entry   : Nat
  arch    : Arch
  scratch : Mem
  stripe  : Mem
deriving DecidableEq, Repr

/-- Where a context is (R275 to R281). -/
inductive Place where
  /-- Waits for residence and holds nothing. -/
  | waiting
  /-- Resident on a Loom in a slot. -/
  | resident (loom slot : Nat)
  /-- Displaced from a Loom; its record is in system space. -/
  | displaced (loom : Nat)
deriving DecidableEq, Repr

/-- R311-R317, R536, R537: for a send or receive end of a binding: binding, blocks sent or taken since the knot. -/
structure EndLog where
  binding : Nat
  recvEnd : Nat
  since   : Nat
  entered : Nat
  /-- R537: blocks logged since the knot, whether the log still grows, and its blocks of system space. -/
  log     : List (List Byte × List Byte)
  logOn   : Bool
  blocks  : List (Nat × Nat)
deriving DecidableEq, Repr

/-- A context: one deck position of one job (R91 to R125, R273 to R284). -/
structure Ctx where
  job      : Word
  position : Nat
  dent     : Nat
  place    : Place
  /-- Physical ways and units of its logical ones: owned (resident) or held (displaced); none for one whose contents are
  in system space, and empty before it was ever admitted (R97, R275). -/
  ways     : List (Option Nat)
  units    : List (Option Nat)
  /-- Logical ways and units still pending a spill or a read-back (R279). -/
  pendingWays  : List Nat
  pendingUnits : List Nat
  /-- System-space blocks of its record and spilled ways (R261). -/
  blocks   : List (Nat × Nat)
  /-- Blocks of its knot slot pair when they lie in system space (R242). -/
  knotBlocks : List (Nat × Nat)
  knotPlaced : Bool
  knotBytes  : Nat
  arch     : Arch
  scratch  : Mem
  stripe   : Mem
  knot     : Option KnotSlot
  /-- 64-bit pass values of the two engines (R273). -/
  passF    : DWord
  passE    : DWord
  blockedF : Bool
  blockedE : Bool
  /-- Waves charged since its slice began, and since it became resident (R276, R277). -/
  sliceWaves : Nat
  residentWaves : Nat
  /-- Overrun carried into the present slice (R282). -/
  absorbed : Nat
  /-- Order in which it was displaced (R275). -/
  displacedAt : Nat
  /-- Waves to re-run before it has regained its state at a fault (R534). -/
  replayTo : Nat
  sends    : List EndLog
  recvs    : List EndLog
deriving DecidableEq, Repr

/-- The kinds of a transfer of the fetch engine. -/
inductive XferKind where
  | load | store | loadC | storeC
deriving DecidableEq, Repr

/-- R130: one piece of a transfer: row, byte offset in the row's memory bytes, length, and its tag once issued. -/
structure Piece where
  row   : Nat
  off   : Nat
  len   : Nat
  tag   : Option Nat
deriving DecidableEq, Repr

/-- R103, R125, R130: an outstanding transfer of a Loom, oldest first. -/
structure Transfer where
  loom     : Nat
  job      : Word
  position : Nat
  cardIdx  : Nat
  card     : Card
  kind     : XferKind
  /-- First line and space, resolved when the card issued. -/
  line     : Nat
  isStripe : Bool
  /-- Device address of row 0, resolved when the card issued. -/
  addr     : Nat
  rowBytes : Nat
  rows     : Nat
  stride   : Nat
  pieces   : List Piece
  /-- STORE_C: the encoded bytes of each row; LOAD_C: the bytes gathered so far. -/
  data     : Mem
  step     : DWord
  waves    : Nat
  /-- STORE_C: the ARITH_FLAGS word of its encoding, joined to its context's when it completes (R87, R125). -/
  flags    : Word
deriving DecidableEq, Repr

/-- A spill or read-back of the save port (R278): context, way or unit, direction. -/
structure SaveStep where
  loom     : Nat
  victim   : Option (Word × Nat)
  arriving : Word × Nat
  isUnit   : Bool
  phys     : Nat
  logical  : Nat
  readBack : Bool
deriving DecidableEq, Repr

/-- The job table and the scheduler (R266 to R296). -/
structure Sched where
  /-- Loaded models, at most 64; 16 R377; reset empty. -/
  models : List Model
  /-- Loaded decks, at most 256; 16 R384; reset empty. -/
  decks : List Deck
  /-- Job table, at most 4,096; 12 R266; reset empty. -/
  jobs : List Job
  /-- Contexts of started jobs; 04 R91; reset empty. -/
  ctxs : List Ctx
  /-- Outstanding transfers, oldest first; 04 R103; reset empty. -/
  transfers : List Transfer
  /-- Save-port steps in order; 12 R278; reset empty. -/
  saves : List SaveStep
  /-- QSTAT and NARROW cards in progress, in order of arrival at the Scale units: port, job and position; 08 R179, R189;
  reset empty. -/
  scale : List (Nat × Word × Nat)
  /-- Job counts of each client: client, submitted, completed, cancelled, faulted, fallbacks; 32 bits each; 12 R291; reset empty, all 0. -/
  accounts : List (Nat × Word × Word × Word × Word × Word)
  /-- Next job id and submission number; 32 bits; 16 R386; reset 1 (DESIGN CHOICE, log 3). -/
  nextJob : Word
  nextOrder : Nat
  /-- Starts so far, ordering started jobs; 12 R292; reset 0. -/
  nextStart : Nat
  /-- Displacements so far, ordering displaced contexts; 12 R275; reset 0. -/
  nextDisplaced : Nat
deriving DecidableEq, Repr

/-! ### Streams and Shuttles (spec/09, 12, 14, 16) -/

/-- R209: a Shuttle stream context. -/
structure ShuttleCtx where
  program    : Word
  inFrame    : Bool
  ended      : Bool
  done       : Nat
  step       : DWord
  key        : List Byte
  arithFlags : Word
  nextSeq    : Word
  badFrames  : Word
  dupFrames  : Word
  moves      : Word
  frame      : List Byte
  words      : List Word
deriving DecidableEq, Repr

/-- R337: one RTP destination with its drop count. -/
structure Dest where
  v6    : Bool
  addr  : List Byte
  port  : Nat
  drops : Word
  /-- R347: packets of this destination that wait for the MAC, at most 2. -/
  queued : Nat
deriving DecidableEq, Repr

/-- R337: an RTP egress descriptor. -/
structure Rtp where
  payload : Nat
  pt      : Nat
  ssrc    : Word
  seq0    : Half
  ts0     : Word
  pkt     : Nat
  playoutUs : Nat
  source  : Nat
  dscp    : Nat
  srcPort : Nat
  dests   : List Dest
deriving DecidableEq, Repr

/-- A stream's egress (R399). -/
inductive Egress where
  | none
  | rtp (d : Rtp)
  | reed (port channel : Nat)
deriving DecidableEq, Repr

/-- R289: a program change that awaits its frame. -/
structure Change where
  program  : Word
  atMark   : Bool
  entry    : Option Nat
  record   : List Byte
  /-- The stream has to move first (R289). -/
  moving   : Bool
deriving DecidableEq, Repr

/-- A synthesis stream (R394 to R401). -/
structure Stream where
  id        : Word
  rate      : Nat
  openProgram : Word
  deck      : Nat
  client    : Nat
  share     : Nat
  feedAddr  : Nat
  cluster   : Nat
  pos       : Nat
  /-- Context slot 0 to 31; none while the context is absent (R225). -/
  slot      : Option Nat
  moving    : Bool
  absent    : Bool
  /-- Destination of a move. -/
  moveTo    : Option (Nat × Nat)
  saveVault : Nat
  saveBlock : Nat
  port      : Nat
  ctx       : ShuttleCtx
  /-- The context as last written to the save area (R218, R539). -/
  saved     : ShuttleCtx
  companion : Option ShuttleCtx
  companionSlot : Option Nat
  /-- The companion as last written, with the fade step and the sample of the old program that waits for it (R209, R538). -/
  savedCompanion : Option (ShuttleCtx × Nat × Option Word)
  fadeStep  : Nat
  unfaded   : Bool
  /-- The sample computed by the micro-step OUT of the old program, held for the cross-fade (R221). -/
  fadeOld   : Option Word
  /-- Ring slots held: FRAME_SEQ and record (R213). -/
  ring      : List (Word × List Byte)
  committed : List Word
  topSeq    : Option Word
  inbox     : List PortRecord
  /-- Samples written and not yet taken, from index `taken` (R343). -/
  samples   : List (BitVec 24)
  taken     : Nat
  feed      : List Word
  phrases   : List Phrase
  nextPhrase : Word
  runningPhrase : Option Word
  eos       : Bool
  feedDrops : Word
  egress    : Egress
  /-- Egress has begun (R343); its next packet carries the marker. -/
  running   : Bool
  marker    : Bool
  begun     : Bool
  /-- The buffer has once reached its playout level (R285, R343). -/
  atLevel   : Bool
  seqNow    : Half
  tsNow     : Word
  inGap     : Bool
  onLocal   : Bool
  underruns : Word
  sourceLoss : Word
  /-- A route accepted while egress runs, applied at the next release instant (R346). -/
  nextRoute : Option Egress
  ownThreshold : Option (Nat × Nat)
  hold      : Nat
  decided   : Bool
  change    : Option Change
  /-- R540: a change that took effect since the context was last written, and one to take effect again on a rerun. -/
  redo      : Option Change
  again     : Option Change
  viaEntry  : Option Nat
deriving DecidableEq, Repr

/-! ### Reed ports, carding, the host link (spec/14, 18, 19) -/

/-- A Reed port (R411, R413, R441 to R457). -/
structure ReedPort where
  running   : Bool
  locked    : Bool
  clockOk   : Bool
  repeats   : Word
  drops     : Word
  frameErrors : Half
  lockLosses : Byte
  measRate  : BitVec 25
  /-- Locked for the whole of the present rate window (R457). -/
  wholeWindow : Bool
  /-- Started and waiting for its start tick, with the ticks left (R451). -/
  armed     : Option Nat
  /-- Reference of the start: the ports started together (R451). -/
  group     : List Nat
  started   : Bool
  dataOn    : Bool
  /-- PORT_STOP takes effect at the next tick (R455). -/
  stopping  : Bool
  frames    : Nat
  csPos     : Nat
  /-- Last frame sent: samples (R453). -/
  last      : BitVec 24 × BitVec 24
  /-- Input crossing, at most 32 frames: samples and flags (R444). -/
  fifo      : List (BitVec 24 × Bool × BitVec 24 × Bool)
  /-- The start tick and data start of R452 are over streams routed at acceptance. -/
  awaited   : List Word
  /-- Episode of a lacking stream (R453). -/
  lacking   : List Word
deriving DecidableEq, Repr

/-- A word-clock input (R445). -/
structure Wclk where
  locked     : Bool
  lockLosses : Byte
  measRate   : BitVec 25
  /-- Locked for the whole of the present rate window (R457). -/
  wholeWindow : Bool
deriving DecidableEq, Repr

/-- R415: a pending setting of an ingress stream. -/
structure CardSetting where
  frame : Word
  gain  : Option Word
  curve : Option Nat
deriving DecidableEq, Repr

/-- R416, R469: an output or tap ring. -/
structure Ring where
  point   : Nat
  dest    : Nat
  frames  : Nat
  written : DWord
  last    : Word
  bytes   : Nat
  /-- The frame in progress began after the ring started. -/
  live    : Bool
  /-- Samples of the frame in progress, as stored bytes. -/
  buffer  : List Byte
deriving DecidableEq, Repr

/-- R443, R471: a delivered sample that waits: its 24 bits, its flag, whether lock returned before it, and when it arrived. -/
structure InSample where
  value     : BitVec 24
  flag      : Bool
  afterLock : Bool
  stamp     : Nat
deriving DecidableEq, Repr

/-- R463, R464: the run of bad samples in progress: a click of n samples from a to b at sample i, or a dropout from a at
sample k. -/
inductive BadRun where
  | none
  | click (a b : Word) (i n : Nat)
  | dropout (a : Word) (k : Nat)
deriving DecidableEq, Repr

/-- An ingress stream of the carding pipeline (R414, R459 to R474). -/
structure Ingress where
  id        : Word
  port      : Nat
  channel   : Nat
  curve     : Nat
  frameSamples : Nat
  repair    : BitVec 3
  gain      : Word
  /-- Gain before the ramp in force, when a ramp runs (R467). -/
  rampFrom  : Option Word
  statsEvery : Nat
  saveVault : Nat
  saveBlock : Nat
  /-- Delivered samples not yet processed (R460, R471). -/
  input     : List InSample
  /-- The DC estimate (R462). -/
  d         : Word
  /-- The previous stage 1 output and its flag (R463). -/
  prevY     : Option (Word × Bool)
  /-- The last stage 2 output, the run in progress, and the next sample of a fade-in, 0 for none (R464). -/
  lastOut   : Word
  run       : BadRun
  fadeIn    : Nat
  /-- The section state words (R465). -/
  sections  : List (Word × Word)
  /-- The frame in progress and the samples of it processed (R467). -/
  frame     : Word
  pos       : Nat
  /-- Samples ever processed. -/
  processed : Nat
  /-- Statistics of the frame in progress (R468). -/
  outs      : List Word
  clicks    : Nat
  dropouts  : Nat
  settled   : Bool
  lockFlag  : Bool
  /-- Lock was lost, and no sample has come since (R464, R468). -/
  lockLost  : Bool
  settings  : List CardSetting
  taps      : List Ring
  ring      : Ring
  /-- Records of the last 16 completed frames (R417). -/
  stats     : List (Word × List Byte)
deriving DecidableEq, Repr

/-- R333: a live receive secure association: its channel's SCI, its number and the lowest packet number accepted. -/
structure RxAssociation where
  sci    : DWord
  an     : Nat
  lowest : DWord
deriving DecidableEq, Repr

/-- R335: the header of an IP packet that the host link sends. -/
structure IpHead where
  v6     : Bool
  dst    : List Byte
  dscp   : Nat
  ident  : Word
  /-- Byte offset of the data in the datagram; a whole datagram has 0 and no more. -/
  offset : Nat
  more   : Bool
deriving DecidableEq, Repr

/-- A frame on the host link: its 802.1Q tag (R330: PCP and VLAN_ID), its SecTAG (R333: association and packet number), the
address whose MAC address it goes to, its IP header, and its data. -/
structure WireFrame where
  vlan : Option (Nat × Nat)
  sec  : Option (Nat × DWord)
  hop  : List Byte
  ip   : Option IpHead
  data : List Byte
deriving DecidableEq, Repr

/-- R336: what waits in a transmit queue: its priority, 0 first; the stream and destination of an egress packet; and its frames,
which leave back to back (R335). -/
structure Datagram where
  rank   : Nat
  egress : Option (Word × Nat)
  frames : List WireFrame
deriving DecidableEq, Repr


/-- The host link (R327 to R348). -/
structure Net where
  /-- NET_CONFIG in use, fixed at each reset; 64 bits; 14 R330; reset factory. -/
  config : DWord
  /-- NET_ADDR in use; 64 bytes; 14 R331; reset zero. -/
  addr : List Byte
  /-- RATE_NOW; 2 bits; 14 R332; reset 3, the link up at 10 Gb/s (DESIGN CHOICE, log 2). -/
  rate : BitVec 2
  /-- LEADER; 1 bit; 14 R332; reset false (DESIGN CHOICE, log 2). -/
  leader : Bool
  /-- LPI; 1 bit; 14 R332; reset false. -/
  lpi : Bool
  /-- SECURED; 1 bit; 14 R332; reset false. -/
  secured : Bool
  /-- DHCPv4 lease: address, gateway, prefix; 14 R332, R334; reset none. -/
  lease : Option (List Byte × List Byte × Nat)
  /-- IPv6 addresses that passed duplicate address detection; 14 R332; reset none. -/
  ipv6 : List (List Byte)
  /-- RX_FULL; 32 bits; 14 R332; reset 0. -/
  rxFull : Word
  /-- RX_DISCARD; 32 bits; 14 R332; reset 0. -/
  rxDiscard : Word
  /-- MACSEC_FAIL; 16 bits; 14 R332; reset 0. -/
  macsecFail : Half
  /-- LINK_DOWNS; 16 bits; 14 R332; reset 0. -/
  linkDowns : Half
  /-- Rates advertised; 3 bits; 14 R328; reset RATES, 0b111. -/
  advertised : BitVec 3
  /-- Trainings in a row that failed at the highest advertised rate; 14 R328; reset 0. -/
  trainFails : Nat
  /-- Egress packets dropped while the link is down; 14 R328; reset 0. -/
  droppedDown : Nat
  /-- EAPOL frames passed to MKA; 14 R333; reset 0. -/
  eapol : Nat
  /-- Resolved next hops of egress destinations; 14 R347; reset none. -/
  hops : List (List Byte)
  /-- The router of the last router advertisement; 14 R331, R334; reset none. -/
  router : Option (List Byte)
  /-- Live receive secure associations, of at most four channels; 14 R333; reset none. -/
  rxSas : List RxAssociation
  /-- The live transmit association: its number and the next packet number; 14 R333; reset none. -/
  txSa : Option (Nat × DWord)
  /-- The CAK slot whose MKA participant made the associations; 14 R333, 21 R512; reset none. -/
  mkaSlot : Option Nat
  /-- Unsecured frames accepted with MACSEC 1; 14 R333; reset 0. -/
  unsecured : Nat
  /-- How many of the outputs the transmit crossing has taken; 14 R336 (log 173); reset 0. -/
  handed : Nat
  /-- Datagrams and frames that wait in the transmit queues; 14 R336, R347; reset none. -/
  queue : List Datagram
  /-- The frames that have left, oldest first; 14 R330, R333, R335, R336; reset none. -/
  wire : List WireFrame
deriving DecidableEq, Repr

/-- The Reed ports and the carding pipeline. -/
structure Audio where
  /-- Reed inputs AIN_0 to AIN_15; 18 R441 to R444; reset stopped, unlocked, counters 0. -/
  ins : List ReedPort
  /-- Reed outputs AOUT_0 to AOUT_15; 18 R446 to R454; reset stopped, counters 0. -/
  outs : List ReedPort
  /-- Word clocks WCLK_0 to WCLK_3; 18 R445; reset unlocked. -/
  wclks : List Wclk
  /-- Ingress streams, at most 64; 17 R414; reset empty. -/
  ingress : List Ingress
  /-- Arrival number of the next delivered sample; 19 R471; reset 0. -/
  stamp : Nat
  /-- Resident working contexts of the pipeline, most recently used first, at most 16; 19 R472; reset empty. -/
  resident : List Word
  /-- Open synthesis streams, at most 8,192; 16 R394; reset empty. -/
  streams : List Stream
  /-- Next stream id; 32 bits; 16 R394; reset 1 (DESIGN CHOICE, log 3). -/
  nextStream : Word
deriving DecidableEq, Repr

/-! ### Selvage links (spec/08, 13) -/

/-- R303: the states of a Selvage port. -/
inductive PortState where
  | off | training | up | retraining | failed | miswired
deriving DecidableEq, Repr

/-- R180: a scale register. -/
structure ScaleReg where
  const : Bool
  scale : Word
  zp    : Word
deriving DecidableEq, Repr

/-- R180, R188, R189: a link stream of a port. -/
structure LinkStream where
  lsid     : Byte
  binding  : Nat
  base     : Nat
  size     : Nat
  lost     : Bool
  valid    : Bool
  zpm      : Bool
  fn       : BitVec 4
  channels : Nat
  elements : DWord
  sse      : DWord
  drift    : Word
  /-- Receiver: expected tag and block, unmatched code blocks and scale records, and whole blocks that a receive may take:
  block number, codes or raw body, scale record. -/
  expTag   : Byte
  expSeq   : Word
  data     : List (Byte × List Byte)
  records  : List (Byte × List Byte)
  ready    : List (Word × List Byte × List Byte)
  recovering : Bool
  recoveries : Nat
deriving DecidableEq, Repr

/-- R298, R299: a data flit that a port has to send: its class, DEST, SRC, flags FIRST and LAST, payload, and whether it
passes through (R307). -/
structure TxFlit where
  cls     : Nat
  dest    : Byte
  src     : Byte
  first   : Bool
  last    : Bool
  payload : List Byte
  pass    : Bool
deriving DecidableEq, Repr

/-- One Selvage port (R297 to R303). -/
structure Selvage where
  state     : PortState
  width     : Nat
  lanesGood : BitVec 8
  neighbour : Byte
  farPort   : BitVec 3
  /-- The far end's serial number, of which the port record shows the low 16 bits. -/
  farSerial : DWord
  farRevision : Byte
  fecFixed  : Word
  resends   : Word
  retrains  : Byte
  e2eFails  : Half
  /-- Sender: flits that wait, next SEQ, the replay buffer (SEQ and flit), credits of classes 0 to 4, the next of classes 1
  to 3 in turn, and of each class whether its last flit passed through. -/
  queue     : List TxFlit
  txSeq     : BitVec 12
  replay    : List (BitVec 12 × TxFlit)
  credits   : List Nat
  turn      : Nat
  passed    : List Bool
  /-- Receiver: expected SEQ, whether a NAK is outstanding, unacknowledged receipts, credits of classes 0 to 4 not yet
  returned. -/
  rxSeq     : BitVec 12
  nakked    : Bool
  unacked   : Nat
  owed      : List Nat
  /-- Payloads of the message in progress per source and class (8 × source + class), and whole messages not yet
  handled, each with its source. -/
  partials  : List (Nat × List Byte)
  messages  : List (Byte × List Byte)
  trainFails : Nat
  /-- Why a retraining in progress began (R302). -/
  cause     : Option Nat
  coeffs    : Bool
  scales    : List (Nat × ScaleReg)
  streams   : List LinkStream
  scaleFaults : List Word
  /-- R321: the blocks of the port's transmit store in the order in which they entered, by binding and BLOCK_SEQ. -/
  entered   : List (Nat × Word)
  /-- R307: of the messages that pass through from this port, by source, class and destination, whether their binding is odd. -/
  passing   : List ((Byte × Nat × Byte) × Bool)
deriving DecidableEq, Repr

/-- R312: an end of a binding. -/
structure BindEnd where
  device   : Nat
  port     : Nat
  lsid     : Byte
  position : Nat
  job      : Word
  /-- Receive ends: block acknowledged up to, attached, still in the binding (R321). -/
  acked    : Word
  attached : Bool
  live     : Bool
  /-- R325: the port by which blocks leave for a receive end, and the ports of its route; none before the first. -/
  via      : Option Nat
  path     : List (Nat × Nat)
deriving DecidableEq, Repr

/-- R312: a binding; its store holds unacknowledged blocks (BLOCK_SEQ, tag, code or raw bytes, scale record). -/
structure Binding where
  number   : Nat
  kind     : Nat
  narrowed : Bool
  maxBlock : Nat
  window   : Nat
  /-- First scale register of the window at the send end's port. -/
  base     : Nat
  send     : BindEnd
  recvs    : List BindEnd
  nextSeq  : Word
  tag      : Byte
  store    : List (Word × Byte × List Byte × List Byte)
  ended    : Bool
deriving DecidableEq, Repr

/-- The links and the system (R297 to R326). -/
structure Links where
  /-- Selvage ports SV_0 to SV_5; 13 R303; reset: domain on, training failed without partner (DESIGN CHOICE state training, log 2). -/
  ports : List Selvage
  /-- Bindings; 13 R312; reset empty. -/
  bindings : List Binding
  /-- Device number, none before enumeration; 13 R304; reset none. -/
  device : Option Nat
  /-- System size, 0 before enumeration; 13 R304; reset 0. -/
  devices : Nat
  /-- This device is the root; 13 R308; reset false. -/
  isRoot : Bool
  /-- Phase of each device; 13 R320; reset 0, general. -/
  phases : List Byte
  /-- Route table: the next port towards each device for class 0 and even bindings, and for odd bindings, none when it has
  no live route; 13 R305, R306, R325; reset empty. -/
  routes : List (Option (Nat × Nat))
  /-- The links as the root knows them and has told every device: the ports (device, port) whose link is up; 13 R308, R325; reset
  empty. -/
  wires : List (Nat × Nat)
deriving DecidableEq, Repr

/-! ### Power (spec/20) -/

/-- R475: the power states. -/
inductive PowerState where
  | run | idle | sleep | deepSleep | off
deriving DecidableEq, Repr

/-- R563, R572, R582, R585: whether the device has reached READY, and what it waits for when it has not: `unpowered` is
Off, `noSupply` is VAON absent. -/
inductive BootPhase where
  | ready
  | networkBoot
  | coldPending
  | warmPending
  | heldInReset
  | unpowered
  | noSupply
deriving DecidableEq, Repr

/-- R485: a transition in progress. -/
structure Transition where
  entry    : Nat
  source   : PowerState
  target   : PowerState
  /-- The target's own entry follows when this one is the return to Run before it (R476). -/
  next     : Option PowerState
  step     : Nat
  /-- Domains of the present step that have not reported. -/
  awaiting : List Nat
  cause    : Byte
  wake     : Bool
  /-- R362: master, SEQUENCE and parameters of the POWER_STATE that started it, which is pending until it is complete; none after
  another cause. -/
  asked    : Option (MasterId × Word × List Byte) := none
  /-- R503: the devices whose replies a root awaits before the first step. -/
  replies  : List Nat := []
deriving DecidableEq, Repr

/-- R496: an outstanding regulator request. -/
structure RailRequest where
  rail  : Rail
  mv    : Nat
  tries : Nat
deriving DecidableEq, Repr

/-- Power, sensors and Heartwood. -/
structure Power where
  /-- Power state; 20 R475; reset Run, READY (24 R563). -/
  state : PowerState
  /-- Boot phase; 24 R563, R564; reset ready. -/
  boot : BootPhase
  /-- Transition in progress; 20 R485; reset none. -/
  transition : Option Transition
  /-- Powered domains PD_000 to PD_128; 129 bits; 01 R27, 20 R475; reset all (25 units present). -/
  powered : BitVec 129
  /-- Domains with latched pads; 129 bits; 20 R488, R489; reset none. -/
  latched : BitVec 129
  /-- Domains that DOMAIN_CTRL latched, kept across transitions; 129 bits; 20 R489; reset none. -/
  hostLatched : BitVec 129
  /-- Domains on when the matching entry began, and pads it latched; 20 R485; reset none. -/
  wasOn : BitVec 129
  entryLatched : BitVec 129
  /-- VCORE in mV as acknowledged; 20 R494; reset 800 (R563 step 8, R570). -/
  vcoreMv : Nat
  /-- Governed voltage g in mV; 20 R499; reset the policy voltage 800. -/
  governedMv : Nat
  /-- Outstanding regulator requests, oldest first per rail; 20 R496; reset empty. -/
  requests : List RailRequest
  /-- POWER_W, latest measured draw; 16 bits; 17 R423; reset 0 (DESIGN CHOICE, log 3). -/
  powerW : Half
  /-- Flag hot; 1 bit; 20 R501; reset false. -/
  hot : Bool
  /-- hot held set until the next cold boot; 25 R594; reset false. -/
  hotHeld : Bool
  /-- The target lies below MIN_MV, as EVENT_POWER last reported; 20 R500; reset false. -/
  belowMin : Bool
  /-- Latest reading of each thermal sensor, quarter degrees; 80; 25 R593; reset 100, 25 °C (DESIGN CHOICE, log 3). -/
  sensors : List Int
  /-- Sensors excluded until the next cold boot; 25 R594; reset none. -/
  excluded : List Nat
  /-- Self-refresh period of the canopy in ms; 20 R492; reset 32 (DESIGN CHOICE, log 3). -/
  selfRefreshMs : Nat
  /-- Canopy in self-refresh; 20 R475; reset false. -/
  canopySelf : Bool
  /-- LPDDR5X in self-refresh; 20 R475; reset false. -/
  extSelf : Bool
  /-- Strap value WA_0 to WA_5 sampled at the cold boot; 6 bits; 20 R481; reset 0 (DESIGN CHOICE, log 2). -/
  straps : BitVec 6
  /-- Reed inputs and outputs stopped by an entry, restarted on return; 20 R477; reset none. -/
  stoppedIns : BitVec 16
  stoppedOuts : BitVec 16
deriving DecidableEq, Repr

/-! ### Bark, debug, the recorder (spec/21, 23) -/

/-- R522: a live grant. -/
structure Grant where
  id       : Word
  level    : Nat
  flags    : Half
  notAfter : Word
  signer   : List Byte
deriving DecidableEq, Repr

/-- R425: an open firmware install. -/
structure Install where
  owner    : MasterId
  manifest : List Byte
  next     : Nat
  bytes    : Nat
deriving DecidableEq, Repr

/-- R427: a running trace. -/
structure Trace where
  first   : Nat
  count   : Nat
  records : Nat
  dest    : Nat
  written : Nat
deriving DecidableEq, Repr

/-- Bark and debug. -/
structure Bark where
  /-- Lifecycle code of the highest fuse burned; 8 bits; 21 R508; reset 0 Manufacture: no fuse burned (DESIGN CHOICE, log 2). -/
  lifecycle : Byte
  /-- ZEROISE_DONE fuse; 1 bit; 21 R508; reset not burned. -/
  zeroiseDone : Bool
  /-- OWNER_DIGEST in OTP; 32 bytes; 21 R505, R509; reset zero, unprogrammed. -/
  ownerDigest : List Byte
  /-- Anti-rollback entries written, at most 256; 64 bits each; 21 R515; reset empty. -/
  rollback : List DWord
  /-- The record of an exhausted counter has been made; 21 R515; reset false. -/
  rollbackFull : Bool
  /-- Model keys, at most 32: KEY_ID and key; 21 R506, R517; reset empty. -/
  modelKeys : List (Word × List Byte)
  /-- Live debug grants, oldest first, at most 4; 21 R522; reset empty. -/
  grants : List Grant
  /-- Grants sealed for Deep sleep; 21 R522; reset empty. -/
  sealedGrants : List Grant
  /-- Next grant number; 32 bits; 21 R522; reset 1. -/
  nextGrant : Word
  /-- Open firmware install; 17 R425; reset none. -/
  install : Option Install
  /-- Manifest of the running image; 21 R506; reset the delivered manifest. -/
  runManifest : List Byte
  /-- System-space copy of the running image; 24 R573; reset the delivered image. -/
  imageCopy : Option (List Byte)
  /-- FW_VERSION of the running image; 32 bits; 16 R375; reset the delivered image's. -/
  fwVersion : Word
  /-- Running trace; 17 R427; reset none. -/
  trace : Option Trace
  /-- Quotes and other signatures made, numbering them; 21 R519; reset 0. -/
  signatures : Nat
deriving DecidableEq, Repr

/-- R547, R555: one class of the Ring recorder. -/
structure RingClass where
  /-- Used slots as stored; 23 R547; reset empty. -/
  slots : List (List Byte)
  /-- Records queued, at most 64; 23 R555; reset empty. -/
  queue : List (List Byte)
  /-- Events lost since the previous record, stopping at 255; 23 R555; reset 0. -/
  lost : Nat
deriving DecidableEq, Repr

/-- R557: an event that awaits PD_127: its class, and its fields of R553 or R554. -/
structure LateEvent where
  lifetime : Bool
  code     : Nat
  kind     : Nat
  unit     : Nat
  status   : Nat
  detail   : List Byte
deriving DecidableEq, Repr

/-- The Ring recorder and the operating clocks. -/
structure Recorder where
  /-- Events that occurred while PD_127 was off; 23 R557; reset empty. -/
  late : List LateEvent
  /-- Lifetime class: 2,048 slots of 64 bytes; 23 R547; reset empty. -/
  lifetime : RingClass
  /-- Service class: 8,192 slots of 32 bytes; 23 R547; reset empty. -/
  service : RingClass
  /-- Operating minutes; 32 bits; 23 R550; reset 0. -/
  minutes : Word
  /-- Power-cycle count; 32 bits; 23 R550; reset 1, after the first cold boot. -/
  cycles : Word
  /-- Windows of CD_51 closed; 02 R50; reset 0. -/
  windows : Nat
deriving DecidableEq, Repr

/-- R51: a pace counter. -/
structure PaceCounter where
  kind  : Nat
  index : Nat
  waves : DWord
  rate  : BitVec 21
  minRate : BitVec 21
  valid : Bool
  /-- No window has closed since the last clear of MIN_RATE. -/
  cleared : Bool
deriving DecidableEq, Repr

/-- The pace counters and EVENT_RATE_CHANGE. -/
structure Pace where
  /-- Pace counters of the Looms, clusters and the Treadle; 128 bits each; 02 R51; reset waves 0, VALID 0. -/
  counters : List PaceCounter
  /-- RATE of the last EVENT_RATE_CHANGE, or at READY; 02 R53; reset none until the first window. -/
  reference : Option Nat
  /-- Windows since the last EVENT_RATE_CHANGE; 02 R53; reset none. -/
  sinceEvent : Option Nat
deriving DecidableEq, Repr

/-- The whole device. -/
structure State where
  /-- Waiting commands, first in, first out; the model's own queue; reset empty. -/
  pending : List Instr
  /-- What has left the device, oldest first; the model's own record; reset empty. -/
  out : List Output
  /-- Counter that draws free values; the model's own; reset 0 (DESIGN CHOICE, log 5). -/
  free : Nat
  /-- Command protocol; 15. -/
  proto : Proto
  /-- Live retained fields and tables; 24 R570. -/
  live : Retained
  /-- Boot flash; 24 R561. -/
  flash : Flash
  /-- Canopy, external memory and system space; 11. -/
  memory : Memory
  /-- Units and the dent map; 01. -/
  units : Units
  /-- Models, decks, jobs, contexts; 04, 12, 16. -/
  sched : Sched
  /-- Streams, Reed ports, carding; 09, 14, 18, 19. -/
  audio : Audio
  /-- Selvage links and the system; 08, 13. -/
  links : Links
  /-- Host link; 14. -/
  net : Net
  /-- Power, sensors, Heartwood; 20. -/
  power : Power
  /-- Bark and debug; 21. -/
  bark : Bark
  /-- Ring recorder and clocks; 23. -/
  recorder : Recorder
  /-- Pace counters; 02. -/
  pace : Pace
deriving DecidableEq, Repr

/-- Why a step faults. -/
inductive Fault where
  /-- Raised by `resetNLow` for a RESET_N pulse of 1 µs to 10 µs, whose outcome R585 does not define. Safe: the model
  stops where the manual gives no effect. -/
  | undefinedResetPulse
deriving DecidableEq, Repr

/-- Why a step refuses a command. -/
inductive Refusal where
  /-- Raised by the dispatch for a row that has no meaning yet. Safe. -/
  | notModelled (mnemonic : String)
deriving DecidableEq, Repr


/-! ### The state after reset -/

/-- A master without a session (R352, R574). -/
def MasterState.fresh (i : Iface) : MasterState :=
  { session := false, eventMask := 0, dest := ⟨[], 0⟩, iface := i, newest := none, seen := [], eventSeq := 0,
    events := [], assemblies := [], badHeader := 0, stale := 0, duplicates := 0, eventsDropped := 0,
    fragExpired := 0, notRoot := 0 }

/-- The protocol state with no session (R574). -/
def Proto.fresh : Proto :=
  { host := MasterState.fresh .hostLink, mgmt := MasterState.fresh .wakeBus, replyQueue := [], doomed := [],
    twins := [], fwQueue := [], held := [], ip := [] }

/-- Every retained field and table at its factory value (R570). -/
def Retained.factory : Retained :=
  { memLayout := Factory.memLayout, netConfig := Factory.netConfig, netAddr := zeros 64,
    schedConfig := Factory.schedConfig, shares := Factory.shares,
    reedIn := List.replicate 16 Factory.reedConfig, reedOut := List.replicate 16 Factory.reedConfig,
    voltagePolicy := Factory.voltagePolicy, ceiling := 560, table1 := Factory.table1, table2 := Factory.table2,
    table3 := Factory.table3, table4 := Factory.table4, table5 := Factory.table5, table6 := Factory.table6 }

/-- An empty key slot (R507). -/
def KeySlot.empty : KeySlot := ⟨0, []⟩

/-- A key store record with every slot empty (R507). -/
def KeyStore.empty : KeyStore :=
  { generation := 0, cak := List.replicate 4 .empty, debugKeys := List.replicate 4 .empty,
    model := List.replicate 4 .empty }

/-- The boot flash at delivery (R561, R568). -/
def Flash.delivered : Flash :=
  { manifest := Config.manifest, image := Config.image, slot0 := [], slot1 := [], keys0 := .empty, keys1 := .empty,
    keysCurrent := false, checkpoint := some (1, 64), current := none, source := 1, heartwoodCopy := [] }

/-- Memory after a cold boot (R563). -/
def Memory.fresh : Memory :=
  { vault := [], ext := [], vaultCorr := List.replicate 68 0, chCorr := List.replicate 16 0,
    refreshMs := List.replicate 4 32, altered := [], blocks := [], lent := 0 }

/-- A healthy Loom (R32, R121). -/
def LoomUnit.healthy : LoomUnit := { failed := false, lanes := 0xFFFF, halted := false, faults := [], replays := 0 }

/-- A healthy Shuttle (R32). -/
def Shuttle.healthy : Shuttle := { failed := false, batch := none, wavesSinceWrite := 0, faults := [], replays := 0 }

/-- A cluster of 17 healthy Shuttles whose position 16 is its spare (R38). -/
def Cluster.healthy : Cluster := { shuttles := List.replicate 17 .healthy, spare := some 16, programs := [], store := [] }

/-- R33 over 68 healthy Looms: dent 16q+i on Loom 17q+i. -/
def Units.healthyMap : List (Option Nat) := (List.range 64).map fun d => some (17 * (d / 16) + d % 16)

/-- The units, all healthy, with every channel populated (log 2). -/
def Units.fresh : Units :=
  { looms := List.replicate 68 .healthy, dentMap := Units.healthyMap, home := Units.healthyMap,
    sysVaults := [16, 33, 50, 67], tags := List.replicate 64 none, clusters := List.replicate 16 .healthy, populated := 0xFFFF, present := 0xFFFF,
    density := 4, speedNow := 0, layout := Factory.memLayout, retrained := List.replicate 16 0,
    training := 0xFFFF, dqTrained := List.replicate 16 1 }

/-- No model, deck, job or context (R574). -/
def Sched.fresh : Sched :=
  { models := [], decks := [], jobs := [], ctxs := [], transfers := [], saves := [], scale := [], accounts := [], nextJob := 1,
    nextOrder := 0, nextStart := 0, nextDisplaced := 0 }

/-- A stopped Reed port (R413, R456). -/
def ReedPort.stopped : ReedPort :=
  { running := false, locked := false, clockOk := false, repeats := 0, drops := 0, frameErrors := 0, lockLosses := 0,
    measRate := 0, wholeWindow := false, armed := none, group := [], started := false, dataOn := false, stopping := false, frames := 0,
    csPos := 0, last := (0, 0), fifo := [], awaited := [], lacking := [] }

/-- An unlocked word clock (R445). -/
def Wclk.unlocked : Wclk := { locked := false, lockLosses := 0, measRate := 0, wholeWindow := false }

/-- Ports stopped, no stream, no ingress stream (R456, R574). -/
def Audio.fresh : Audio :=
  { ins := List.replicate 16 .stopped, outs := List.replicate 16 .stopped, wclks := List.replicate 4 .unlocked,
    ingress := [], stamp := 0, resident := [], streams := [], nextStream := 1 }

/-- A Selvage port that trains without a partner (R301, R303). -/
def Selvage.fresh : Selvage :=
  { state := .training, width := 0, lanesGood := 0, neighbour := 0xFF, farPort := 0, farSerial := 0, farRevision := 0, fecFixed := 0,
    resends := 0, retrains := 0, e2eFails := 0, queue := [], txSeq := 0, replay := [], credits := [8, 24, 16, 8, 8],
    turn := 0, passed := List.replicate 5 false, rxSeq := 0, nakked := false, unacked := 0, owed := List.replicate 5 0,
    partials := [], messages := [], trainFails := 0, cause := none, coeffs := false, scales := [], streams := [],
    scaleFaults := [], entered := [], passing := [] }

/-- Six ports, no system (R304, R320). -/
def Links.fresh : Links :=
  { ports := List.replicate 6 .fresh, bindings := [], device := none, devices := 0, isRoot := false,
    phases := List.replicate 64 0, routes := [], wires := [] }

/-- The host link up at 10 Gb/s with the factory configuration (log 2). -/
def Net.fresh (config : DWord) (addr : List Byte) : Net :=
  { config := config, addr := addr, rate := 3, leader := false, lpi := false, secured := false, lease := none,
    ipv6 := [], rxFull := 0, rxDiscard := 0, macsecFail := 0, linkDowns := 0, advertised := 7, trainFails := 0,
    droppedDown := 0, eapol := 0, hops := [], router := none, rxSas := [], txSa := none, mkaSlot := none, unsecured := 0,
    handed := 0, queue := [], wire := [] }

/-- Run at READY (R563). -/
def Power.fresh : Power :=
  { state := .run, boot := .ready, transition := none, powered := BitVec.allOnes 129, latched := 0, hostLatched := 0,
    wasOn := 0, entryLatched := 0, vcoreMv := 800, governedMv := 800, requests := [], powerW := 0, hot := false,
    hotHeld := false, belowMin := false, sensors := List.replicate 80 100, excluded := [], selfRefreshMs := 32,
    canopySelf := false, extSelf := false, straps := 0, stoppedIns := 0, stoppedOuts := 0 }

/-- Bark in Manufacture with no key and no grant (R508, R522). -/
def Bark.fresh : Bark :=
  { lifecycle := 0, zeroiseDone := false, ownerDigest := zeros 32, rollback := [], rollbackFull := false,
    modelKeys := [], grants := [], sealedGrants := [], nextGrant := 1, install := none,
    runManifest := Config.manifest, imageCopy := some Config.image, fwVersion := Config.fwVersion, trace := none,
    signatures := 0 }

/-- An empty class of the Ring recorder (R547). -/
def RingClass.empty : RingClass := { slots := [], queue := [], lost := 0 }

/-- The recorder of a part at its first READY (R550). -/
def Recorder.fresh : Recorder :=
  { late := [], lifetime := .empty, service := .empty, minutes := 0, cycles := 1, windows := 0 }

/-- R51: the pace counters, of the 68 Looms, the 16 clusters and the Treadle. -/
def Pace.fresh : Pace :=
  { counters := (List.range 68).map (counter 0) ++ (List.range 16).map (counter 1) ++ [counter 2 0],
    reference := none, sinceEvent := none }
where
  /-- A counter with no complete window. -/
  counter (kind index : Nat) : PaceCounter :=
    { kind := kind, index := index, waves := 0, rate := 0, minRate := 0, valid := false, cleared := true }

/-- The device at READY after its first cold boot. -/
def State.reset : State :=
  { pending := [], out := [], free := 0, proto := .fresh, live := .factory, flash := .delivered, memory := .fresh,
    units := .fresh, sched := .fresh, audio := .fresh, links := .fresh,
    net := .fresh Factory.netConfig (zeros 64), power := .fresh, bark := .fresh, recorder := .fresh, pace := .fresh }

end Sys2Proof.Machine
end

