-- ==== Sys2Proof/Machine/Flits.lean ====
section
/-!
DEFINITION. What a Selvage port sends: the parity code and the layout of a flit (R298), credits and the order of classes (R299),
the replay buffer (R300), messages (R314) and the port that they leave by (R305).
-/
namespace Sys2Proof.Machine

open Sys2Proof

/-! ### GF(2^8) and RS(64,60) (R298) -/

/-- Times α. -/
def gfTwo (a : Byte) : Byte := if a.getLsbD 7 then (a <<< 1) ^^^ 0x1D else a <<< 1

/-- The product of two field elements, over the low `n` bits of the second. -/
def gfMulBits : Nat → Byte → Byte → Byte
  | 0, _, _ => 0
  | n + 1, a, b => (if b.getLsbD 0 then a else 0) ^^^ gfMulBits n (gfTwo a) (b >>> 1)

/-- R298: the product in GF(2^8) with x^8 + x^4 + x^3 + x^2 + 1. -/
def gfMul (a b : Byte) : Byte := gfMulBits 8 a b

/-- a^n. -/
def gfPow (a : Byte) : Nat → Byte
  | 0 => 1
  | n + 1 => gfMul a (gfPow a n)

/-- The inverse of a non-zero element. -/
def gfInv (a : Byte) : Byte := gfPow a 254

/-- One data byte through the division by the generator x^4 + 15 x^3 + 54 x^2 + 120 x + 64, whose roots are α^0 to α^3. -/
def rsStep (r : List Byte) (d : Byte) : List Byte :=
  let fb := d ^^^ r.getD 0 0
  [r.getD 1 0 ^^^ gfMul fb 15, r.getD 2 0 ^^^ gfMul fb 54, r.getD 3 0 ^^^ gfMul fb 120, gfMul fb 64]

/-- R298: the four parity bytes of a segment, highest degree first. -/
def rsParity (data : List Byte) : List Byte := data.foldl rsStep [0, 0, 0, 0]

/-- Syndrome i of a received segment; its first byte is the coefficient of highest degree. -/
def syndrome (seg : List Byte) (i : Nat) : Byte :=
  let r := gfPow 2 i
  seg.foldl (fun acc b => gfMul acc r ^^^ b) 0

/-- The error locator of byte j of a segment. -/
def locator (j : Nat) : Byte := gfPow 2 (63 - j)

/-- The error values at bytes j and k that give syndromes 0 to 3; equal positions name one error. -/
def errorsAt (sy : List Byte) (j k : Nat) : Option (Byte × Byte) :=
  let s := fun (i : Nat) => sy.getD i 0
  let xj := locator j; let xk := locator k
  let (ej, ek) : Byte × Byte :=
    if j == k then (s 0, 0)
    else
      let ek := gfMul (s 1 ^^^ gfMul xj (s 0)) (gfInv (xj ^^^ xk))
      (s 0 ^^^ ek, ek)
  let fits := (List.range 4).all fun i => gfMul ej (gfPow xj i) ^^^ gfMul ek (gfPow xk i) == s i
  if fits then some (ej, ek) else none

/-- R298: a segment's 60 data bytes and whether it was corrected; none when it cannot be corrected. -/
def rsDecode (seg : List Byte) : Option (List Byte × Bool) :=
  let sy := (List.range 4).map (syndrome seg)
  if sy.all (· == 0) then some (seg.take 60, false)
  else
    let pairs := (List.range 64).map (fun j => (j, j))
      ++ (List.range 64).flatMap fun j => (List.range j).map fun k => (k, j)
    pairs.findSome? fun p => (errorsAt sy p.1 p.2).map fun e =>
      let seg := (seg.modify p.1 (· ^^^ e.1)).modify p.2 (· ^^^ e.2)
      (seg.take 60, true)

/-! ### Flits (R298) -/

/-- R298: 512 bytes on the link: each segment with its parity, in lane order. -/
def flitOnLink (data : List Byte) : List Byte :=
  (List.range 8).flatMap fun n =>
    let seg := padTo 60 (slice data (60 * n) 60)
    seg ++ rsParity seg

/-- R298: the 480 data bytes of a flit. -/
def flitData (type flags seq ack credit : Nat) (dest src : Byte) (payload : List Byte) : List Byte :=
  let b := leBytes 1 type ++ leBytes 1 flags ++ leBytes 2 seq ++ leBytes 2 ack ++ leBytes 2 credit ++ [dest, src]
    ++ leBytes 2 payload.length ++ padTo 464 payload
  b ++ leBytes 4 (crc32c b).toNat

/-- R299: the first class with credits to return. -/
def Selvage.owing (p : Selvage) : Option (Nat × Nat) :=
  (p.owed.zipIdx.find? fun x => 0 < x.1).map fun x => (x.2, min x.1 255)

/-- R298: the CREDIT field that a port's next flit carries. -/
def Selvage.creditField (p : Selvage) : Nat := p.owing.elim 0 fun x => x.2 + 256 * x.1

/-- R299, R300: a flit that leaves acknowledges every receipt, and returns the credits that it carries. -/
def Selvage.noted (p : Selvage) : Selvage :=
  let owed := p.owing.elim p.owed fun x => p.owed.modify x.1 (· - x.2)
  { p with unacked := 0, owed := owed }

/-- R298: a data flit of a port, as it goes on the link. -/
def Selvage.dataFlit (p : Selvage) (seq : BitVec 12) (f : TxFlit) : List Byte :=
  let flags := (if f.first then 1 else 0) + (if f.last then 2 else 0)
  flitOnLink (flitData (1 + 16 * f.cls) flags seq.toNat p.rxSeq.toNat p.creditField f.dest f.src f.payload)

/-- R298: a control flit of a port, with or without NAK. -/
def Selvage.controlFlit (p : Selvage) (nak : Bool) : List Byte :=
  flitOnLink (flitData 2 0 0 (p.rxSeq.toNat + if nak then 0x1000 else 0) p.creditField 0 0 [])

/-! ### Ports -/

/-- Change a Selvage port. -/
def State.mapPort (s : State) (n : Nat) (f : Selvage → Selvage) : State :=
  { s with links := { s.links with ports := s.links.ports.modify n f } }

/-- A Selvage port. -/
def State.port (s : State) (n : Nat) : Selvage := (s.links.ports[n]?).getD .fresh

/-- Bytes that a port puts on its link. -/
def State.emitFlit (s : State) (n : Nat) (bytes : List Byte) : State := { s with out := s.out ++ [.flit n bytes] }

/-- Whether a port can send: up, powered, its pads not latched. -/
def State.portSends (s : State) (n : Nat) : Bool :=
  (s.port n).state == .up && s.power.powered.getLsbD (100 + n) && !s.power.latched.getLsbD (100 + n)

/-- R300: a control flit sent, with or without NAK. -/
def State.sendControlFlit (s : State) (n : Nat) (nak : Bool) : State :=
  if s.portSends n then (s.emitFlit n ((s.port n).controlFlit nak)).mapPort n .noted else s

/-- R299, R300: the acknowledgement sent, and every credit returned, one class a flit. -/
def State.acknowledge (s : State) (n : Nat) : State :=
  (List.range 4).foldl (fun s _ => if (s.port n).owing.isSome then s.sendControlFlit n false else s)
    (s.sendControlFlit n false)

/-- R299: the class that sends next: 0 then 4 by strict priority, then 1 to 3 in turn. -/
def Selvage.nextClass (p : Selvage) : Option Nat :=
  let can := fun (c : Nat) => 0 < p.credits.getD c 0 && p.queue.any fun f => f.cls == c
  ([0, 4] ++ (List.range 3).map fun i => 1 + (p.turn + i) % 3).find? can

/-- R299: the flit of a class that sends next: own flits and those passing through in turn. -/
def Selvage.nextOf (p : Selvage) (c : Nat) : Option TxFlit :=
  match p.queue.find? fun f => f.cls == c && f.pass != p.passed.getD c false with
  | some f => some f
  | none => p.queue.find? fun f => f.cls == c

/-- R299, R300: one data flit leaves: it takes a credit and a SEQ and stays in the replay buffer. -/
def Selvage.sent (p : Selvage) (f : TxFlit) : Selvage :=
  { p.noted with
    queue := p.queue.erase f, txSeq := p.txSeq + 1, replay := p.replay ++ [(p.txSeq, f)],
    credits := p.credits.modify f.cls (· - 1), turn := if 1 ≤ f.cls && f.cls ≤ 3 then f.cls % 3 else p.turn,
    passed := p.passed.set f.cls f.pass }

/-- R299, R300: a port sends what it can: while it is up, holds credits and has fewer than 256 unacknowledged flits. -/
def State.pump : Nat → Nat → State → State
  | 0, _, s => s
  | fuel + 1, n, s =>
    let p := s.port n
    if !s.portSends n || 256 ≤ p.replay.length then s
    else
      match p.nextClass.bind p.nextOf with
      | none => s
      | some f => State.pump fuel n ((s.emitFlit n (p.dataFlit p.txSeq f)).mapPort n fun p => p.sent f)

/-- A port sends all that it can. -/
def State.pumpPort (s : State) (n : Nat) : State := s.pump (s.port n).queue.length n

/-- R300: flits of the replay buffer resent from a place in it on; `counted` under RESENDS. -/
def State.resendFlits (s : State) (n : Nat) (fs : List (BitVec 12 × TxFlit)) (counted : Bool) : State :=
  if !s.portSends n then s
  else
    let s := fs.foldl (fun s f => (s.emitFlit n ((s.port n).dataFlit f.1 f.2)).mapPort n .noted) s
    if counted then s.mapPort n fun p => { p with resends := satAdd p.resends fs.length } else s

/-! ### Messages (R314) -/

/-- R314: a message: its header and what follows it. -/
def messageBytes (mtype dport : Nat) (lsid tag : Byte) (seq : Word) (body : List Byte) : List Byte :=
  leBytes 1 mtype ++ leBytes 1 dport ++ [lsid, tag] ++ leBytes 4 seq.toNat ++ leBytes 4 body.length
    ++ leBytes 4 (crc32c body).toNat ++ body

/-- R299, R314: the class of a message type. -/
def classOf (mtype : Nat) : Nat :=
  match mtype with
  | 2 => 1
  | 3 => 2
  | 4 => 3
  | 5 | 6 => 4
  | _ => 0

/-- A message cut into the flits that carry it. -/
def flitsOf (cls : Nat) (dest src : Byte) : Nat → Bool → List Byte → List TxFlit
  | 0, _, _ => []
  | n + 1, first, bs =>
    let last := bs.length ≤ 464
    ⟨cls, dest, src, first, last, bs.take 464, false⟩ :: if last then [] else flitsOf cls dest src n false (bs.drop 464)

/-- Flits put behind those that a port has to send. -/
def State.queueFlits (s : State) (n : Nat) (fs : List TxFlit) : State :=
  (s.mapPort n fun p => { p with queue := p.queue ++ fs }).pumpPort n

/-- R305, R306: the port towards a device, of class 0 and even bindings or of odd ones. -/
def State.routePort (s : State) (device : Nat) (odd : Bool) : Option Nat :=
  ((s.links.routes[device]?).join).map fun r => if odd then r.2 else r.1

/-- This device's own number, 0 before enumeration (R349). -/
def State.ownNumber (s : State) : Nat := s.links.device.getD 0

/-- A message of a source sent by a port. -/
def State.messageFrom (s : State) (src : Byte) (n device mtype : Nat) (bs : List Byte) : State :=
  let fs := flitsOf (classOf mtype) (BitVec.ofNat 8 device) src (bs.length / 464 + 1) true bs
  s.queueFlits n (fs.map fun f => { f with pass := src != BitVec.ofNat 8 s.ownNumber })

/-- A message sent by a port. -/
def State.messageBy (s : State) (n device mtype dport : Nat) (lsid tag : Byte) (seq : Word) (body : List Byte) : State :=
  s.messageFrom (BitVec.ofNat 8 s.ownNumber) n device mtype (messageBytes mtype dport lsid tag seq body)

/-- R316: a message to a device, over a port that is given or over its route; one to the device itself reaches the port
that it names. A message to a device without a route is lost. -/
def State.sendMessage (s : State) (via : Option Nat) (odd : Bool) (device mtype dport : Nat) (lsid tag : Byte) (seq : Word)
    (body : List Byte) : State :=
  if device == s.ownNumber then
    s.mapPort dport fun p =>
      { p with messages := p.messages ++ [(BitVec.ofNat 8 device, messageBytes mtype dport lsid tag seq body)] }
  else
    match via.or (s.routePort device odd) with
    | some n => s.messageBy n device mtype dport lsid tag seq body
    | none => s

/-- R314: system control told to another device. -/
def State.tell (s : State) (device : Nat) (c : Control) : State :=
  if device == s.ownNumber then s else s.sendMessage none false device 7 0 0 0 0 (Config.controlBody c)

/-- R314: system control told to every other device. -/
def State.tellAll (s : State) (c : Control) : State := (List.range s.links.devices).foldl (fun s d => s.tell d c) s

end Sys2Proof.Machine
end

