-- ==== Sys2Proof/Machine/Ops.lean ====
section
/-!
DEFINITION. The named operations over memory, the protocol state, events and replies that the meanings share.
-/
namespace Sys2Proof

/-- R370, R310: the master that an interface carries. -/
def Iface.master (i : Iface) : MasterId :=
  match i with
  | .hostLink | .selvage => .host
  | .wakeBus | .uart => .mgmt

/-- R349: MASTER of a packet. -/
def MasterId.code (m : MasterId) : Nat :=
  match m with
  | .host => 0
  | .mgmt => 1

/-- The other master. -/
def MasterId.other (m : MasterId) : MasterId :=
  match m with
  | .host => .mgmt
  | .mgmt => .host

end Sys2Proof

namespace Sys2Proof.Machine

open Sys2Proof

/-! ### Sparse bytes -/

/-- The byte at an address; an unlisted byte reads zero. -/
def Mem.get (m : Mem) (a : Nat) : Byte := (m.lookup a).getD 0

/-- The listed cells of a byte string written at `a`. -/
def Mem.cells : Nat → List Byte → Mem
  | _, [] => []
  | a, b :: bs => if b = 0 then Mem.cells (a + 1) bs else (a, b) :: Mem.cells (a + 1) bs

/-- Write a byte string at `a`. -/
def Mem.write (m : Mem) (a : Nat) (bs : List Byte) : Mem :=
  m.filter (fun c => c.1 < a) ++ Mem.cells a bs ++ m.filter (fun c => a + bs.length ≤ c.1)

/-- Write one byte. -/
def Mem.set (m : Mem) (a : Nat) (b : Byte) : Mem := m.write a [b]

/-- Read `n` bytes at `a`. -/
def Mem.read (m : Mem) (a n : Nat) : List Byte :=
  let w := m.filter fun c => a ≤ c.1 && c.1 < a + n
  (List.range n).map fun i => Mem.get w (a + i)

/-- Clear `n` bytes at `a` to zero. -/
def Mem.clear (m : Mem) (a n : Nat) : Mem := m.filter fun c => c.1 < a || a + n ≤ c.1

/-- The canonical form: addresses strictly rising, no listed byte zero. -/
def Mem.wf (m : Mem) : Bool :=
  match m with
  | [] => true
  | [c] => c.2 != 0
  | c :: d :: rest => c.2 != 0 && decide (c.1 < d.1) && Mem.wf (d :: rest)

/-- Key of byte `o` of vault `n` (R240: 1 GiB). -/
def vaultKey (n o : Nat) : Nat := n * 2 ^ 30 + o

/-- Key of byte `o` of channel `n` (R248: at most 32 GiB). -/
def chanKey (n o : Nat) : Nat := n * 2 ^ 35 + o

/-- Change the canopy's bytes. -/
def State.mapVault (s : State) (f : Mem → Mem) : State :=
  { s with memory := { s.memory with vault := f s.memory.vault } }

/-- Change external memory's bytes. -/
def State.mapExt (s : State) (f : Mem → Mem) : State := { s with memory := { s.memory with ext := f s.memory.ext } }

/-! ### Masters, replies, events -/

/-- R597: the code of a status. -/
def Status.code (st : Status) : Nat :=
  match st with
  | .ok => 0x0000 | .accepted => 0x0001
  | .badCrc => 0x0100 | .badOpcode => 0x0101 | .badParam => 0x0102 | .badLength => 0x0103
  | .notReady => 0x0200 | .resultGone => 0x0201 | .superseded => 0x0202 | .busy => 0x0203 | .wrongState => 0x0204
  | .noSpace => 0x0300 | .noContext => 0x0301 | .limit => 0x0302
  | .authFail => 0x0400 | .locked => 0x0401 | .rollback => 0x0402
  | .faultReplayed => 0x0500 | .faultLost => 0x0501 | .linkDown => 0x0502

/-- A master's protocol state. -/
def State.master (s : State) (m : MasterId) : MasterState :=
  match m with
  | .host => s.proto.host
  | .mgmt => s.proto.mgmt

/-- Change a master's protocol state. -/
def State.mapMaster (s : State) (m : MasterId) (f : MasterState → MasterState) : State :=
  match m with
  | .host => { s with proto := { s.proto with host := f s.proto.host } }
  | .mgmt => { s with proto := { s.proto with mgmt := f s.proto.mgmt } }

/-- R349: the device's own number, 0 before enumeration. -/
def State.deviceNo (s : State) : Nat := s.ownNumber

/-- Append to what has left the device. -/
def State.emit (s : State) (o : Output) : State := { s with out := s.out ++ [o] }

/-- R328, R330, R333: whether the host link carries packets: it is up, and secured where MACSEC is 2. -/
def State.hostLinkUp (s : State) : Bool := s.net.rate != 0 && (fld s.net.config 15 14 != 2 || s.net.secured)

/-- R349, R350: the bytes of a packet: its header with HEADER_CRC, its parameters and their CRC. -/
def packetBytes (opcode flags status : Nat) (seq : Word) (device master : Byte) (context hostTag : Word)
    (params : List Byte) : List Byte :=
  let h := beBytes 2 0x594C ++ beBytes 1 1 ++ beBytes 1 flags ++ beBytes 2 opcode ++ beBytes 2 status ++ beBytes 4 seq.toNat
    ++ [device, master] ++ beBytes 2 params.length ++ beBytes 4 context.toNat ++ beBytes 4 hostTag.toNat
    ++ zeros 4
  h ++ beBytes 4 (crc32c h).toNat ++ params ++ beBytes 4 (if params.isEmpty then 0 else (crc32c params).toNat)

/-- R350: FLAGS of a reply or event. -/
def OutPacket.flags (p : OutPacket) : Nat :=
  (if p.isReply then 1 else 2) + (if p.rep then 8 else 0)
    + (if p.copied.elim (p.master == .mgmt) (·.2) then 16 else 0)

/-- R349: the bytes of a reply or event. -/
def OutPacket.bytes (p : OutPacket) : List Byte :=
  packetBytes p.opcode.toNat p.flags p.status.code p.seq p.device (p.copied.elim (BitVec.ofNat 8 p.master.code) (·.1)) p.context
    p.hostTag p.params

/-- R513: a packet framed under RFC 1055: a byte of the value END or ESC escaped, and END last (PRESUMED, log 179). -/
def uartFrame (bs : List Byte) : List Byte :=
  (bs.flatMap fun b => if b == 0xC0 then [0xDB, 0xDC] else if b == 0xDB then [0xDB, 0xDD] else [b]) ++ [0xC0]

/-- R310, R358, R371, R513: hand a packet to its interface; on class 0 it goes to the root. -/
def State.sendPacket (s : State) (p : OutPacket) : State :=
  match p.iface with
  | .wakeBus => { s with proto := { s.proto with replyQueue := s.proto.replyQueue ++ [p] } }
  | .hostLink => s.emit (.packet p)
  | .uart => s.emit (.uart (uartFrame p.bytes))
  | .selvage => s.sendMessage none false 0 1 0 0 0 0 p.bytes

/-- R310, R365: the host's waiting events leave by the interface of its last HELLO, when it can send. -/
def State.drainHost (s : State) : State :=
  let go := s.proto.host.events
  if go.isEmpty || (s.proto.host.iface == .hostLink && !s.hostLinkUp) then s
  else go.foldl State.sendPacket { s with proto := { s.proto with host := { s.proto.host with events := [] } } }

/-- R365: move waiting events of the host on to its link, and of the controller into the reply queue of R371. -/
def State.drainEvents (s : State) : State :=
  let s := s.drainHost
  let room := 16 - s.proto.replyQueue.length
  { s with proto := { s.proto with
      replyQueue := s.proto.replyQueue ++ s.proto.mgmt.events.take room,
      mgmt := { s.proto.mgmt with events := s.proto.mgmt.events.drop room } } }

/-- R365: the events, n of opcode 0x0F01 + n. -/
inductive EventKind where
  | fault | fallback | rateChange | power | stats | result
deriving DecidableEq, Repr

/-- R405 to R407, R417, R419, R439: the opcode of an event. -/
def EventKind.index (e : EventKind) : Nat :=
  match e with
  | .fault => 0
  | .fallback => 1
  | .rateChange => 2
  | .power => 3
  | .stats => 4
  | .result => 5

/-- R365: queue an event for one master, or drop it and count it. -/
def State.eventTo (s : State) (m : MasterId) (e : EventKind) (status : Status) (context hostTag : Word)
    (params : List Byte) : State :=
  let ms := s.master m
  if !ms.eventMask.getLsbD e.index then s
  else if ms.session && ms.events.length < 256 then
    let p : OutPacket :=
      { iface := ms.iface, dest := ms.dest, isReply := false, rep := false,
        opcode := BitVec.ofNat 16 (0x0F01 + e.index), status := status, seq := ms.eventSeq,
        device := BitVec.ofNat 8 s.deviceNo, master := m, context := context, hostTag := hostTag, params := params }
    let p := if m = .mgmt then { p with iface := .wakeBus } else p
    s.mapMaster m fun ms => { ms with events := ms.events ++ [p], eventSeq := ms.eventSeq + 1 }
  else
    s.mapMaster m fun ms => { ms with eventsDropped := satAdd ms.eventsDropped 1, eventSeq := ms.eventSeq + 1 }

/-- R365: raise an event for both masters. -/
def State.event (s : State) (e : EventKind) (status : Status) (context hostTag : Word) (params : List Byte) : State :=
  ((s.eventTo .host e status context hostTag params).eventTo .mgmt e status context hostTag params).drainEvents

/-! ### Free values -/

/-- Draw a free value: the number that the counter gives now, and the state with the counter moved on. -/
def State.draw (s : State) : Nat × State := (s.free, { s with free := s.free + 1 })

/-- R504: 32 fresh random bytes of Bark. -/
def State.drawKey (s : State) : List Byte × State :=
  ((List.range 32).map (Config.randomByte s.free), { s with free := s.free + 1 })

/-! ### Answers of commands -/

/-- What a command's own part gives: its status, reply parameters, the CONTEXT it assigns, REPEAT of R368, the state, and
what follows the reply. -/
structure Answer where
  status  : Status
  params  : List Byte
  context : Option Word
  rep     : Bool
  st      : State
  post    : State → State

/-- A status with reply parameters. -/
def answer (status : Status) (params : List Byte) (s : State) : Answer := ⟨status, params, none, false, s, id⟩

/-- OK. -/
def ok (params : List Byte) (s : State) : Answer := answer .ok params s

/-- An error status without parameters (R360). -/
def failWith (status : Status) (s : State) : Answer := answer status [] s

/-- R360: FAULT_OFFSET of a header field or of the whole. -/
def wholeOffset : Nat := 0xFFFFFFFF

/-- R360: BAD_PARAM with FAULT_OFFSET. -/
def badParam (off : Nat) (s : State) : Answer := answer .badParam (beBytes 4 off) s

/-- R360: BAD_LENGTH with FAULT_OFFSET. -/
def badLengthAt (off : Nat) (s : State) : Answer := answer .badLength (beBytes 4 off) s

/-- R373: a PARAM_LEN that differs from what the fields give. -/
def badLength (s : State) : Answer := badLengthAt wholeOffset s

/-- R360: the first field at fault of a list of (offset, good). -/
def firstBad (checks : List (Nat × Bool)) : Option Nat := (checks.find? fun c => !c.2).map (·.1)

/-! ### Lists with keys -/

/-- The first element that satisfies `p`, replaced by its image. -/
def modifyFirst {α : Type} (l : List α) (p : α → Bool) (f : α → α) : List α :=
  match l with
  | [] => []
  | x :: xs => if p x then f x :: xs else x :: modifyFirst xs p f

/-- Element `i` of a list, or `d`. -/
def nth {α : Type} (l : List α) (i : Nat) (d : α) : α := (l[i]?).getD d

/-! ### Objects -/

/-- The job with an id. -/
def State.job? (s : State) (id : Word) : Option Job := s.sched.jobs.find? fun j => j.id == id

/-- Change a job. -/
def State.mapJob (s : State) (id : Word) (f : Job → Job) : State :=
  { s with sched := { s.sched with jobs := modifyFirst s.sched.jobs (fun j => j.id == id) f } }

/-- The synthesis stream with an id. -/
def State.stream? (s : State) (id : Word) : Option Stream := s.audio.streams.find? fun t => t.id == id

/-- Change a stream. -/
def State.mapStream (s : State) (id : Word) (f : Stream → Stream) : State :=
  { s with audio := { s.audio with streams := modifyFirst s.audio.streams (fun t => t.id == id) f } }

/-- The ingress stream with an id. -/
def State.ingress? (s : State) (id : Word) : Option Ingress := s.audio.ingress.find? fun g => g.id == id

/-- Change an ingress stream. -/
def State.mapIngress (s : State) (id : Word) (f : Ingress → Ingress) : State :=
  { s with audio := { s.audio with ingress := modifyFirst s.audio.ingress (fun g => g.id == id) f } }

/-- The loaded model with an id. -/
def State.model? (s : State) (id : Word) : Option Model := s.sched.models.find? fun m => m.id == id

/-- Change a model. -/
def State.mapModel (s : State) (id : Word) (f : Model → Model) : State :=
  { s with sched := { s.sched with models := modifyFirst s.sched.models (fun m => m.id == id) f } }

/-- The loaded deck with a number. -/
def State.deck? (s : State) (n : Nat) : Option Deck := s.sched.decks.find? fun d => d.number == n

/-- A context: one position of a job. -/
def State.ctx? (s : State) (job : Word) (pos : Nat) : Option Ctx :=
  s.sched.ctxs.find? fun c => c.job == job && c.position == pos

/-- Change a context. -/
def State.mapCtx (s : State) (job : Word) (pos : Nat) (f : Ctx → Ctx) : State :=
  { s with sched := { s.sched with ctxs := modifyFirst s.sched.ctxs (fun c => c.job == job && c.position == pos) f } }

/-- The context resident on a Loom in a slot. -/
def State.resident? (s : State) (loom slot : Nat) : Option Ctx :=
  s.sched.ctxs.find? fun c => c.place == .resident loom slot

/-- A Loom's unit state. -/
def State.loom (s : State) (n : Nat) : LoomUnit := nth s.units.looms n { LoomUnit.healthy with failed := true }

/-- Change a Loom's unit state. -/
def State.mapLoom (s : State) (n : Nat) (f : LoomUnit → LoomUnit) : State :=
  { s with units := { s.units with looms := s.units.looms.modify n f } }

/-- A Shuttle. -/
def State.shuttle (s : State) (c p : Nat) : Shuttle :=
  nth (nth s.units.clusters c { Cluster.healthy with shuttles := [] }).shuttles p { Shuttle.healthy with failed := true }

/-- Change a cluster. -/
def State.mapCluster (s : State) (c : Nat) (f : Cluster → Cluster) : State :=
  { s with units := { s.units with clusters := s.units.clusters.modify c f } }

/-- Change a Shuttle. -/
def State.mapShuttle (s : State) (c p : Nat) (f : Shuttle → Shuttle) : State :=
  s.mapCluster c fun k => { k with shuttles := k.shuttles.modify p f }

/-- R27: whether a power domain is powered. -/
def State.domainOn (s : State) (d : Nat) : Bool := s.power.powered.getLsbD d

/-- The dent that a Loom carries, if any. -/
def State.dentOf (s : State) (loom : Nat) : Option Nat := s.units.dentMap.findIdx? fun l => l == some loom

/-- The Loom of a dent. -/
def State.loomOf (s : State) (dent : Nat) : Option Nat := (s.units.dentMap[dent]?).join

/-- The home vault of a dent (R31). -/
def State.homeOf (s : State) (dent : Nat) : Option Nat := (s.units.home[dent]?).join

/-- R33, R375: mapped dents. -/
def State.mappedDents (s : State) : Nat := (s.units.dentMap.filter Option.isSome).length

/-! ### Order -/

/-- An element put into a list in ascending order of a key, behind its equals. -/
def insertBy {α : Type} (key : α → Nat) (x : α) : List α → List α
  | [] => [x]
  | y :: ys => if key x < key y then x :: y :: ys else y :: insertBy key x ys

/-- A list in ascending order of a key, equals in their order. -/
def sortBy {α : Type} (key : α → Nat) (l : List α) : List α := l.foldl (fun acc x => insertBy key x acc) []

/-- A list in descending order of a key, equals in their order. -/
def sortDown {α : Type} (key : α → Nat) (l : List α) : List α :=
  let top := (l.map key).foldl max 0
  sortBy (fun x => top - key x) l

end Sys2Proof.Machine
end

