-- ==== Sys2Proof/Machine/Address.lean ====
section
/-!
DEFINITION. The device address map (R241, R248 to R258), model space (R255) and the blocks of system space (R260, R261, R283).
-/
namespace Sys2Proof.Machine

open Sys2Proof

/-! ### Regions -/

/-- R241: bytes of a home vault's job region. -/
def State.jobRegion (s : State) : Nat := (1008 - 64 * fld s.units.layout 3 0) * 2 ^ 20

/-- R243, R250: usable bytes of a present channel. -/
def State.usable (s : State) : Nat :=
  let raw := match s.units.density.toNat with
    | 2 => 4 * 2 ^ 30
    | 3 => 8 * 2 ^ 30
    | 4 => 16 * 2 ^ 30
    | 5 => 32 * 2 ^ 30
    | _ => 0
  if s.units.layout.getLsbD 19 then raw / 8 * 7 else raw

/-- R251: bytes of a present channel's job region. -/
def State.extJob (s : State) : Nat := min (fld s.units.layout 35 28 * 2 ^ 28) s.usable

/-- R251: bytes of a present channel's model region, in whole granules of R255. -/
def State.extModel (s : State) : Nat := (s.usable - s.extJob) / 8192 * 8192

/-- The present channels in ascending order. -/
def State.channels (s : State) : List Nat := (List.range 16).filter fun n => s.units.present.getLsbD n

/-- R255, R378: bytes of model space that the channels can hold. -/
def State.modelCapacity (s : State) : Nat := min (2 ^ 41) (s.channels.length * s.extModel)

/-! ### Locations -/

/-- What a device address reaches: a vault byte or a channel byte by its key, a frame port or a token port. -/
inductive Loc where
  | vault (key : Nat)
  | chan (key : Nat)
  | frame (port : Nat) (off : Nat)
  | token (port : Nat) (off : Nat)
deriving DecidableEq, Repr

/-- R252: the windows. -/
inductive Window where
  | position | dent | canopy | frame | token | channel | external | model
deriving DecidableEq, Repr

/-- R252: the window that holds an address, with the offset in it. -/
def windowOf (a : Nat) : Option (Window × Nat) :=
  if a < 0x01000000000 then some (.position, a)
  else if a < 0x02000000000 then some (.dent, a - 0x01000000000)
  else if a < 0x03000000000 then some (.canopy, a - 0x02000000000)
  else if a < 0x03001000000 then some (.frame, a - 0x03000000000)
  else if a < 0x03001400000 then some (.token, a - 0x03001000000)
  else if a < 0x04000000000 then none
  else if a < 0x0C000000000 then some (.channel, a - 0x04000000000)
  else if a < 0x14000000000 then some (.external, a - 0x0C000000000)
  else if a < 0x20000000000 then none
  else if a < 0x40000000000 then some (.model, a - 0x20000000000)
  else none

/-- R252: device address of frame port k. -/
def frameAddr (k : Nat) : Nat := 0x03000000000 + k * 1024

/-- R252: device address of token port j. -/
def tokenAddr (j : Nat) : Nat := 0x03001000000 + j * 1024

/-- R254: the member and inner offset of an offset in an interleaved window. -/
def interleave (off : Nat) (members : List Nat) (granule region : Nat) : Option (Nat × Nat) :=
  let n := members.length
  let blk := off / granule
  let inner := blk / n * granule + off % granule
  if n == 0 || region ≤ inner then none else (members[blk % n]?).map fun m => (m, inner)

/-- R255: where a byte of model space lies. -/
def State.modelLoc (s : State) (o : Nat) : Option Nat :=
  (interleave o s.channels 8192 s.extModel).map fun p => chanKey p.1 (s.extJob + p.2)

/-- The pieces of a range that cross no granule: offset from the start, length. -/
def granules (granule : Nat) : Nat → Nat → Nat → Nat → List (Nat × Nat)
  | 0, _, _, _ => []
  | fuel + 1, a, done, len =>
    if len = 0 then []
    else
      let n := min len (granule - a % granule)
      (done, n) :: granules granule fuel (a + n) (done + n) (len - n)

/-- The pieces of `len` bytes at `a`. -/
def granulesOf (granule a len : Nat) : List (Nat × Nat) := granules granule (len / granule + 2) a 0 len

/-- R255: bytes of model space. -/
def State.modelRead (s : State) (o len : Nat) : List Byte :=
  (granulesOf 8192 o len).flatMap fun p =>
    match s.modelLoc (o + p.1) with
    | some k => s.memory.ext.read k p.2
    | none => zeros p.2

/-- R379: bytes written into model space by MODEL_LOAD. -/
def State.modelWrite (s : State) (o : Nat) (bs : List Byte) : State :=
  (granulesOf 8192 o bs.length).foldl (fun s p =>
    match s.modelLoc (o + p.1) with
    | some k => s.mapExt fun m => m.write k (slice bs p.1 p.2)
    | none => s) s

/-! ### Direct access (R258) -/

/-- R258, R383: where a range of the dent or channel windows lies: the dent or channel, and the key of its first byte;
none for a range that leaves its slot or job region. -/
def State.direct (s : State) (a len : Nat) : Option ((Bool × Nat) × Loc) :=
  match windowOf a with
  | some (.dent, o) =>
    let d := o / 2 ^ 30
    if o % 2 ^ 30 + len ≤ s.jobRegion then
      (s.homeOf d).map fun v => ((false, d), .vault (vaultKey v (o % 2 ^ 30)))
    else none
  | some (.channel, o) =>
    let n := o / 2 ^ 35
    if s.units.present.getLsbD n && decide (o % 2 ^ 35 + len ≤ s.extJob) then
      some ((true, n), .chan (chanKey n (o % 2 ^ 35)))
    else none
  | _ => none

/-- Bytes at a location in memory; a port reads nothing. -/
def State.readLoc (s : State) (l : Loc) (len : Nat) : List Byte :=
  match l with
  | .vault k => s.memory.vault.read k len
  | .chan k => s.memory.ext.read k len
  | .frame _ _ | .token _ _ => zeros len

/-- Bytes written at a location in memory. -/
def State.writeLoc (s : State) (l : Loc) (bs : List Byte) : State :=
  match l with
  | .vault k => s.mapVault fun m => m.write k bs
  | .chan k => s.mapExt fun m => m.write k bs
  | .frame _ _ | .token _ _ => s

/-- R244, R250: words corrected as memory was read: counted for the vault, or for the channel with INLINE_ECC 1. -/
def State.countCorrected (s : State) (canopy : Bool) (unit n : Nat) : State :=
  if canopy then { s with memory := { s.memory with vaultCorr := s.memory.vaultCorr.modify unit fun c => satAdd c n } }
  else if s.units.layout.getLsbD 19 then
    { s with memory := { s.memory with chCorr := s.memory.chCorr.modify unit fun c => satAdd c n } }
  else s

/-! ### System space -/

/-- R260: bytes of a block. -/
def blockBytes : Nat := 131072

/-- R260: blocks of a system vault. -/
def blocksPerVault : Nat := 8192

/-- The used blocks of a vault. -/
def State.usedIn (s : State) (v : Nat) : List Nat := (s.memory.blocks.filter fun b => b.1 == v).map (·.2.1)

/-- R261: the blocks that the reserve pool still holds. -/
def State.poolLeft (s : State) : Nat := 128 - s.memory.lent

/-- R376: free blocks outside the reserve pool. -/
def State.sysFree (s : State) : Nat :=
  s.units.sysVaults.length * blocksPerVault - s.memory.blocks.length - s.poolLeft

/-- The free blocks outside the reserve pool of each system vault, in ascending order; the pool's blocks are the last
free ones (DESIGN CHOICE, log 13). -/
def State.freeByVault (s : State) : List (Nat × Nat) :=
  (s.units.sysVaults.foldr (fun v acc =>
    let free := blocksPerVault - (s.usedIn v).length
    (acc.1 - free, (v, free - acc.1) :: acc.2)) (s.poolLeft, ([] : List (Nat × Nat)))).2

/-- The lowest free block of a vault. -/
def State.lowestFree (s : State) (v : Nat) : Nat :=
  let used := s.usedIn v
  ((List.range (used.length + 1)).find? fun i => !used.contains i).getD 0

/-- A block taken: the owner is 0 a Loom context, 1 a stream, 2 an ingress stream, 3 a result, 4 a knot slot pair. -/
def State.takeBlock (s : State) (v owner : Nat) : (Nat × Nat) × State :=
  let i := s.lowestFree v
  ((v, i), { s with memory := { s.memory with
    blocks := s.memory.blocks ++ [(v, i, owner)],
    altered := s.memory.altered.clear (vaultKey v (i * blockBytes)) blockBytes } })

/-- R261: one block of general use from the lowest-numbered vault that has one. -/
def State.allocBlock (s : State) (owner : Nat) : Option ((Nat × Nat) × State) :=
  (s.freeByVault.find? fun p => p.2 != 0).map fun p => s.takeBlock p.1 owner

/-- R261: `n` blocks of general use, all or none. -/
def State.allocBlocks : Nat → Nat → State → Option (List (Nat × Nat) × State)
  | 0, _, s => some ([], s)
  | n + 1, owner, s =>
    match s.allocBlock owner with
    | none => none
    | some (b, s) => (State.allocBlocks n owner s).map fun r => (b :: r.1, r.2)

/-- R260: the block of a stream's save area: in the quadrant of its unit when a vault there has one. -/
def State.allocSave (s : State) (quadrant owner : Nat) : Option ((Nat × Nat) × State) :=
  let usable := s.freeByVault.filter fun p => p.2 != 0
  match usable.find? fun p => p.1 / 17 == quadrant with
  | some p => some (s.takeBlock p.1 owner)
  | none => usable.head?.map fun p => s.takeBlock p.1 owner

/-- R283: one block of the reserve pool lent. -/
def State.borrowBlock (s : State) (owner : Nat) : Option ((Nat × Nat) × State) :=
  if s.poolLeft == 0 then none
  else
    let free := s.units.sysVaults.find? fun v => decide ((s.usedIn v).length < blocksPerVault)
    free.map fun v =>
      let r := s.takeBlock v owner
      (r.1, { r.2 with memory := { r.2.memory with lent := r.2.memory.lent + 1 } })

/-- R261, R283: a block freed; it goes back to the reserve pool while that lacks blocks. -/
def State.freeBlock (s : State) (b : Nat × Nat) : State :=
  { s with memory := { s.memory with
      blocks := s.memory.blocks.filter fun e => !(e.1 == b.1 && e.2.1 == b.2), lent := s.memory.lent - 1 } }

/-- Blocks freed. -/
def State.freeBlocks (s : State) (bs : List (Nat × Nat)) : State := bs.foldl State.freeBlock s

end Sys2Proof.Machine
end

