-- ==== Sys2Proof/Machine/Crypto.lean ====
section
/-!
DEFINITION. The symmetric algorithms of R504: SHAKE256 (FIPS 202), KMAC256 (SP 800-185), AES-256-GCM (SP 800-38D) and
AES-256 key wrap (RFC 3394); and ChaCha20's block function (R229).
-/
namespace Sys2Proof.Machine.Crypto

open Sys2Proof Sys2Proof.Machine

/-! ### Keccak -/

/-- The 24 round constants of Keccak-f[1600]. -/
def roundConstants : List DWord :=
  [0x0000000000000001#64, 0x0000000000008082#64, 0x800000000000808a#64, 0x8000000080008000#64,
   0x000000000000808b#64, 0x0000000080000001#64, 0x8000000080008081#64, 0x8000000000008009#64,
   0x000000000000008a#64, 0x0000000000000088#64, 0x0000000080008009#64, 0x000000008000000a#64,
   0x000000008000808b#64, 0x800000000000008b#64, 0x8000000000008089#64, 0x8000000000008003#64,
   0x8000000000008002#64, 0x8000000000000080#64, 0x000000000000800a#64, 0x800000008000000a#64,
   0x8000000080008081#64, 0x8000000000008080#64, 0x0000000080000001#64, 0x8000000080008008#64]

/-- The rotation of lane x + 5y. -/
def rotations : List Nat :=
  [0, 1, 62, 28, 27, 36, 44, 6, 55, 20, 3, 10, 43, 25, 39, 41, 45, 15, 21, 8, 18, 2, 61, 56, 14]

/-- Lane `i` of a state. -/
def lane (a : List DWord) (i : Nat) : DWord := a.getD i 0

/-- One round of Keccak-f[1600]. -/
def keccakRound (a : List DWord) (rc : DWord) : List DWord :=
  let c := (List.range 5).map fun x => lane a x ^^^ lane a (x + 5) ^^^ lane a (x + 10) ^^^ lane a (x + 15) ^^^ lane a (x + 20)
  let d := (List.range 5).map fun x => lane c ((x + 4) % 5) ^^^ (lane c ((x + 1) % 5)).rotateLeft 1
  let t := (List.range 25).map fun i => (lane a i ^^^ lane d (i % 5)).rotateLeft (rotations.getD i 0)
  -- lane (x, y) of the permuted state is lane (x + 3y, x) of t
  let b := (List.range 25).map fun i => let x := i % 5; let y := i / 5; lane t ((x + 3 * y) % 5 + 5 * x)
  let e := (List.range 25).map fun i =>
    let x := i % 5; let y := i / 5
    lane b i ^^^ (~~~ lane b ((x + 1) % 5 + 5 * y) &&& lane b ((x + 2) % 5 + 5 * y))
  (lane e 0 ^^^ rc) :: e.drop 1

/-- Keccak-f[1600]. -/
def keccakF (a : List DWord) : List DWord := roundConstants.foldl keccakRound a

/-- The rate of the 256-bit-strength functions, in bytes. -/
def rate : Nat := 136

/-- Absorb one block of `rate` bytes. -/
def absorb (a : List DWord) (blk : List Byte) : List DWord :=
  keccakF ((List.range 25).map fun i =>
    if i < 17 then lane a i ^^^ BitVec.ofNat 64 (le blk (8 * i) 8) else lane a i)

/-- Absorb whole blocks; `fuel` bounds their number. -/
def absorbAll : Nat → List DWord → List Byte → List DWord
  | 0, a, _ => a
  | n + 1, a, bs => if bs.isEmpty then a else absorbAll n (absorb a (bs.take rate)) (bs.drop rate)

/-- Squeeze whole blocks. -/
def squeeze : Nat → List DWord → List Byte
  | 0, _ => []
  | n + 1, a => (a.take 17).flatMap (fun l => leBytes 8 l.toNat) ++ squeeze n (keccakF a)

/-- Pad a message with a domain suffix and the final bit. -/
def padded (suffix : Byte) (m : List Byte) : List Byte :=
  let k := rate - m.length % rate
  if k = 1 then m ++ [suffix ||| 0x80] else m ++ [suffix] ++ zeros (k - 2) ++ [0x80]

/-- The sponge: `n` bytes of output. -/
def sponge (suffix : Byte) (m : List Byte) (n : Nat) : List Byte :=
  let p := padded suffix m
  (squeeze (ceilDiv n rate) (absorbAll (p.length / rate) (List.replicate 25 0) p)).take n

/-- SHAKE256 with `n` bytes of output. -/
def shake256 (m : List Byte) (n : Nat) : List Byte := sponge 0x1F m n

/-- The 32-byte digest of R504. -/
def digest (m : List Byte) : List Byte := shake256 m 32

/-- The fewest big-endian bytes of a number, at least one. -/
def minBytes (v : Nat) : List Byte :=
  let n := if v < 256 then 1 else if v < 65536 then 2 else if v < 16777216 then 3 else 4
  beBytes n v

/-- left_encode of SP 800-185. -/
def leftEncode (v : Nat) : List Byte := let b := minBytes v; BitVec.ofNat 8 b.length :: b

/-- right_encode of SP 800-185. -/
def rightEncode (v : Nat) : List Byte := let b := minBytes v; b ++ [BitVec.ofNat 8 b.length]

/-- encode_string of SP 800-185. -/
def encodeString (s : List Byte) : List Byte := leftEncode (8 * s.length) ++ s

/-- bytepad to the rate. -/
def bytepad (x : List Byte) : List Byte :=
  let z := leftEncode rate ++ x
  z ++ zeros (roundUp z.length rate - z.length)

/-- KMAC256 of a message under a key, `bits` of output, with a customisation string. -/
def kmac256 (key m : List Byte) (bits : Nat) (custom : List Byte) : List Byte :=
  let head := bytepad (encodeString (ascii "KMAC") ++ encodeString custom)
  sponge 0x04 (head ++ bytepad (encodeString key) ++ m ++ rightEncode bits) (bits / 8)

/-! ### AES-256 -/

/-- The AES S-box, one byte per value. -/
def sboxBits : BitVec 2048 :=
  0x16bb54b00f2d99416842e6bf0d89a18cdf2855cee9871e9b948ed9691198f8e19e1dc186b95735610ef6034866b53e708a8bbd4b1f74dde8c6b4a61c2e2578ba08ae7a65eaf4566ca94ed58d6d37c8e779e4959162acd3c25c2406490a3a32e0db0b5ede14b8ee4688902a22dc4f816073195d643d7ea7c41744975fec130ccdd2f3ff1021dab6bcf5389d928f40a351a89f3c507f02f94585334d43fbaaefd0cf584c4a39becb6a5bb1fc20ed00d153842fe329b3d63b52a05a6e1b1a2c830975b227ebe28012079a059618c323c7041531d871f1e5a534ccf73f362693fdb7c072a49cafa2d4adf04759fa7dc982ca76abd7fe2b670130c56f6bf27b777c63#2048

/-- The inverse S-box. -/
def invSboxBits : BitVec 2048 :=
  0x7d0c2155631469e126d677ba7e042b17619953833cbbebc8b0f52aae4d3be0a0ef9cc9939f7ae52d0d4ab519a97f51605fec8027591012b131c7078833a8dd1ff45acd78fec0db9a2079d2c64b3e56fc1bbe18aa0e62b76f89c5291d711af1476edf751ce837f9e28535ade72274ac9673e6b4f0cecff297eadc674f4111913a6b8a130103bdafc1020f3fca8f1e2cd00645b3b80558e4f70ad3bc8c00abd890849d8da75746155edab9edfd5048706c92b6655dcc5ca4d41698688664f6f87225d18b6d49a25b76b224d92866a12e084ec3fa420b954cee3d23c2a632947b54cbe9dec444438e3487ff2f9b8239e37cfbd7f3819ea340bf38a53630d56a0952#2048

/-- SubBytes of one byte. -/
def sbox (b : Byte) : Byte := (sboxBits >>> (8 * b.toNat)).setWidth 8

/-- The inverse of SubBytes of one byte. -/
def invSbox (b : Byte) : Byte := (invSboxBits >>> (8 * b.toNat)).setWidth 8

/-- Multiply by x in the field of AES. -/
def xtime (b : Byte) : Byte := if b.getLsbD 7 then (b <<< 1) ^^^ 0x1B else b <<< 1

/-- Multiply by a small constant in the field of AES. -/
def gmul (b : Byte) (k : Nat) : Byte :=
  let b2 := xtime b; let b4 := xtime b2; let b8 := xtime b4
  (if bitOf k 0 then b else 0) ^^^ (if bitOf k 1 then b2 else 0) ^^^ (if bitOf k 2 then b4 else 0)
    ^^^ (if bitOf k 3 then b8 else 0)

/-- Exclusive or of two byte strings. -/
def xorBytes (a b : List Byte) : List Byte := List.zipWith (fun x y => x ^^^ y) a b

/-- The key schedule of AES-256: words 8 to 59 from the previous ones, newest first. -/
def expandFrom : Nat → Nat → List (List Byte) → Byte → List (List Byte)
  | 0, _, ws, _ => ws
  | n + 1, i, ws, rcon =>
    let prev := ws.getD 0 []
    let back := ws.getD 7 []
    let t := if i % 8 = 0 then
        let r := (prev.drop 1 ++ prev.take 1).map sbox
        xorBytes r [rcon, 0, 0, 0]
      else if i % 8 = 4 then prev.map sbox else prev
    expandFrom n (i + 1) (xorBytes back t :: ws) (if i % 8 = 0 then xtime rcon else rcon)

/-- The 15 round keys of AES-256, in order. -/
def roundKeys (key : List Byte) : List (List Byte) :=
  let ws := (List.range 8).map fun i => slice key (4 * i) 4
  let all := (expandFrom 52 8 ws.reverse 1).reverse
  (List.range 15).map fun r => (slice4 all r).flatten
where
  /-- The four words of round `r`. -/
  slice4 (all : List (List Byte)) (r : Nat) : List (List Byte) := (all.drop (4 * r)).take 4

/-- Byte `i` of a block. -/
def at16 (b : List Byte) (i : Nat) : Byte := b.getD i 0

/-- ShiftRows. -/
def shiftRows (b : List Byte) : List Byte := (List.range 16).map fun i => at16 b ((i + 4 * (i % 4)) % 16)

/-- The inverse of ShiftRows. -/
def invShiftRows (b : List Byte) : List Byte := (List.range 16).map fun i => at16 b ((i + 16 - 4 * (i % 4)) % 16)

/-- A circulant column mix with coefficients `c`. -/
def mixWith (c : List Nat) (b : List Byte) : List Byte :=
  (List.range 16).map fun i =>
    let col := i / 4; let r := i % 4
    (List.range 4).foldl (fun acc j => acc ^^^ gmul (at16 b (4 * col + j)) (c.getD ((j + 4 - r) % 4) 0)) 0

/-- AES-256 encryption of one block. -/
def aesEncrypt (key blk : List Byte) : List Byte :=
  let ks := roundKeys key
  let b := xorBytes blk (ks.getD 0 [])
  let b := (List.range 13).foldl (fun b r =>
    xorBytes (mixWith [2, 3, 1, 1] (shiftRows (b.map sbox))) (ks.getD (r + 1) [])) b
  xorBytes (shiftRows (b.map sbox)) (ks.getD 14 [])

/-- AES-256 decryption of one block. -/
def aesDecrypt (key blk : List Byte) : List Byte :=
  let ks := roundKeys key
  let b := (invShiftRows (xorBytes blk (ks.getD 14 []))).map invSbox
  let b := (List.range 13).foldl (fun b r =>
    (invShiftRows (mixWith [14, 11, 13, 9] (xorBytes b (ks.getD (13 - r) [])))).map invSbox) b
  xorBytes b (ks.getD 0 [])

/-! ### GCM and key wrap -/

/-- One step of multiplication in GCM's field: bit 127 is the first bit of the block. -/
def gf128Step (y : BitVec 128) (p : BitVec 128 × BitVec 128) (i : Nat) : BitVec 128 × BitVec 128 :=
  let z := if y.getLsbD (127 - i) then p.1 ^^^ p.2 else p.1
  let v := if p.2.getLsbD 0 then (p.2 >>> 1) ^^^ (0xE1#128 <<< 120) else p.2 >>> 1
  (z, v)

/-- Multiplication in GCM's field. -/
def gf128Mul (x y : BitVec 128) : BitVec 128 := ((List.range 128).foldl (gf128Step y) (0, x)).1

/-- The number that a block spells. -/
def blockNat (b : List Byte) : BitVec 128 := BitVec.ofNat 128 (beNat (padTo 16 b))

/-- GHASH over zero-padded blocks. -/
def ghash (h : BitVec 128) : Nat → BitVec 128 → List Byte → BitVec 128
  | 0, y, _ => y
  | n + 1, y, bs => if bs.isEmpty then y else ghash h n (gf128Mul (y ^^^ blockNat (bs.take 16)) h) (bs.drop 16)

/-- The key stream of GCM from a counter block. -/
def gctr (key iv : List Byte) : Nat → Nat → List Byte → List Byte
  | 0, _, _ => []
  | n + 1, ctr, bs =>
    if bs.isEmpty then []
    else xorBytes (bs.take 16) (aesEncrypt key (iv ++ beBytes 4 ctr)) ++ gctr key iv n (ctr + 1) (bs.drop 16)

/-- The tag of GCM over additional data and ciphertext. -/
def gcmTag (key iv aad ct : List Byte) : List Byte :=
  let h := blockNat (aesEncrypt key (zeros 16))
  let pad := fun (b : List Byte) => b ++ zeros (roundUp b.length 16 - b.length)
  let all := pad aad ++ pad ct ++ beBytes 8 (8 * aad.length) ++ beBytes 8 (8 * ct.length)
  let y := ghash h (all.length / 16) 0 all
  xorBytes (aesEncrypt key (iv ++ beBytes 4 1)) (beBytes 16 y.toNat)

/-- AES-256-GCM decryption: the plain bytes, or none when the tag fails. -/
def gcmOpen (key iv aad ct tag : List Byte) : Option (List Byte) :=
  if gcmTag key iv aad ct == tag then some (gctr key iv (ct.length / 16 + 1) 2 ct) else none

/-- One step of RFC 3394 unwrapping: (A, R) at step t of n registers. -/
def unwrapStep (kek : List Byte) (n : Nat) (p : List Byte × List (List Byte)) (t : Nat) : List Byte × List (List Byte) :=
  let i := (t - 1) % n
  let a := beBytes 8 ((beNat p.1) ^^^ t)
  let b := aesDecrypt kek (a ++ p.2.getD i [])
  (b.take 8, p.2.set i (b.drop 8))

/-- RFC 3394: unwrap 40 bytes to a 32-byte key, or none when the check value fails. -/
def unwrapKey (kek wrapped : List Byte) : Option (List Byte) :=
  let rs := (List.range 4).map fun i => slice wrapped (8 + 8 * i) 8
  let p := ((List.range 24).map (24 - ·)).foldl (unwrapStep kek 4) (wrapped.take 8, rs)
  if p.1 == List.replicate 8 0xA6 then some p.2.flatten else none

/-! ### ChaCha20 (R229) -/

/-- The quarter round on words a, b, c, d of a state. -/
def quarterRound (st : List Word) (a b c d : Nat) : List Word :=
  let va := st.getD a 0; let vb := st.getD b 0; let vc := st.getD c 0; let vd := st.getD d 0
  let va := va + vb; let vd := (vd ^^^ va).rotateLeft 16
  let vc := vc + vd; let vb := (vb ^^^ vc).rotateLeft 12
  let va := va + vb; let vd := (vd ^^^ va).rotateLeft 8
  let vc := vc + vd; let vb := (vb ^^^ vc).rotateLeft 7
  (((st.set a va).set b vb).set c vc).set d vd

/-- One double round. -/
def doubleRound (st : List Word) : List Word :=
  let st := quarterRound st 0 4 8 12
  let st := quarterRound st 1 5 9 13
  let st := quarterRound st 2 6 10 14
  let st := quarterRound st 3 7 11 15
  let st := quarterRound st 0 5 10 15
  let st := quarterRound st 1 6 11 12
  let st := quarterRound st 2 7 8 13
  quarterRound st 3 4 9 14

/-- ChaCha20's block of 16 words from its 16 initial words. -/
def chachaBlock (init : List Word) : List Word :=
  let st := (List.range 10).foldl (fun st _ => doubleRound st) init
  List.zipWith (· + ·) st init

end Sys2Proof.Machine.Crypto
end

