-- ==== Sys2Proof/Machine/Flags.lean ====
section
/-!
DEFINITION. The arithmetic flags of R87 and R88.
-/
namespace Sys2Proof.Machine

open Sys2Proof

/-- What one element raises: the bits [3:0] of ARITH_FLAGS (R87). -/
structure Fl where
  nv    : Bool
  of    : Bool
  sat   : Bool
  nanin : Bool
deriving DecidableEq, Repr

/-- No flag. -/
def Fl.none : Fl := ⟨false, false, false, false⟩

/-- R70, R71: an invalid operation. -/
def Fl.setNv : Fl := ⟨true, false, false, false⟩

/-- R74: an overflow that gave an infinity. -/
def Fl.setOf : Fl := ⟨false, true, false, false⟩

/-- R71, R74, R75: a saturation. -/
def Fl.setSat : Fl := ⟨false, false, true, false⟩

/-- R71: a NaN consumed. -/
def Fl.setNanin : Fl := ⟨false, false, false, true⟩

/-- The flags of two operations on one element. -/
def Fl.join (a b : Fl) : Fl := ⟨a.nv || b.nv, a.of || b.of, a.sat || b.sat, a.nanin || b.nanin⟩

/-- The bits [3:0] that an element sets. -/
def Fl.bits (f : Fl) : Word :=
  (if f.nv then 1#32 else 0) ||| (if f.of then 2#32 else 0) ||| (if f.sat then 4#32 else 0)
    ||| (if f.nanin then 8#32 else 0)

/-- R87: the ARITH_FLAGS word after one element: its bits set, and SAT_COUNT raised when it saturated, stopping at
0xFFFF. -/
def raiseFlags (w : Word) (f : Fl) : Word :=
  let w := w ||| f.bits
  if f.sat && fld w 31 16 < 0xFFFF then w + 0x10000#32 else w

/-- R87: the ARITH_FLAGS word after the elements of a card. -/
def raiseAll (w : Word) (fs : List Fl) : Word := fs.foldl raiseFlags w

/-- R88, R390: flags ORed and counts added, stopping at 0xFFFF. -/
def mergeFlags (a b : Word) : Word :=
  ((a ||| b) &&& 0xFFFF#32) ||| BitVec.ofNat 32 (min (fld a 31 16 + fld b 31 16) 0xFFFF * 0x10000)

end Sys2Proof.Machine
end

