-- ==== Sys2Proof/Machine/Float.lean ====
section
/-!
DEFINITION. Number formats and arithmetic (R63 to R84, R128): exact values, conversions, FP32 operations on codes.
-/
namespace Sys2Proof.Machine

open Sys2Proof

/-- An exact value with IEEE 754's specials: a NaN, an infinity, or a sign and a magnitude. -/
inductive FVal where
  | nan
  | inf (neg : Bool)
  | fin (neg : Bool) (mag : Rat)
deriving DecidableEq, Repr

/-- The signed value of a finite one; 0 otherwise. -/
def FVal.rat (x : FVal) : Rat :=
  match x with
  | .fin true m => -m
  | .fin false m => m
  | _ => 0

/-- An exact rational as a value; zero is +0. -/
def FVal.ofRat (q : Rat) : FVal := if q < 0 then .fin true (-q) else .fin false q

/-- The negated value. -/
def FVal.neg (x : FVal) : FVal :=
  match x with
  | .nan => .nan
  | .inf s => .inf (!s)
  | .fin s m => .fin (!s) m

/-- 2 to an integer power. -/
def pow2 (k : Int) : Rat :=
  match k with
  | .ofNat n => ((2 ^ n : Nat) : Rat)
  | .negSucc n => mkRat 1 (2 ^ (n + 1))

/-- floor(log2 q) of a positive rational. -/
def floorLog2 (q : Rat) : Int :=
  let e : Int := (Nat.log2 q.num.toNat : Int) - (Nat.log2 q.den : Int)
  if q < pow2 e then e - 1 else e

/-- A format: an integer width, or a float of e exponent and m mantissa bits with the SPECIALS of R76, or E8M0. -/
inductive Fmt where
  | int (width : Nat)
  | flt (e m : Nat) (bias : Int) (specials : Nat)
  | e8m0
deriving DecidableEq, Repr

/-- FP32 (R63). -/
def fmt32 : Fmt := .flt 8 23 127 2

/-- The two's complement value of a `w`-bit code. -/
def sext (w v : Nat) : Int := if v % 2 ^ w < 2 ^ (w - 1) then (v % 2 ^ w : Nat) else (v % 2 ^ w : Nat) - (2 ^ w : Nat)

/-- R76: the format that an entry of table 0x01 declares; none for an unused one. -/
def userFmt (entry : List Byte) : Option Fmt :=
  let width := (entry.getD 0 0).toNat
  let e := (entry.getD 1 0).toNat
  if width == 0 then none else some (.flt e (width - 1 - e) (sext 8 (entry.getD 2 0).toNat) ((entry.getD 3 0).toNat % 4))

/-- R63: the format of a code, with table 0x01 for UF0 to UF3; none for a reserved code or an unused entry. -/
def fmtOf (table1 : List (List Byte)) (code : Nat) : Option Fmt :=
  match code with
  | 0x0 => some (.int 4)
  | 0x1 => some (.int 8)
  | 0x2 => some (.flt 2 1 1 0)
  | 0x3 => some (.flt 4 3 7 1)
  | 0x4 => some (.flt 5 2 15 2)
  | 0x5 => some (.flt 8 7 127 2)
  | 0x6 => some (.flt 5 10 15 2)
  | 0x7 => some fmt32
  | 0x8 | 0x9 | 0xA | 0xB => (table1[code - 8]?).bind userFmt
  | 0xC => some .e8m0
  | _ => none

/-- The width of a format's codes in bits (R63). -/
def Fmt.width (f : Fmt) : Nat :=
  match f with
  | .int w => w
  | .flt e m _ _ => 1 + e + m
  | .e8m0 => 8

/-- R66, R122: the container of an element. -/
def Fmt.container (f : Fmt) : Nat := if f.width ≤ 4 then 4 else if f.width ≤ 8 then 8 else f.width

/-- The largest finite magnitude's code without sign (R63, R76). -/
def maxBody (e m specials : Nat) : Nat :=
  if specials == 0 then 2 ^ (e + m) - 1 else if specials == 1 then 2 ^ (e + m) - 2 else (2 ^ e - 1) * 2 ^ m - 1

/-- The magnitude of a code without sign (R63). -/
def bodyMag (m : Nat) (bias : Int) (body : Nat) : Rat :=
  let ex := body / 2 ^ m; let mant := body % 2 ^ m
  if ex == 0 then (mant : Rat) * pow2 (1 - bias - m) else ((2 ^ m + mant : Nat) : Rat) * pow2 (ex - bias - m)

/-- R63: the exact value of a code. -/
def value (f : Fmt) (code : Nat) : FVal :=
  match f with
  | .int w => .ofRat (sext w code)
  | .e8m0 => if code % 256 == 255 then .nan else .fin false (pow2 ((code % 256 : Nat) - 127))
  | .flt e m bias sp =>
    let neg := code / 2 ^ (e + m) % 2 == 1
    let body := code % 2 ^ (e + m)
    if sp == 1 && body == 2 ^ (e + m) - 1 then .nan
    else if sp == 2 && body == (2 ^ e - 1) * 2 ^ m then .inf neg
    else if sp == 2 && (2 ^ e - 1) * 2 ^ m < body then .nan
    else .fin neg (bodyMag m bias body)

/-- R70: the NaN of a format, and its flag. -/
def nanOf (f : Fmt) : Nat × Fl :=
  match f with
  | .int _ | .e8m0 => (0, .setNv)
  | .flt e m _ sp =>
    if sp == 0 then (0, .setNv)
    else if sp == 1 then (2 ^ (e + m) - 1, .none)
    else ((2 ^ e - 1) * 2 ^ m + 2 ^ (m - 1), .none)

/-- R72: whether the larger neighbour is taken, of a fraction in [0, 1) and the smaller neighbour's parity. -/
def roundsUp (mode : Nat) (r : Nat) (frac : Rat) (odd : Bool) : Bool :=
  if frac == 0 then false
  else match mode with
    | 0 => decide (1 / 2 < frac) || (frac == 1 / 2 && odd)
    | 1 => false
    | 2 => decide ((r : Rat) < frac * 65536)
    | _ => true

/-- The code without sign of a magnitude, the exponent range unbounded above, rounded (R72, R74). Mode 3 is R182's
rounding up. -/
def roundBody (m : Nat) (bias : Int) (mode r : Nat) (mag : Rat) : Nat :=
  if mag == 0 then 0
  else
    let k := max (floorLog2 mag) (1 - bias)
    let q := mag / pow2 (k - m)
    let n := q.floor.toNat
    let body := if n < 2 ^ m then n else (k + bias).toNat * 2 ^ m + (n - 2 ^ m)
    if roundsUp mode r (q - (n : Rat)) (body % 2 == 1) then body + 1 else body

/-- R72: an exact value rounded to an integer. -/
def roundInt (mode r : Nat) (x : Rat) : Int :=
  let mag := if x < 0 then -x else x
  let n := mag.floor.toNat
  let n := if roundsUp mode r (mag - (n : Rat)) (n % 2 == 1) then n + 1 else n
  if x < 0 then -(n : Int) else n

/-- An integer code of width `w`, saturated (R74). -/
def satInt (w : Nat) (v : Int) : Nat × Fl :=
  let hi : Int := (2 ^ (w - 1) : Nat) - 1
  let lo : Int := -(2 ^ (w - 1) : Nat)
  if hi < v then (hi.toNat, .setSat)
  else if v < lo then ((2 : Nat) ^ (w - 1), .setSat)
  else ((v % ((2 ^ w : Nat) : Int)).toNat, .none)

/-- R71 to R74: the code of an exact value in a format, and the flags it sets. -/
def convert (x : FVal) (f : Fmt) (mode : Nat) (sat : Bool) (r : Nat) : Nat × Fl :=
  match f with
  | .int w =>
    match x with
    | .nan => nanOf f
    | .inf neg => (if neg then 2 ^ (w - 1) else 2 ^ (w - 1) - 1, .setSat)
    | .fin _ _ => satInt w (roundInt mode r x.rat)
  | .e8m0 =>
    match x with
    | .nan => (255, .none)
    | .inf _ => (254, .setSat)
    | .fin _ m => (min (max (floorLog2 m + 127) 0) 254 |>.toNat, .none)
  | .flt e m bias sp =>
    let sign := fun (neg : Bool) (body : Nat) => if neg then 2 ^ (e + m) + body else body
    match x with
    | .nan => nanOf f
    | .inf neg =>
      if sp == 2 then (sign neg ((2 ^ e - 1) * 2 ^ m), .none) else (sign neg (maxBody e m sp), .setSat)
    | .fin neg mag =>
      let body := roundBody m bias mode r mag
      if maxBody e m sp < body then
        if sp == 2 && !sat then (sign neg ((2 ^ e - 1) * 2 ^ m), .setOf) else (sign neg (maxBody e m sp), .setSat)
      else (sign neg body, .none)

/-- R75: a conversion into an integer format with scale `s` and zero point `z`. A NaN gives R70's code 0 without `z`
(log 153, DESIGN CHOICE). -/
def convertInt (x : FVal) (w : Nat) (mode r : Nat) (s : Rat) (z : Int) : Nat × Fl :=
  match x with
  | .nan => nanOf (.int w)
  | _ =>
    let y := match x with
      | .fin _ _ => FVal.ofRat (x.rat / s)
      | .inf n => .inf (xor n (decide (s < 0)))
      | .nan => .nan
    let (c, fl) := convert y (.int w) mode true r
    let (q, fl') := satInt w (sext w c + z)
    (q, fl.join fl')

/-! ### FP32 operations on codes -/

/-- An FP32 code with the flags raised to get it. -/
abbrev FR := Word × Fl

/-- The value of an FP32 code. -/
def f32 (c : Word) : FVal := value fmt32 c.toNat

/-- R70: FP32's canonical NaN. -/
def qnan : Word := 0x7FC00000#32

/-- R69, R83: an exact value rounded once to FP32. -/
def fp32 (x : FVal) : FR := let (c, f) := convert x fmt32 0 false 0; (BitVec.ofNat 32 c, f)

/-- R182: a positive exact value rounded up to FP32. -/
def fp32Up (q : Rat) : Word := BitVec.ofNat 32 (convert (.fin false q) fmt32 3 false 0).1

/-- The negated code. -/
def fp32Neg (a : Word) : Word := a ^^^ 0x80000000#32

/-- R69, R71: addition. -/
def fp32Add (a b : Word) : FR :=
  match f32 a, f32 b with
  | .nan, _ | _, .nan => (qnan, .setNanin)
  | .inf s, .inf t => if s == t then (a, .none) else (qnan, .setNv)
  | .inf _, _ => (a, .none)
  | _, .inf _ => (b, .none)
  | .fin s m, .fin t n =>
    let q := (FVal.fin s m).rat + (FVal.fin t n).rat
    if q == 0 then (if s && t && m == 0 && n == 0 then 0x80000000#32 else 0#32, .none)
    else fp32 (.ofRat q)

/-- R69, R71: multiplication. -/
def fp32Mul (a b : Word) : FR :=
  match f32 a, f32 b with
  | .nan, _ | _, .nan => (qnan, .setNanin)
  | .inf s, .inf t => fp32 (.inf (xor s t))
  | .inf s, .fin t n => if n == 0 then (qnan, .setNv) else fp32 (.inf (xor s t))
  | .fin s m, .inf t => if m == 0 then (qnan, .setNv) else fp32 (.inf (xor s t))
  | .fin s m, .fin t n => fp32 (.fin (xor s t) (m * n))

/-- R128: division. -/
def fp32Div (a b : Word) : FR :=
  match f32 a, f32 b with
  | .nan, _ | _, .nan => (qnan, .setNanin)
  | .inf _, .inf _ => (Config.divInvalid a b, if Config.divNv a b then .setNv else .none)
  | .inf s, .fin t _ => fp32 (.inf (xor s t))
  | .fin s _, .inf t => fp32 (.fin (xor s t) 0)
  | .fin s m, .fin t n =>
    if n == 0 then
      if m == 0 then (Config.divInvalid a b, if Config.divNv a b then .setNv else .none) else fp32 (.inf (xor s t))
    else fp32 (.fin (xor s t) (m / n))

/-- The integer square root, from bit `k` down. -/
def isqrtFrom : Nat → Nat → Nat → Nat
  | 0, v, r => if (r + 1) * (r + 1) ≤ v then r + 1 else r
  | k + 1, v, r => isqrtFrom k v (if (r + 2 ^ (k + 1)) * (r + 2 ^ (k + 1)) ≤ v then r + 2 ^ (k + 1) else r)

/-- floor(sqrt v). -/
def isqrt (v : Nat) : Nat := isqrtFrom (Nat.log2 v / 2 + 1) v 0

/-- A rational that rounds to FP32 as sqrt(q) does: the root to 2^-k, and half a unit more when inexact. -/
def rootNear (q : Rat) (k : Nat) : Rat :=
  let t := (q * ((4 ^ k : Nat) : Rat)).floor.toNat
  let r := isqrt t
  if ((r * r : Nat) : Rat) == q * ((4 ^ k : Nat) : Rat) then mkRat r (2 ^ k) else mkRat (2 * r + 1) (2 ^ (k + 1))

/-- R128: square root. -/
def fp32Sqrt (a : Word) : FR :=
  match f32 a with
  | .nan => (qnan, .setNanin)
  | .inf neg => if neg then (qnan, .setNv) else (a, .none)
  | .fin neg m =>
    if m == 0 then (a, .none) else if neg then (qnan, .setNv) else fp32 (.fin false (rootNear m 110))

/-- R128: reciprocal square root. -/
def fp32Rsqrt (a : Word) : FR :=
  match f32 a with
  | .nan => (qnan, .setNanin)
  | .inf neg => if neg then (qnan, .setNv) else (0#32, .none)
  | .fin neg m =>
    if m == 0 then fp32 (.inf neg) else if neg then (qnan, .setNv) else fp32 (.fin false (rootNear (1 / m) 110))

/-- An operation applied to two results, with all flags joined. -/
def lift2 (op : Word → Word → FR) (x y : FR) : FR :=
  let z := op x.1 y.1
  (z.1, (x.2.join y.2).join z.2)

/-- R84: the largest power of two below `n`, doubling from `h`. -/
def splitAt : Nat → Nat → Nat → Nat
  | 0, h, _ => h
  | k + 1, h, n => if h * 2 < n then splitAt k (h * 2) n else h

/-- R84: the canonical tree over at most `fuel` levels. -/
def treeFuel : Nat → List FR → FR
  | 0, u => u.headD (0, .none)
  | k + 1, u =>
    match u with
    | [] => (0, .none)
    | [x] => x
    | _ =>
      let h := splitAt u.length 1 u.length
      lift2 fp32Add (treeFuel k (u.take h)) (treeFuel k (u.drop h))

/-- R84: the tree of fp32_add over results. -/
def treeR (u : List FR) : FR := treeFuel u.length u

/-- R84: the tree of fp32_add over FP32 codes. -/
def tree (u : List Word) : FR := treeR (u.map fun w => (w, .none))

/-- R143: the order of two values, NaN excepted; +0 above −0 when `zeros`. -/
def ltVal (zeroOrder : Bool) (x y : FVal) : Bool :=
  match x, y with
  | .nan, _ | _, .nan => false
  | .inf s, .inf t => s && !t
  | .inf s, .fin _ _ => s
  | .fin _ _, .inf t => !t
  | .fin s m, .fin t n =>
    if m == 0 && n == 0 then zeroOrder && s && !t else decide ((FVal.fin s m).rat < (FVal.fin t n).rat)

/-- R127: the code of an element read, widened exactly to FP32, with the flags of a NaN in a format without FP32's. -/
def widen (f : Fmt) (code : Nat) : Word := (fp32 (value f code)).1

/-- R127: an FP32 code written in a format. -/
def narrowTo (f : Fmt) (mode : Nat) (sat : Bool) (r : Nat) (x : FR) : Nat × Fl :=
  let (c, fl) := convert (f32 x.1) f mode sat r
  (c, x.2.join fl)

/-- |x| < bound, for the biquad checks (R433). -/
def finite32 (c : Word) : Bool :=
  match f32 c with
  | .fin _ _ => true
  | _ => false

/-- Whether an FP32 code is a NaN. -/
def isNan32 (c : Word) : Bool := f32 c == .nan

end Sys2Proof.Machine
end

