-- ==== Sys2Proof/Machine/Tables.lean ====
section
/-!
DEFINITION. The tables 0x01 to 0x08: the checks that TABLE_WRITE applies to an entry (R76, R77, R149, R286, R287, R432 to
R434, R486), and the evaluation of a curve of table 0x02 (R148).
-/
namespace Sys2Proof.Machine

open Sys2Proof

/-- A little-endian FP32 field. -/
def le32 (bs : List Byte) (off : Nat) : Word := BitVec.ofNat 32 (le bs off 4)

/-! ### Table 0x01 -/

/-- R76, R77: an entry that TABLE_WRITE accepts. An unused one (WIDTH 0) is held to its reserved bits only (log 8). -/
def table1EntryOk (e : List Byte) : Bool :=
  let width := (e.getD 0 0).toNat; let ex := (e.getD 1 0).toNat
  let sp := (e.getD 3 0).toNat
  zeroAt e 4 4 && sp < 4 &&
  (width == 0 ||
    (3 ≤ width && width ≤ 8 && 1 ≤ ex && ex ≤ width - 1 && sp != 3 && !(sp == 2 && width - 1 - ex == 0)
      && !(sp != 0 && width == 3 && ex == 1) &&
      (let m := width - 1 - ex
       let bias := sext 8 (e.getD 2 0).toNat
       decide (bodyMag m bias (maxBody ex m sp) ≤ bodyMag 23 127 (maxBody 8 23 2))
         && decide (pow2 (-149) ≤ bodyMag m bias 1))))

/-! ### Table 0x02 -/

/-- R148: a curve entry of table 0x02. -/
structure Curve where
  kind    : Nat
  tailLo  : Nat
  tailHi  : Nat
  inScale : Word
  xLo     : Word
  xHi     : Word
  loValue : Word
  hiValue : Word
  eCoef   : Word
  segs    : List (Word × Word × Word)
deriving DecidableEq, Repr

/-- R147: an entry's fields. -/
def curveOf (e : List Byte) : Curve :=
  { kind := (e.getD 0 0).toNat, tailLo := (e.getD 1 0).toNat, tailHi := (e.getD 2 0).toNat,
    inScale := le32 e 4, xLo := le32 e 8, xHi := le32 e 12, loValue := le32 e 16, hiValue := le32 e 20,
    eCoef := le32 e 24,
    segs := (List.range 64).map fun s => (le32 e (32 + 12 * s), le32 e (36 + 12 * s), le32 e (40 + 12 * s)) }

/-- R149: an entry that TABLE_WRITE accepts, whatever its KIND. -/
def table2EntryOk (e : List Byte) : Bool :=
  let c := curveOf e
  zeroAt e 3 1 && zeroAt e 28 4 && c.kind ≤ 3
    && c.tailLo ≤ 2 && c.tailHi ≤ 2 && finite32 c.inScale && finite32 c.xLo && finite32 c.xHi && finite32 c.eCoef
    && !isNan32 c.loValue && !isNan32 c.hiValue
    && c.segs.all (fun s => finite32 s.1 && finite32 s.2.1 && finite32 s.2.2)
    && ltVal false (f32 c.xLo) (f32 c.xHi)
    && !(c.kind == 3 && !ltVal false (.fin false 0) (f32 c.xLo))

/-- R148: a segment's polynomial. -/
def curvePoly (seg : Word × Word × Word) (t : Word) : FR :=
  lift2 fp32Add (lift2 fp32Mul (lift2 fp32Add (fp32Mul seg.2.2 t) (seg.2.1, .none)) (t, .none)) (seg.1, .none)

/-- A value times 2^n. -/
def scaleVal (x : FVal) (n : Int) : FVal :=
  match x with
  | .fin s m => .fin s (m * pow2 n)
  | x => x

/-- R148: the evaluation inside the domain. -/
def curveInside (c : Curve) (xs : Word) : FR :=
  let x := (f32 xs).rat
  let seg := fun (s : Nat) => nth c.segs s (0, 0, 0)
  match c.kind with
  | 1 =>
    let lo := (f32 c.xLo).rat; let w := (f32 c.xHi).rat - lo
    let s := min ((x - lo) * 64 / w).floor.toNat 63
    let t := fp32 (.ofRat (x - lo - (s : Rat) * w / 64))
    let y := curvePoly (seg s) t.1
    (y.1, t.2.join y.2)
  | 2 =>
    let n := x.floor
    let f := x - (n : Rat)
    let s := (f * 64).floor.toNat
    let t := fp32 (.ofRat (f - (s : Rat) / 64))
    let y := curvePoly (seg s) t.1
    let z := fp32 (scaleVal (f32 y.1) n)
    (z.1, (t.2.join y.2).join z.2)
  | 3 =>
    let e := floorLog2 x
    let m := x / pow2 e
    let s := ((m - 1) * 64).floor.toNat
    let t := fp32 (.ofRat (m - 1 - (s : Rat) / 64))
    let y := curvePoly (seg s) t.1
    let k := fp32 (.ofRat (e : Rat))
    lift2 fp32Add (y.1, t.2.join y.2) (lift2 fp32Mul k (c.eCoef, .none))
  | _ => (Config.curveUnused xs, .none)

/-- R148: curve_eval. A NaN input gives NaN with NANIN and bypasses the tails. -/
def curveEval (c : Curve) (x : Word) : FR :=
  let xs := fp32Mul x c.inScale
  let into := fun (v : Word) => let y := curveInside c v; (y.1, xs.2.join y.2)
  if isNan32 xs.1 then xs
  else if ltVal false (f32 xs.1) (f32 c.xLo) then
    if c.tailLo == 1 then (c.loValue, xs.2) else if c.tailLo == 2 then xs else into c.xLo
  else if ltVal false (f32 c.xHi) (f32 xs.1) then
    if c.tailHi == 1 then (c.hiValue, xs.2) else if c.tailHi == 2 then xs else into c.xHi
  else into xs.1

/-! ### Table 0x03 -/

/-- R27, R432: the domains of class k. -/
def classDomains (k : Nat) : List Nat :=
  let span := fun (lo n : Nat) => (List.range n).map (lo + ·)
  match k with
  | 0 => span 0 68
  | 1 => span 68 16
  | 2 => span 84 16
  | 3 => span 100 6
  | 4 => [106]
  | 5 => span 107 4
  | 6 => [111]
  | 7 => [112]
  | 8 => [113]
  | 9 => span 114 8
  | 10 => span 122 4
  | 11 => [126]
  | 12 => [127]
  | 13 => [128]
  | _ => []

/-- R432: the domains that a step's DOMAIN names, in ascending order. -/
def stepDomains (domain : Nat) : List Nat := if domain < 129 then [domain] else classDomains (domain - 0x1000)

/-- R432: a step's DOMAIN is a domain or a class. -/
def stepDomainOk (domain : Nat) : Bool := domain < 129 || (0x1000 ≤ domain && domain ≤ 0x100D)

/-- R11, R432: the used steps of an entry: DOMAIN, little-endian (log 161, DEDUCED), and ACTION. -/
def powerSteps (e : List Byte) : List (Nat × Nat) :=
  (List.range (e.getD 0 0).toNat).map fun i => (le e (4 + 4 * i) 2, (e.getD (6 + 4 * i) 0).toNat)

/-- R488: the domains with pads. -/
def padDomain (d : Nat) : Bool := (84 ≤ d && d ≤ 110) || d == 112 || d == 126 || d == 128

/-- An entry's steps, one domain each. -/
def flatSteps (e : List Byte) : List (Nat × Nat) :=
  (powerSteps e).flatMap fun s => (stepDomains s.1).map fun d => (d, s.2)

/-- The domains that a list of single steps treats with an action, in order. -/
def domainsOf (steps : List (Nat × Nat)) (action : Nat) : List Nat := (steps.filter fun s => s.2 == action).map (·.1)

/-- R486: every off step of a domain with pads follows a latch step of it, and no release comes before the on step. -/
def padOrder : List (Nat × Nat) → List Nat → Bool
  | [], _ => true
  | (d, a) :: rest, latched =>
    !(a == 0 && padDomain d && !latched.contains d)
      && !(a == 3 && rest.contains (d, 1))
      && padOrder rest (if a == 2 then d :: latched else latched)

/-- The same domains, whatever the order. -/
def sameDomains (a b : List Nat) : Bool := (List.range 129).all fun d => a.contains d == b.contains d

/-- Each domain exactly once. -/
def eachOnce (a : List Nat) : Bool := (List.range 129).all fun d => a.count d == 1

/-- The shape of an entry of table 0x03 (R432). -/
def table3EntryOk (e : List Byte) : Bool :=
  (e.getD 0 0).toNat ≤ 60 && zeroAt e 1 3 && zeroAt e 244 12
    && (powerSteps e).all (fun s => stepDomainOk s.1 && s.2 ≤ 3) && padOrder (flatSteps e) []

/-- R486 for entries 4 and 6: every domain off exactly once, the control domains after every other, PD_128 last. -/
def downOrderOk (e : List Byte) : Bool :=
  let off := domainsOf (flatSteps e) 0
  let late := fun (d : Nat) => (112 ≤ d && d ≤ 125) || d == 127
  let outside := fun (d : Nat) => d < 112
  eachOnce off && off.getLast? == some 128 && !((off.dropWhile fun d => !late d).any outside)

/-- R486 for entry 5: every domain on exactly once, PD_128, PD_127, segments and quadrants before every other. -/
def upOrderOk (e : List Byte) : Bool :=
  let on := domainsOf (flatSteps e) 1
  let first := fun (d : Nat) => d == 128 || d == 127 || (114 ≤ d && d ≤ 125)
  eachOnce on && !((on.dropWhile first).any first)

/-- R486: the seven entries together. -/
def table3Ok (t : List (List Byte)) : Bool :=
  let e := fun (i : Nat) => t.getD i []
  let reed := fun (d : Nat) => 107 ≤ d && d ≤ 111
  let named := fun (i : Nat) => (powerSteps (e i)).all fun s => reed s.1 || s.1 == 0x1005 || s.1 == 0x1006
  let pair := fun (dn up : Nat) =>
    sameDomains (domainsOf (flatSteps (e up)) 1) (domainsOf (flatSteps (e dn)) 0)
      && sameDomains (domainsOf (flatSteps (e up)) 3) (domainsOf (flatSteps (e dn)) 2)
  t.all table3EntryOk && named 0 && named 2
    && [107, 108, 109, 110, 111].all (domainsOf (flatSteps (e 2)) 0).contains
    && pair 0 1 && pair 2 3 && downOrderOk (e 4) && downOrderOk (e 6) && upOrderOk (e 5)

/-! ### Table 0x04 -/

/-- R286: an entry of table 0x04. -/
structure Fallback where
  primary      : Word
  fallback     : Word
  threshold    : Nat
  urgent       : Nat
  mode         : Nat
  hold         : Nat
  primaryDeck  : List Byte
  fallbackDeck : List Byte
deriving DecidableEq, Repr

/-- R286: an entry's fields. -/
def fallbackOf (e : List Byte) : Fallback :=
  { primary := le32 e 0, fallback := le32 e 4, threshold := le e 8 2, urgent := le e 10 2,
    mode := (e.getD 12 0).toNat, hold := (e.getD 13 0).toNat, primaryDeck := slice e 16 16,
    fallbackDeck := slice e 32 16 }

/-- R15, R286, R287: a used entry is in range, and the reserved bytes of every entry are zero. -/
def table4EntryOk (e : List Byte) : Bool :=
  let f := fallbackOf e
  zeroAt e 14 2 && (f.primary == 0 ||
    (f.fallback != 0 && f.fallback != f.primary && 1 ≤ f.threshold && f.threshold ≤ 8191
      && (f.urgent == 0 || f.urgent < f.threshold) && f.mode ≤ 1
      && (zeroAt e 16 16 == zeroAt e 32 16)))

/-- The used entries of table 0x04. -/
def usedFallbacks (t : List (List Byte)) : List Fallback := (t.map fallbackOf).filter fun f => f.primary != 0

/-- R286: the entry that applies to a program, with its index. -/
def fallbackFor (t : List (List Byte)) (program : Word) : Option (Nat × Fallback) :=
  ((t.map fallbackOf).zipIdx.find? fun p => p.1.primary != 0 && p.1.primary == program).map fun p => (p.2, p.1)

/-- R287: whether following fallbacks from a program for `n` steps still goes on. -/
def chainRuns (us : List Fallback) : Nat → Word → Bool
  | 0, _ => true
  | n + 1, p =>
    match us.find? fun f => f.primary == p with
    | none => false
    | some f => chainRuns us n f.fallback

/-- R287: the table after a write. -/
def table4Ok (t : List (List Byte)) : Bool :=
  let us := usedFallbacks t
  t.all table4EntryOk && us.all (fun f => us.countP (fun g => g.primary == f.primary) == 1)
    && us.all fun f => !chainRuns us (us.length + 1) f.primary

/-! ### Tables 0x05 and 0x06 -/

/-- R433: an entry of table 0x05: the sections that it uses, and its gain. -/
structure Biquad where
  b0 : Word
  b1 : Word
  b2 : Word
  a1 : Word
  a2 : Word
deriving DecidableEq, Repr

/-- R433: section k of an entry. -/
def biquadOf (e : List Byte) (k : Nat) : Biquad :=
  let o := 8 + 20 * k
  ⟨le32 e o, le32 e (o + 4), le32 e (o + 8), le32 e (o + 12), le32 e (o + 16)⟩

/-- R433: the used sections of an entry. -/
def biquadsOf (e : List Byte) : List Biquad := (List.range (e.getD 1 0).toNat).map (biquadOf e)

/-- |q|. -/
def absRat (q : Rat) : Rat := if q < 0 then -q else q

/-- R433: a used section is finite and stable. -/
def biquadOk (b : Biquad) : Bool :=
  finite32 b.b0 && finite32 b.b1 && finite32 b.b2 && finite32 b.a1 && finite32 b.a2
    && decide (absRat (f32 b.a2).rat < 1) && decide (absRat (f32 b.a1).rat < 1 + (f32 b.a2).rat)

/-- R433: an entry that TABLE_WRITE accepts: every field of a used entry is finite, used sections are stable. -/
def table5EntryOk (e : List Byte) : Bool :=
  (e.getD 0 0).toNat ≤ 1 && (e.getD 1 0).toNat ≤ 8 && zeroAt e 2 2 && zeroAt e 168 8 &&
    ((e.getD 0 0) == 0 ||
      (finite32 (le32 e 4) && (biquadsOf e).all biquadOk
        && (List.range 40).all fun i => finite32 (le32 e (8 + 4 * i))))

/-- R434: an entry that TABLE_WRITE accepts. -/
def table6EntryOk (e : List Byte) : Bool := (e.getD 24 0).toNat ≤ 1 && zeroAt e 25 7

/-- R411: a channel-status entry is used when it is not all zero. -/
def table6Used (e : List Byte) : Bool := !(e.all (· == 0))

/-! ### All tables -/

/-- R431: entries and entry size of a table of the settings image. -/
def tableShape (t : Nat) : Option (Nat × Nat) :=
  match t with
  | 1 => some (4, 8)
  | 2 => some (64, 800)
  | 3 => some (7, 256)
  | 4 => some (64, 48)
  | 5 => some (32, 176)
  | 6 => some (16, 32)
  | _ => none

/-- The live contents of a table of the settings image. -/
def Retained.table (r : Retained) (t : Nat) : List (List Byte) :=
  match t with
  | 1 => r.table1
  | 2 => r.table2
  | 3 => r.table3
  | 4 => r.table4
  | 5 => r.table5
  | 6 => r.table6
  | _ => []

/-- A retained record with a table's contents replaced. -/
def Retained.setTable (r : Retained) (t : Nat) (c : List (List Byte)) : Retained :=
  match t with
  | 1 => { r with table1 := c }
  | 2 => { r with table2 := c }
  | 3 => { r with table3 := c }
  | 4 => { r with table4 := c }
  | 5 => { r with table5 := c }
  | 6 => { r with table6 := c }
  | _ => r

/-- R149, R569: an entry of a table 0x02 that the settings image holds: one that TABLE_WRITE accepts, or the factory content of
an unused entry, all zero (log 8). -/
def table2ImageOk (e : List Byte) : Bool := table2EntryOk e || e.all (· == 0)

/-- R569: whether a table's contents in a settings image pass its own checks. -/
def tableOk (t : Nat) (c : List (List Byte)) : Bool :=
  match t with
  | 1 => c.all table1EntryOk
  | 2 => c.all table2ImageOk
  | 3 => table3Ok c
  | 4 => table4Ok c
  | 5 => c.all table5EntryOk
  | 6 => c.all table6EntryOk
  | _ => false

/-- R430: whether a write passes its table's checks: each entry written, and for tables 0x03 and 0x04, whose entries are held
together (R287, R486), the contents `c` after it. -/
def tableWriteOk (t : Nat) (written c : List (List Byte)) : Bool :=
  match t with
  | 1 => written.all table1EntryOk
  | 2 => written.all table2EntryOk
  | 3 => table3Ok c
  | 4 => table4Ok c
  | 5 => written.all table5EntryOk
  | 6 => written.all table6EntryOk
  | _ => false

/-- R11, R436: table 0x08. -/
def table8 : List (List Byte) :=
  (List.range 143).map fun i =>
    leBytes 2 (Factory.gridMv i) ++ leBytes 2 ((Factory.tempAxis.getD (i % 11) 0) % 65536).toNat
      ++ leBytes 4 (Factory.gridPace i)

/-- R569, R570: the items of the settings image with their lengths. -/
def imageItems : List (Nat × Nat) :=
  [(0x0001, 8), (0x0002, 8), (0x0003, 64), (0x0004, 8), (0x0005, 1024)]
    ++ (List.range 32).map (fun i => (0x0010 + i, 8))
    ++ [(0x0030, 8), (0x0031, 2), (0x0101, 32), (0x0102, 51200), (0x0103, 1792), (0x0104, 3072), (0x0105, 5632),
        (0x0106, 512)]

/-- R11, R435, R490: table 0x07: the items of the settings image, then those that the device keeps for itself. The manual
gives neither the offsets nor the device's own items (log 9). -/
def table7 : List (List Byte) :=
  imageItems.map (fun it =>
    leBytes 4 it.1 ++ leBytes 4 (Config.retentionOffset it.1).toNat ++ leBytes 4 it.2 ++ leBytes 4 1)
  ++ (Config.retentionOwn.take 211).map fun it =>
    leBytes 4 it.1.toNat ++ leBytes 4 it.2.1.toNat ++ leBytes 4 it.2.2.toNat ++ leBytes 4 2

end Sys2Proof.Machine
end

