-- ==== Sys2Proof/Machine/Operands.lean ====
section
/-!
DEFINITION. The operands of cards: fields (R94), line references and extents (R97, R98, R124), tensors in scratch (R122,
R123), costs in waves (R101, R106, R112, R126, R132, R140, R141, R160, R171, R178, R195, R236, R239, R318), Grain draws
(R229 to R231).
-/
namespace Sys2Proof.Machine

open Sys2Proof

/-! ### Fields -/

/-- R94: OPCODE. -/
def opOf (c : Card) : Nat := fld c 127 120

/-- R94: BOBBIN. -/
def bobbinOf (c : Card) : Nat := fld c 119 116

/-- R94: SIG. -/
def sigOf (c : Card) : Bool := c.getLsbD 113

/-- R94: SAT. -/
def satOf (c : Card) : Bool := c.getLsbD 112

/-- R134: K of an MMA or MMA_G. -/
def mmaK (c : Card) : Nat := (fld c 43 35 + 1) * 32

/-- R134: N of an MMA or MMA_G. -/
def mmaN (c : Card) : Nat := (fld c 34 27 + 1) * 16

/-- R134: M of an MMA or MMA_G. -/
def mmaM (c : Card) : Nat := fld c 51 44 + 1

/-- R80, R134: G of a GSIZE code. -/
def groupOf (gsize : Nat) : Nat := 32 * 2 ^ gsize

/-- The rounding mode that a card's ROUND field names, where the card has one. -/
def roundOf (c : Card) : Nat :=
  match opOf c with
  | 0x03 | 0x04 => fld c 4 3
  | 0x10 | 0x11 => fld c 14 13
  | 0x18 => fld c 7 6
  | 0x19 => fld c 31 30
  | 0x1A => fld c 34 33
  | 0x1B => fld c 10 9
  | 0x20 => fld c 3 2
  | 0x31 => fld c 47 46
  | 0x32 => fld c 19 18
  | 0x38 => fld c 58 57
  | _ => 0

/-! ### Tensors -/

/-- R122: bits of an element's container; 8 for a format that table 0x01 does not declare. -/
def containerOf (t1 : List (List Byte)) (f : Nat) : Nat := (fmtOf t1 f).elim 8 Fmt.container

/-- R122: lines of a row. -/
def rowLines (t1 : List (List Byte)) (f len : Nat) : Nat := ceilDiv (len * containerOf t1 f) 512

/-- Lines of a packed vector of FP32 values. -/
def lines32 (n : Nat) : Nat := ceilDiv (n * 32) 512

/-- R89: 0, 1 or 2 for an operand of 4, 8 or 16 bits. -/
def widthClass (t1 : List (List Byte)) (f : Nat) : Nat :=
  let w := (fmtOf t1 f).elim 8 Fmt.width
  if w ≤ 4 then 0 else if w ≤ 8 then 1 else 2

/-- R89: the operand class: 0 is 4 × 4, 1 is 8 × 4, 2 is 8 × 8, 3 is 16. -/
def operandClass (t1 : List (List Byte)) (fa fw : Nat) : Nat :=
  let a := widthClass t1 fa; let w := widthClass t1 fw
  if a == 2 || w == 2 then 3 else a + w

/-- R133: Kt and Nt of a class. -/
def tileShape (cls : Nat) : Nat × Nat :=
  match cls with
  | 0 => (256, 256)
  | 1 => (128, 256)
  | 2 => (128, 128)
  | _ => (64, 64)

/-- R197: Kt and Nt of a class on a Shuttle. -/
def shuttleTile (cls : Nat) : Nat × Nat :=
  match cls with
  | 0 => (32, 32)
  | 1 => (16, 32)
  | 2 => (16, 16)
  | _ => (8, 8)

/-- R135: tiles of a product. -/
def tilesOf (shape : Nat × Nat) (k n : Nat) : Nat := ceilDiv k shape.1 * ceilDiv n shape.2

/-- R135: lines of a tile. -/
def tileLines (t1 : List (List Byte)) (shape : Nat × Nat) (fw : Nat) : Nat := shape.1 * rowLines t1 fw shape.2

/-- R137: lines of a quant record. -/
def quantLines (aq : Nat) (zp : Bool) (m : Nat) : Nat :=
  match aq with
  | 1 => 1
  | 2 => lines32 m + (if zp then ceilDiv m 64 else 0)
  | _ => 0

/-! ### References and extents -/

/-- A reference of a card: the space, the line reference, lines past it, the number of lines, and whether they are
written. -/
structure Ref where
  stripe : Bool
  ref    : Nat
  disp   : Nat
  lines  : Nat
  write  : Bool
deriving DecidableEq, Repr

/-- A scratch range that a card reads. -/
def rd (ref lines : Nat) : Ref := ⟨false, ref, 0, lines, false⟩

/-- A scratch range that a card writes. -/
def wr (ref lines : Nat) : Ref := ⟨false, ref, 0, lines, true⟩

/-- R98: the references of a card, as far as its own fields give their extents. -/
def cardRefs (t1 : List (List Byte)) (c : Card) : List Ref :=
  let rl := rowLines t1
  match opOf c with
  | 0x01 | 0x03 => [⟨c.getLsbD 91, fld c 111 92, 0, (fld c 50 39 + 1) * (fld c 38 27 + 1), true⟩]
  | 0x02 | 0x04 => [⟨c.getLsbD 91, fld c 111 92, 0, (fld c 50 39 + 1) * (fld c 38 27 + 1), false⟩]
  | 0x05 =>
    if 2 ≤ fld c 91 90 then []
    else [⟨fld c 91 90 == 1, fld c 111 92, 0, (fld c 36 25 + 1) * (fld c 24 13 + 1), c.getLsbD 89⟩]
  | 0x10 | 0x11 =>
    let m := mmaM c; let k := mmaK c; let n := mmaN c
    let shape := tileShape (operandClass t1 (fld c 26 23) (fld c 22 19))
    let scales := if opOf c == 0x11 then ceilDiv k (groupOf (fld c 10 9)) * rl (if c.getLsbD 8 then 5 else 0xC) n else 0
    [rd (fld c 111 92) (m * rl (fld c 26 23) k + quantLines (fld c 7 6) (c.getLsbD 5) m),
     rd (fld c 91 72) (tilesOf shape k n * tileLines t1 shape (fld c 22 19) + scales),
     wr (fld c 71 52) (m * rl (fld c 18 15) n)]
    ++ (if c.getLsbD 12 then [rd (fld c 4 1 * 65536) (m * rl (fld c 18 15) n)] else [])
  | 0x18 =>
    let rows := fld c 51 40 + 1; let len := fld c 39 26 + 1; let op := fld c 25 20
    let b := match fld c 5 4 with
      | 0 => rows * rl (fld c 15 12) len
      | 1 => 1
      | 2 => rl (fld c 15 12) rows
      | _ => rl (fld c 15 12) len
    [rd (fld c 111 92) (rows * rl (fld c 19 16) len), wr (fld c 71 52) (rows * rl (fld c 11 8) len)]
    ++ (if 6 ≤ op && op ≤ 9 then [] else [rd (fld c 91 72) b])
  | 0x19 =>
    let rows := fld c 71 60 + 1; let len := fld c 59 46 + 1
    [rd (fld c 111 92) (rows * rl (fld c 39 36) len), wr (fld c 91 72) (rows * rl (fld c 35 32) len)]
  | 0x1A =>
    let rows := fld c 71 60 + 1; let len := fld c 59 46 + 1
    [rd (fld c 111 92) (rows * rl (fld c 42 39) len), wr (fld c 91 72) (rl (fld c 38 35) rows)]
  | 0x1B =>
    let rows := fld c 51 40 + 1; let len := fld c 39 26 + 1
    [rd (fld c 111 92) (rows * rl (fld c 22 19) len), wr (fld c 71 52) (rows * rl (fld c 14 11) len)]
    ++ (if fld c 24 23 == 0 then [] else [rd (fld c 91 72) (fld c 24 23 * rl (fld c 18 15) len)])
  | 0x20 =>
    let ch := fld c 31 22 + 1; let len := fld c 21 12 + 1; let hl := lines32 ch
    [rd (fld c 111 92) (len * rl (fld c 11 8) ch), rd (fld c 71 52) hl, ⟨false, fld c 71 52, hl, hl, true⟩,
     rd (fld c 51 32) 1]
    ++ (if c.getLsbD 1 then [] else [wr (fld c 91 72) (len * rl (fld c 7 4) ch)])
  | 0x28 =>
    let shape := tileShape (fld c 2 1); let n := (fld c 10 3 + 1) * 16
    let wl := shape.1 * ceilDiv (shape.2 * (if fld c 2 1 ≤ 1 then 4 else if fld c 2 1 == 2 then 8 else 4)) 512
    [rd (fld c 111 92) 1, rd (fld c 91 72) (tilesOf shape ((fld c 19 11 + 1) * 32) n * wl),
     wr (fld c 71 52) ((fld c 31 20 + 1) * ceilDiv (n * 4) 512), rd (fld c 51 32) 1]
  | 0x30 =>
    let ch := fld c 79 68 + 1
    [rd (fld c 111 92) ((fld c 91 80 + 1) * rl (fld c 67 64) ch)]
    ++ (if c.getLsbD 27 then [wr (fld c 47 28) (2 * lines32 ch)] else [])
  | 0x31 =>
    let ch := fld c 79 68 + 1
    [rd (fld c 111 92) ((fld c 91 80 + 1) * rl (fld c 67 64) ch)]
    ++ (if c.getLsbD 24 then [wr (fld c 44 25) (lines32 ch + 1)] else [])
  | 0x32 =>
    let rows := fld c 51 40 + 1; let ch := fld c 39 28 + 1
    [rd (fld c 111 92) (rows * rl (fld c 27 24) ch), rd (fld c 91 72) (ceilDiv (16 + 8 * ch + ceilDiv ch 8) 64),
     wr (fld c 71 52) (rows * rl (fld c 23 20) ch)]
  | 0x38 =>
    if fld c 65 63 == 0 then [rd (fld c 111 92) 1]
    else [wr (fld c 111 92) ((fld c 91 80 + 1) * rl (fld c 62 59) (fld c 79 66 + 1))]
  | 0x39 =>
    let rows := fld c 51 44 + 1
    [rd (fld c 111 92) (rows * rl (fld c 25 22) (fld c 43 26 + 1)), rd (fld c 91 72) (ceilDiv rows 2),
     wr (fld c 71 52) (lines32 rows)]
  | _ => []

/-- R98: the effective line of a reference: the index register's 64-bit value plus the offset. -/
def lineOf (ix : List DWord) (ref : Nat) : Nat :=
  ((if ref / 65536 == 0 then 0 else (nth ix (ref / 65536) 0).toNat) + ref % 65536) % 2 ^ 64

/-- Lines in use by a card: space, first line, count, written. -/
structure Extent where
  stripe : Bool
  line   : Nat
  lines  : Nat
  write  : Bool
deriving DecidableEq, Repr

/-- The extent of a reference under index registers. -/
def Ref.extent (ix : List DWord) (r : Ref) : Extent := ⟨r.stripe, lineOf ix r.ref + r.disp, r.lines, r.write⟩

/-- R97: whether an extent lies within `ways` scratch ways and `units` stripe-buffer units. -/
def Extent.inside (ways units : Nat) (e : Extent) : Bool :=
  e.lines == 0 || decide (e.line + e.lines ≤ if e.stripe then 256 * units else 4096 * ways)

/-- Whether two extents share a line. -/
def Extent.meets (a b : Extent) : Bool :=
  a.lines != 0 && b.lines != 0 && a.stripe == b.stripe && decide (a.line < b.line + b.lines)
    && decide (b.line < a.line + a.lines)

/-- R124: no line written overlaps a line read. -/
def noOverlap (es : List Extent) : Bool :=
  es.all fun w => !w.write || es.all fun r => r.write || !w.meets r

/-! ### Costs -/

/-- R141: P. -/
def passesOf (n h : Nat) : Nat := ceilDiv n (32 * h)

/-- R263, R264: the minimum efficient size of the target of a device address. -/
def minSize (addr : Nat) : Nat :=
  if addr < 0x03000000000 || (0x03000000000 ≤ addr && addr < 0x03001400000) then 2048 else 8192

/-- R132, R178: waves of a transfer: rows, bytes of a row in memory, codec lines of a row, and the address of each row. -/
def transferWaves (rows rowBytes codec : Nat) (addr : Nat → Nat) : Nat :=
  4 + ((List.range rows).map fun r => ceilDiv (max rowBytes (minSize (addr r))) 416 + ceilDiv codec 8).foldl (· + ·) 0

/-- R173: bytes in memory of a row of a transfer card. -/
def memRowBytes (c : Card) : Nat :=
  let l := fld c 38 27 + 1
  match opOf c with
  | 0x03 | 0x04 => if c.getLsbD 6 then 16 * l else 32 * l
  | _ => 64 * l

/-- R130: device address of row r, from the value of the index register that AIX names. -/
def rowAddr (c : Card) (aix : Nat) (r : Nat) : Nat := 64 * ((aix + fld c 86 51 + r * fld c 26 7) % 2 ^ 64)

/-- R132, R178: waves of LOAD, STORE, LOAD_C or STORE_C with `aix` in the index register it names. -/
def xferWaves (c : Card) (aix : Nat) : Nat :=
  let codec := if opOf c == 3 || opOf c == 4 then fld c 38 27 + 1 else 0
  transferWaves (fld c 50 39 + 1) (memRowBytes c) codec (rowAddr c aix)

/-- R318: waves of a PEER of a block of B bytes. -/
def peerWaves (bytes : Nat) : Nat := 16 + ceilDiv (max bytes 4096) 416

/-- R171: waves of a CONV. -/
def convWaves (c : Card) : Nat :=
  let shape := tileShape (fld c 2 1)
  let kb := fld c 19 11 + 1
  32 + ceilDiv (kb * 32) shape.1 * ceilDiv ((fld c 10 3 + 1) * 16) shape.2 * max (fld c 31 20 + 1) 16
    + (if c.getLsbD 0 then 640 else 0)

/-- R108: waves of the steps 3 and 4 of a knot. -/
def knotWaves (liveBytes : Nat) : Nat := 256 + ceilDiv liveBytes 416 + 4

/-- The waves of a card other than a KNOT, on a Loom with h healthy lane groups. A transfer is charged for the target of
`aix`. -/
def cardWaves (t1 : List (List Byte)) (h aix : Nat) (c : Card) : Nat :=
  match opOf c with
  | 0x01 | 0x02 | 0x03 | 0x04 => xferWaves c aix
  | 0x05 => peerWaves ((fld c 36 25 + 1) * (fld c 24 13 + 1) * 64)
  | 0x08 | 0x09 => 2
  | 0x0B | 0x0C | 0x3F => 1
  | 0x10 | 0x11 =>
    24 + tilesOf (tileShape (operandClass t1 (fld c 26 23) (fld c 22 19))) (mmaK c) (mmaN c) * max (mmaM c) 16
  | 0x18 =>
    let p := passesOf ((fld c 51 40 + 1) * (fld c 39 26 + 1)) h
    if fld c 25 20 == 3 || fld c 25 20 == 9 then 8 + 4 * p else 8 + p
  | 0x19 => 8 + 2 * passesOf ((fld c 71 60 + 1) * (fld c 59 46 + 1)) h
  | 0x1A => 12 + passesOf ((fld c 71 60 + 1) * (fld c 59 46 + 1)) h + (fld c 71 60 + 1)
  | 0x1B => 16 + 3 * passesOf ((fld c 51 40 + 1) * (fld c 39 26 + 1)) h + 2 * (fld c 51 40 + 1)
  | 0x20 => 24 + 2 * ceilDiv (fld c 31 22 + 1) 64 * ceilDiv (fld c 21 12 + 1) 16
  | 0x28 => convWaves c
  | 0x30 => 16 + ceilDiv ((fld c 91 80 + 1) * rowLines t1 (fld c 67 64) (fld c 79 68 + 1) * 64) 96
  | 0x31 =>
    let b := ceilDiv ((fld c 91 80 + 1) * rowLines t1 (fld c 67 64) (fld c 79 68 + 1) * 64) 96
    24 + b + (if c.getLsbD 45 then b else 0)
  | 0x32 => 8 + 2 * passesOf ((fld c 51 40 + 1) * (fld c 39 28 + 1)) h + ceilDiv (fld c 39 28 + 1) 64
  | 0x38 => if fld c 65 63 == 0 then 40 else 8 + 2 * passesOf ((fld c 91 80 + 1) * (fld c 79 66 + 1)) h
  | 0x39 => 16 + 8 * passesOf ((fld c 51 44 + 1) * (fld c 43 26 + 1)) h + 4 * (fld c 51 44 + 1)
  | _ => 0

/-! ### Grain draws (R229 to R231) -/

/-- R229: a Grain block of 16 words. -/
def grainBlock (key : List Byte) (stream step site b : Nat) : List Word :=
  Crypto.chachaBlock
    ([0x61707865#32, 0x3320646E#32, 0x79622D32#32, 0x6B206574#32]
      ++ ((List.range 8).map fun i => BitVec.ofNat 32 (le key (4 * i) 4))
      ++ [BitVec.ofNat 32 b, BitVec.ofNat 32 stream, BitVec.ofNat 32 step,
          BitVec.ofNat 32 (site * 2 ^ 16 + step / 2 ^ 32 % 2 ^ 16)])

/-- R230: draw16. -/
def draw16 (key : List Byte) (stream step site i : Nat) : Nat :=
  let w := (nth (grainBlock key stream step site (i % 2 ^ 32 / 32)) (i % 32 / 2) 0).toNat
  if i % 2 == 0 then w % 65536 else w / 65536

/-- R230: draw32. -/
def draw32 (key : List Byte) (stream step site i : Nat) : Nat :=
  (nth (grainBlock key stream step site (i % 2 ^ 32 / 16)) (i % 16) 0).toNat

/-- R73: the draw r of a conversion: 0 unless it rounds stochastically. -/
def srDraw (mode : Nat) (key : List Byte) (stream step site i : Nat) : Nat :=
  if mode == 2 then draw16 key stream step site i else 0

/-! ### Reading and writing tensors -/

/-- Byte `b` of a line. -/
def lineByte (m : Mem) (line b : Nat) : Nat := (m.get (64 * line + b)).toNat

/-- R66, R122: the code of element j of a row that starts at a line, in containers of c bits. -/
def codeAt (m : Mem) (line c j : Nat) : Nat :=
  let b := lineByte m line
  match c with
  | 4 => if j % 2 == 0 then b (j / 2) % 16 else b (j / 2) / 16
  | 8 => b j
  | 16 => b (2 * j) + 256 * b (2 * j + 1)
  | _ => b (4 * j) + 256 * b (4 * j + 1) + 65536 * b (4 * j + 2) + 16777216 * b (4 * j + 3)

/-- The 32-bit element j of a packed vector of FP32 values. -/
def word32At (m : Mem) (line j : Nat) : Word := BitVec.ofNat 32 (codeAt m line 32 j)

/-- R66: the bytes of packed codes. -/
def packCodes (c : Nat) (codes : List Nat) : List Byte :=
  match c with
  | 4 => (List.range (ceilDiv codes.length 2)).map fun i =>
      BitVec.ofNat 8 (codes.getD (2 * i) 0 % 16 + 16 * (codes.getD (2 * i + 1) 0 % 16))
  | 8 => codes.map (BitVec.ofNat 8)
  | 16 => codes.flatMap (leBytes 2)
  | _ => codes.flatMap (leBytes 4)

/-- R122: a row written in whole lines, zero after its last element. -/
def packRow (c : Nat) (codes : List Nat) : List Byte :=
  padTo (64 * ceilDiv (codes.length * c) 512) (packCodes c codes)

/-- A format by its code; FP32 for one that is not declared. -/
def fmtAt (t1 : List (List Byte)) (f : Nat) : Fmt := (fmtOf t1 f).getD fmt32

/-- R127: element j of row r of a tensor, as FP32. -/
def elemAt (t1 : List (List Byte)) (m : Mem) (line f len r j : Nat) : Word :=
  widen (fmtAt t1 f) (codeAt m (line + r * rowLines t1 f len) (containerOf t1 f) j)

/-- The elements of a row of a tensor, as FP32. -/
def rowAt (t1 : List (List Byte)) (m : Mem) (line f len r : Nat) : List Word :=
  (List.range len).map (elemAt t1 m line f len r)

/-! ### The result of an execute card -/

/-- What an execute card gives: the scratch, the stripe buffer, the ARITH_FLAGS word. -/
structure CardOut where
  scratch : Mem
  stripe  : Mem
  flags   : Word

/-- What a card's own part reads: the live tables 0x01 and 0x02, the index registers, the generator key and step. -/
structure CardIn where
  t1   : List (List Byte)
  t2   : List (List Byte)
  ix   : List DWord
  key  : List Byte
  step : Nat
  ways : Nat
  units : Nat
  out  : CardOut

/-- R127, R138: rows of results written in a format, element (r, j) drawing under its index. -/
def CardIn.writeRows (i : CardIn) (line fd mode : Nat) (sat : Bool) (rows : List (List FR)) : CardOut :=
  let len := (rows.headD []).length
  let f := fmtAt i.t1 fd
  let done := rows.zipIdx.map fun (row, r) =>
    row.zipIdx.map fun (x, j) => narrowTo f mode sat (srDraw mode i.key 0 i.step 0 (r * len + j)) x
  let bytes := done.flatMap fun row => packRow f.container (row.map (·.1))
  { i.out with
    scratch := i.out.scratch.write (64 * line) bytes,
    flags := raiseAll i.out.flags (done.flatMap fun row => row.map (·.2)) }

end Sys2Proof.Machine
end

