-- ==== Sys2Proof/Machine/Heddle.lean ====
section
/-!
DEFINITION. The heddle array: mma_g_element (R83), MMA and MMA_G (R133 to R138), CONV (R162 to R170).
-/
namespace Sys2Proof.Machine

open Sys2Proof

/-! ### One output element (R83) -/

/-- A running exact sum of products: flags raised, whether a NaN entered, whether an infinity of either sign did, and
the finite part. -/
structure Acc where
  fl  : Fl
  nan : Bool
  pos : Bool
  neg : Bool
  sum : Rat

/-- R71, R83: one exact product added. -/
def Acc.addProduct (s : Acc) (x y : FVal) : Acc :=
  match x, y with
  | .nan, _ | _, .nan => { s with nan := true, fl := s.fl.join .setNanin }
  | .fin a m, .fin b n => { s with sum := s.sum + (FVal.fin (xor a b) (m * n)).rat }
  | .inf a, .inf b => if xor a b then { s with neg := true } else { s with pos := true }
  | .inf a, .fin b m | .fin b m, .inf a =>
    if m == 0 then { s with nan := true, fl := s.fl.join .setNv }
    else if xor a b then { s with neg := true } else { s with pos := true }

/-- R69, R71: the sum as a value; infinities of opposite signs give NaN with NV, an exact zero is +0. A NaN beside infinities
of both signs sets NV too, whatever the order of the products (log 150, DESIGN CHOICE). -/
def Acc.value (s : Acc) : FVal × Fl :=
  if s.nan then (.nan, if s.pos && s.neg then s.fl.join .setNv else s.fl)
  else if s.pos && s.neg then (.nan, s.fl.join .setNv)
  else if s.pos then (.inf false, s.fl)
  else if s.neg then (.inf true, s.fl)
  else (.ofRat s.sum, s.fl)

/-- R83: fp32(p) of a group of operand pairs. -/
def groupSum (ps : List (FVal × FVal)) : FR :=
  let start : Acc := ⟨.none, false, false, false, 0⟩
  let (v, fl) := Acc.value (ps.foldl (fun (a : Acc) p => a.addProduct p.1 p.2) start)
  let (w, fl') := fp32 v
  (w, fl.join fl')

/-- The pairs of a reduction cut into groups. -/
def groupsOf {α : Type} (g : Nat) : Nat → List α → List (List α)
  | 0, _ => []
  | n + 1, l => l.take g :: groupsOf g n (l.drop g)

/-- R83: mma_g_element over (value − zero point, weight value) pairs, one scale per group, the order, the activation
scale, and the addend. -/
def mmaElement (g : Nat) (sequential : Bool) (pairs : List (FVal × FVal)) (scale : Nat → Word) (sa : Word)
    (c : Option Word) : FR :=
  let u := (groupsOf g (ceilDiv pairs.length g) pairs).zipIdx.map fun (ps, i) =>
    lift2 fp32Mul (groupSum ps) (scale i, .none)
  let acc := if sequential then u.tail.foldl (lift2 fp32Add) (u.headD (0, .none)) else treeR u
  let out := lift2 fp32Mul acc (sa, .none)
  match c with
  | none => out
  | some c => lift2 fp32Add (c, .none) out

/-- R81, R83: the value of an activation code less its zero point. -/
def actValue (f : Fmt) (za : Int) (code : Nat) : FVal :=
  match value f code with
  | .fin s m => if za == 0 then .fin s m else .ofRat ((FVal.fin s m).rat - za)
  | v => v

/-- R135: the code of weight (k, n). -/
def weightAt (t1 : List (List Byte)) (m : Mem) (line : Nat) (shape : Nat × Nat) (fw kLen : Nat) (k n : Nat) : Nat :=
  let tile := n / shape.2 * ceilDiv kLen shape.1 + k / shape.1
  codeAt m (line + tile * tileLines t1 shape fw + k % shape.1 * rowLines t1 fw shape.2) (containerOf t1 fw) (n % shape.2)

/-- FP32 1.0. -/
def one32 : Word := 0x3F800000#32

/-! ### MMA and MMA_G -/

/-- R137: the zero point of row r. -/
def zeroPoint (m : Mem) (line aq : Nat) (zp : Bool) (rows r : Nat) : Int :=
  if !zp then 0
  else if aq == 1 then sext 8 (lineByte m line 4)
  else sext 8 (lineByte m (line + lines32 rows) r)

/-- R137: a zero point lies in the code range of its format. -/
def zeroPointOk (f : Nat) (z : Int) : Bool := if f == 0 then -8 ≤ z && z ≤ 7 else -128 ≤ z && z ≤ 127

/-- R137: the activation scale of row r. -/
def actScale (m : Mem) (line aq r : Nat) : Word :=
  match aq with
  | 1 => word32At m line 0
  | 2 => word32At m line r
  | _ => one32

/-- R138: MMA and MMA_G; a zero point out of range stops the context. -/
def runMma (grouped : Bool) (c : Card) (i : CardIn) : Except Status CardOut :=
  let t1 := i.t1; let mem := i.out.scratch
  let m := mmaM c; let k := mmaK c; let n := mmaN c
  let fa := fld c 26 23; let fw := fld c 22 19; let fd := fld c 18 15
  let aLine := lineOf i.ix (fld c 111 92); let wLine := lineOf i.ix (fld c 91 72); let dLine := lineOf i.ix (fld c 71 52)
  let aq := fld c 7 6; let zp := c.getLsbD 5
  let shape := tileShape (operandClass t1 fa fw)
  let quant := aLine + m * rowLines t1 fa k
  let g := if grouped then groupOf (fld c 10 9) else 32
  let sf := if c.getLsbD 8 then 5 else 0xC
  let sLine := wLine + tilesOf shape k n * tileLines t1 shape fw
  let za := fun (r : Nat) => zeroPoint mem quant aq zp m r
  let cLine := lineOf i.ix (fld c 4 1 * 65536)
  if !((List.range m).all fun r => zeroPointOk fa (za r)) then .error .badParam
  else
    let aF := fmtAt t1 fa; let wF := fmtAt t1 fw
    let rows := (List.range m).map fun r =>
      (List.range n).map fun col =>
        let pairs := (List.range k).map fun kk =>
          (actValue aF (za r) (codeAt mem (aLine + r * rowLines t1 fa k) (containerOf t1 fa) kk),
           value wF (weightAt t1 mem wLine shape fw k kk col))
        let scale := fun (gi : Nat) => if grouped then elemAt t1 mem sLine sf n gi col else one32
        let addend := if c.getLsbD 12 then some (elemAt t1 mem cLine fd n r col) else none
        mmaElement g (c.getLsbD 11) pairs scale (actScale mem quant aq r) addend
    .ok (i.writeRows dLine fd (roundOf c) (satOf c) rows)

/-! ### CONV -/

/-- R164: a descriptor. -/
structure ConvDesc where
  fx : Nat
  fw : Nat
  fd : Nat
  round : Nat
  padMode : Nat
  flags : Nat
  gsize : Nat
  za : Nat
  padCode : Nat
  cin : Nat
  in0 : Nat
  in1 : Nat
  k0 : Nat
  k1 : Nat
  s0 : Nat
  s1 : Nat
  d0 : Nat
  d1 : Nat
  pl0 : Nat
  pr0 : Nat
  pl1 : Nat
  pr1 : Nat
  sa : Word
  haloIn : Nat
  haloOut : Nat
  cLine : Nat
  rest : Bool
deriving DecidableEq, Repr

/-- R164: the descriptor in 64 bytes. -/
def convDesc (b : List Byte) : ConvDesc :=
  { fx := le b 0 1, fw := le b 1 1, fd := le b 2 1, round := le b 3 1, padMode := le b 4 1, flags := le b 5 1,
    gsize := le b 6 1, za := le b 7 1, padCode := le b 8 2, cin := le b 0xA 2, in0 := le b 0xC 2, in1 := le b 0xE 2,
    k0 := le b 0x10 1, k1 := le b 0x11 1, s0 := le b 0x12 1, s1 := le b 0x13 1, d0 := le b 0x14 2, d1 := le b 0x16 2,
    pl0 := le b 0x18 2, pr0 := le b 0x1A 2, pl1 := le b 0x1C 2, pr1 := le b 0x1E 2, sa := le32 b 0x20,
    haloIn := le b 0x24 4, haloOut := le b 0x28 4, cLine := le b 0x2C 4, rest := zeroAt b 0x30 16 }

/-- R164: a bit of FLAGS. -/
def ConvDesc.flag (d : ConvDesc) (n : Nat) : Bool := bitOf d.flags n

/-- R162: HL. -/
def ConvDesc.hl (d : ConvDesc) : Nat := d.d0 * (d.k0 - 1)

/-- R165: an output length, as an integer. -/
def outLen (span pad dil kernel stride : Nat) : Int :=
  ((span + pad : Nat) - (dil * (kernel - 1) : Nat) - 1 : Int).fdiv stride + 1

/-- R165: OUT0. -/
def ConvDesc.out0 (d : ConvDesc) (halo : Bool) : Int :=
  outLen (d.in0 + if halo then d.hl else d.pl0) d.pr0 d.d0 d.k0 d.s0

/-- R165: OUT1. -/
def ConvDesc.out1 (d : ConvDesc) : Int := outLen (d.in1 + d.pl1) d.pr1 d.d1 d.k1 d.s1

/-- R168: K. -/
def ConvDesc.k (d : ConvDesc) : Nat := d.k0 * d.k1 * d.cin

/-- R64, R78: a data format that a card or descriptor may name. A user format whose entry is unused is none: a CONV that
names it stops with BAD_PARAM, and one outside the deck's UF_MASK runs (log 151, DESIGN CHOICE). -/
def dataFormat (t1 : List (List Byte)) (f : Nat) : Bool := f != 0xC && (fmtOf t1 f).isSome

/-- R65: an array operand's format. -/
def arrayFormat (t1 : List (List Byte)) (f : Nat) : Bool := dataFormat t1 f && f != 7

/-- R164, R166: the ranges of the descriptor's own fields. -/
def ConvDesc.fieldsOk (d : ConvDesc) : Bool :=
  let within := fun (lo hi v : Nat) => lo ≤ v && v ≤ hi
  d.rest && d.round ≤ 2 && d.padMode ≤ 2 && d.flags < 64 && d.gsize ≤ 2 && within 1 4096 d.cin
    && within 1 16384 d.in0 && within 1 1024 d.in1 && within 1 64 d.k0 && within 1 64 d.k1 && within 1 64 d.s0
    && within 1 64 d.s1 && within 1 1024 d.d0 && within 1 1024 d.d1

/-- R166: a code fits the width of a format. -/
def codeFits (t1 : List (List Byte)) (f code : Nat) : Bool := decide (code < 2 ^ ((fmtOf t1 f).elim 0 Fmt.width))

/-- R66, R166: ZA lies in the code range of FX, whatever ZP: a two's complement value of an integer format's width, a code of
another format's width (log 152, DEDUCED). -/
def zaFits (t1 : List (List Byte)) (f za : Nat) : Bool := if f ≤ 1 then zeroPointOk f (sext 8 za) else codeFits t1 f za

/-- R162, R163, R168: the extents of a CONV past its card's own field. -/
def convExtents (t1 : List (List Byte)) (ix : List DWord) (c : Card) (d : ConvDesc) : List Extent :=
  let n := (fld c 10 3 + 1) * 16; let k := d.k
  let shape := tileShape (fld c 2 1)
  let scales := if d.flag 2 then ceilDiv k (groupOf d.gsize) * rowLines t1 (if d.flag 3 then 5 else 0xC) n else 0
  let rx := rowLines t1 d.fx d.cin; let rdl := rowLines t1 d.fd n
  let m := fld c 31 20 + 1
  let halo := d.hl * d.in1 * rx
  [⟨false, lineOf ix (fld c 111 92), d.in0 * d.in1 * rx, false⟩,
   ⟨false, lineOf ix (fld c 91 72), tilesOf shape k n * tileLines t1 shape d.fw + scales, false⟩,
   ⟨false, lineOf ix (fld c 71 52), m * rdl, true⟩, ⟨false, lineOf ix (fld c 51 32), 1, false⟩]
  ++ (if d.flag 0 then [⟨false, d.cLine, m * rdl, false⟩] else [])
  ++ (if c.getLsbD 0 then [⟨true, d.haloIn, halo, false⟩, ⟨true, d.haloOut, halo, true⟩] else [])

/-- R166: the checks before a CONV starts. -/
def convOk (t1 : List (List Byte)) (ways units : Nat) (ix : List DWord) (c : Card) (d : ConvDesc) : Bool :=
  let halo := c.getLsbD 0
  d.fieldsOk && arrayFormat t1 d.fx && arrayFormat t1 d.fw && dataFormat t1 d.fd
    && operandClass t1 d.fx d.fw == fld c 2 1
    && ceilDiv d.k 32 == fld c 19 11 + 1 && d.k ≤ 16384
    && decide (0 < d.out0 halo) && decide (0 < d.out1) && d.out0 halo * d.out1 == (fld c 31 20 + 1 : Nat)
    && (!d.flag 4 || d.fx ≤ 1) && zaFits t1 d.fx d.za && codeFits t1 d.fx d.padCode
    && !(halo && d.pl0 != 0) && !(halo && d.pr0 == 0 && d.in0 % d.s0 != 0)
    && (convExtents t1 ix c d).all (Extent.inside ways units) && noOverlap (convExtents t1 ix c d)

/-- R66: a code as read from its container, whose unused high bits are ignored. -/
def maskCode (t1 : List (List Byte)) (f code : Nat) : Nat := code % 2 ^ ((fmtOf t1 f).elim 0 Fmt.width)

/-- R66, R168: ext_code, on a given scratch and stripe buffer. -/
def extCode (t1 : List (List Byte)) (scratch stripe : Mem) (xLine : Nat) (d : ConvDesc) (halo : Bool) (t f : Int)
    (c : Nat) : Nat :=
  let hl : Int := if halo then (d.hl : Nat) else 0
  let lo := if halo && d.flag 5 then hl else 0
  let hi := hl + (d.in0 : Nat)
  let rx := rowLines t1 d.fx d.cin; let cw := containerOf t1 d.fx
  let stored := fun (t f : Int) =>
    if t < hl then codeAt stripe (d.haloIn + (t.toNat * d.in1 + f.toNat) * rx) cw c
    else codeAt scratch (xLine + ((t - hl).toNat * d.in1 + f.toNat) * rx) cw c
  maskCode t1 d.fx <| if t < lo || hi ≤ t || f < 0 || (d.in1 : Int) ≤ f then
    match d.padMode with
    | 0 => if d.flag 4 then d.za else 0
    | 1 => d.padCode
    | _ => stored (min (max t lo) (hi - 1)) (min (max f 0) ((d.in1 : Nat) - 1))
  else stored t f

/-- R168, R170: CONV, whose descriptor is checked first. -/
def runConv (c : Card) (i : CardIn) : Except Status CardOut :=
  let t1 := i.t1; let mem := i.out.scratch
  let d := convDesc (mem.read (64 * lineOf i.ix (fld c 51 32)) 64)
  let halo := c.getLsbD 0
  if !convOk t1 i.ways i.units i.ix c d then .error .badParam
  else
    let xLine := lineOf i.ix (fld c 111 92); let wLine := lineOf i.ix (fld c 91 72)
    let n := (fld c 10 3 + 1) * 16; let k := d.k
    let o1 := d.out1.toNat
    let shape := tileShape (fld c 2 1)
    let sLine := wLine + tilesOf shape k n * tileLines t1 shape d.fw
    let za : Int := if d.flag 4 then sext 8 d.za else 0
    let g := if d.flag 2 then groupOf d.gsize else 32
    let pl0 : Nat := if halo then 0 else d.pl0
    let xF := fmtAt t1 d.fx; let wF := fmtAt t1 d.fw
    let rows := (List.range (fld c 31 20 + 1)).map fun p =>
      let a := (List.range d.k0).flatMap fun ki => (List.range d.k1).flatMap fun kj => (List.range d.cin).map fun ch =>
        actValue xF za (extCode t1 mem i.out.stripe xLine d halo
          ((p / o1 * d.s0 + ki * d.d0 : Nat) - (pl0 : Int)) ((p % o1 * d.s1 + kj * d.d1 : Nat) - (d.pl1 : Int)) ch)
      (List.range n).map fun col =>
        let pairs := a.zipIdx.map fun (v, kk) => (v, value wF (weightAt t1 mem wLine shape d.fw k kk col))
        let scale := fun (gi : Nat) =>
          if d.flag 2 then elemAt t1 mem sLine (if d.flag 3 then 5 else 0xC) n gi col else one32
        let addend := if d.flag 0 then some (elemAt t1 mem d.cLine d.fd n p col) else none
        mmaElement g (d.flag 1) pairs scale d.sa addend
    let done := i.writeRows (lineOf i.ix (fld c 71 52)) d.fd d.round (satOf c) rows
    if halo then
      let kept := (List.range d.hl).flatMap fun r => (List.range d.in1).flatMap fun f =>
        packRow (containerOf t1 d.fx) ((List.range d.cin).map fun ch =>
          extCode t1 mem i.out.stripe xLine d true (d.in0 + r : Nat) (f : Nat) ch)
      .ok { done with stripe := i.out.stripe.write (64 * d.haloOut) kept }
    else .ok done

end Sys2Proof.Machine
end

