-- ==== Sys2Proof/Machine/Weft.lean ====
section
/-!
DEFINITION. The weft and scan units: VOP (R142, R143), REDUCE (R144), NORM (R145), CURVE (R146), SCAN (R151 to R158),
WIDEN (R194), GRAIN (R234, R235) and GSAMPLE (R237 to R239).
-/
namespace Sys2Proof.Machine

open Sys2Proof

/-- FP32 −infinity. -/
def negInf32 : Word := 0xFF800000#32

/-- A natural number as FP32, rounded once. -/
def nat32 (n : Nat) : Word := (fp32 (.fin false (n : Rat))).1

/-- A word without flags. -/
def plain (w : Word) : FR := (w, .none)

/-! ### VOP -/

/-- R143: y of a VOP. -/
def vop (op : Nat) (a b : Word) : FR :=
  let nanA := isNan32 a
  let either := nanA || isNan32 b
  let unary := fun (y : Word) => if nanA then (qnan, Fl.setNanin) else plain y
  match op with
  | 0x0 => fp32Add a b
  | 0x1 => fp32Add a (fp32Neg b)
  | 0x2 => fp32Mul a b
  | 0x3 => fp32Div a b
  | 0x4 => if either then (qnan, .setNanin) else plain (if ltVal true (f32 a) (f32 b) then b else a)
  | 0x5 => if either then (qnan, .setNanin) else plain (if ltVal true (f32 b) (f32 a) then b else a)
  | 0x6 => unary a
  | 0x7 => unary (fp32Neg a)
  | 0x8 => unary (a &&& 0x7FFFFFFF#32)
  | 0x9 => fp32Sqrt a
  | 0xA => if either then (0, .setNanin) else plain (if ltVal false (f32 b) (f32 a) then one32 else 0)
  | _ =>
    if nanA then (qnan, .setNanin)
    else if isNan32 b then (a, .setNanin)
    else plain (if (f32 b).rat == 0 && finite32 b then negInf32 else a)

/-- R143: VOP. -/
def runVop (c : Card) (i : CardIn) : Except Status CardOut :=
  let mem := i.out.scratch
  let rows := fld c 51 40 + 1; let len := fld c 39 26 + 1
  let aLine := lineOf i.ix (fld c 111 92); let bLine := lineOf i.ix (fld c 91 72)
  let fb := fld c 15 12
  let unary := 6 ≤ fld c 25 20 && fld c 25 20 ≤ 9
  let bOf := fun (r j : Nat) =>
    if unary then 0
    else match fld c 5 4 with
      | 0 => elemAt i.t1 mem bLine fb len r j
      | 1 => elemAt i.t1 mem bLine fb 1 0 0
      | 2 => elemAt i.t1 mem bLine fb rows 0 r
      | _ => elemAt i.t1 mem bLine fb len 0 j
  let out := (List.range rows).map fun r =>
    (rowAt i.t1 mem aLine (fld c 19 16) len r).zipIdx.map fun (a, j) => vop (fld c 25 20) a (bOf r j)
  .ok (i.writeRows (lineOf i.ix (fld c 71 52)) (fld c 11 8) (roundOf c) (satOf c) out)

/-! ### CURVE -/

/-- R146: CURVE. -/
def runCurve (c : Card) (i : CardIn) : Except Status CardOut :=
  let len := fld c 59 46 + 1
  let cv := curveOf (nth i.t2 (fld c 45 40) [])
  let out := (List.range (fld c 71 60 + 1)).map fun r =>
    (rowAt i.t1 i.out.scratch (lineOf i.ix (fld c 111 92)) (fld c 39 36) len r).map (curveEval cv)
  .ok (i.writeRows (lineOf i.ix (fld c 91 72)) (fld c 35 32) (roundOf c) (satOf c) out)

/-! ### REDUCE -/

/-- R144: the index of the best element under an order, the lowest among equals. -/
def bestIndex (better : Word → Word → Bool) (x : List Word) : Nat :=
  let step := fun (b : Nat × Word) (p : Word × Nat) => if better p.1 b.2 then (p.2, p.1) else b
  (x.tail.zipIdx.foldl (fun b p => step b (p.1, p.2 + 1)) (0, x.headD 0)).1

/-- R144: the result of a row. -/
def reduceRow (rop : Nat) (x : List Word) : FR :=
  let nan := x.findIdx? isNan32
  let gt := fun (a b : Word) => ltVal true (f32 b) (f32 a)
  let lt := fun (a b : Word) => ltVal true (f32 a) (f32 b)
  let pick := fun (better : Word → Word → Bool) => nth x (bestIndex better x) 0
  match rop with
  | 0 => tree x
  | 1 => if nan.isSome then (qnan, .setNanin) else plain (pick gt)
  | 2 => if nan.isSome then (qnan, .setNanin) else plain (pick lt)
  | 3 => treeR (x.map fun v => fp32Mul v v)
  | 4 => match nan with
    | some j => (nat32 j, .setNanin)
    | none => plain (nat32 (bestIndex gt x))
  | _ => match nan with
    | some j => (nat32 j, .setNanin)
    | none => plain (nat32 (bestIndex lt x))

/-- R144: REDUCE; its results are one row of ROWS elements. -/
def runReduce (c : Card) (i : CardIn) : Except Status CardOut :=
  let len := fld c 59 46 + 1
  let out := (List.range (fld c 71 60 + 1)).map fun r =>
    reduceRow (fld c 45 43) (rowAt i.t1 i.out.scratch (lineOf i.ix (fld c 111 92)) (fld c 42 39) len r)
  .ok (i.writeRows (lineOf i.ix (fld c 91 72)) (fld c 38 35) (roundOf c) (satOf c) [out])

/-! ### NORM -/

/-- R145: norm_row. -/
def normRow (rms : Bool) (eps : Word) (gamma beta : Option (List Word)) (x : List Word) : List FR :=
  let n := plain (nat32 x.length)
  let neg := fun (y : FR) => (fp32Neg y.1, y.2)
  let d := if rms then x.map plain
    else
      let mean := lift2 fp32Div (tree x) n
      x.map fun v => lift2 fp32Add (plain v) (neg mean)
  let var := lift2 fp32Div (treeR (d.map fun v => lift2 fp32Mul v v)) n
  let v := lift2 fp32Add var (plain eps)
  let r := fp32Rsqrt v.1
  let rs : FR := (r.1, v.2.join r.2)
  let y := d.map fun v => lift2 fp32Mul v rs
  let y := gamma.elim y fun g => y.zipIdx.map fun (v, j) => lift2 fp32Mul v (plain (nth g j 0))
  beta.elim y fun b => y.zipIdx.map fun (v, j) => lift2 fp32Add v (plain (nth b j 0))

/-- R145: NORM. -/
def runNorm (c : Card) (i : CardIn) : Except Status CardOut :=
  let len := fld c 39 26 + 1; let fp := fld c 18 15
  let pLine := lineOf i.ix (fld c 91 72)
  let vec := fun (k : Nat) =>
    if k < fld c 24 23 then some (rowAt i.t1 i.out.scratch pLine fp len k) else none
  let eps : Word := BitVec.ofNat 32 ((123 - fld c 8 4) * 2 ^ 23)
  let out := (List.range (fld c 51 40 + 1)).map fun r =>
    normRow (c.getLsbD 25) eps (vec 0) (vec 1)
      (rowAt i.t1 i.out.scratch (lineOf i.ix (fld c 111 92)) (fld c 22 19) len r)
  .ok (i.writeRows (lineOf i.ix (fld c 71 52)) (fld c 14 11) (roundOf c) (satOf c) out)

/-! ### SCAN -/

/-- R156: a triple, with the flags of the operations that formed it. -/
structure Triple where
  r  : Bool
  a  : Word
  b  : Word
  fl : Fl
deriving DecidableEq, Repr

/-- R156: comb. -/
def comb (p q : Triple) : Triple :=
  let fl := p.fl.join q.fl
  if q.r then { q with fl := fl }
  else
    let m := fp32Mul q.a p.b
    let b := fp32Add m.1 q.b
    let fl := (fl.join m.2).join b.2
    if p.r then ⟨true, 0, b.1, fl⟩
    else
      let a := fp32Mul q.a p.a
      ⟨false, a.1, b.1, fl.join a.2⟩

/-- R156: ctree over at most `fuel` levels. -/
def ctree : Nat → List Triple → Triple
  | 0, e => e.headD ⟨false, 0, 0, .none⟩
  | n + 1, e =>
    match e with
    | [] => ⟨false, 0, 0, .none⟩
    | [x] => x
    | _ =>
      let k := splitAt e.length 1 e.length
      comb (ctree n (e.take k)) (ctree n (e.drop k))

/-- R156: scan_channel. -/
def scanChannel (x a b : List Word) (init : Word) (marks : List Bool) (hIn : Word) : List FR :=
  let e := x.zipIdx.map fun (xt, t) =>
    let u := fp32Mul (nth b t one32) xt
    if nth marks t false then
      let m := lift2 fp32Mul (plain (nth a t 0)) (plain init)
      let s := lift2 fp32Add m u
      (⟨true, 0, s.1, s.2⟩ : Triple)
    else ⟨false, nth a t 0, u.1, u.2⟩
  (List.range x.length).map fun t =>
    let p := ctree (t + 1) (e.take (t + 1))
    if p.r then (p.b, p.fl) else lift2 fp32Add (lift2 fp32Mul (p.a, p.fl) (plain hIn)) (plain p.b)

/-- R153, R154: the lines of the blocks A, B, INIT and MARK after the descriptor. -/
def scanBlocks (t1 : List (List Byte)) (d : List Byte) (ch len : Nat) : Nat × Nat × Nat × Nat :=
  let cf := le d 2 1
  let block := fun (mode : Nat) =>
    match mode with
    | 0 => len * rowLines t1 cf ch
    | 1 => rowLines t1 cf ch
    | 2 => 1
    | _ => 0
  let marks := match le d 4 1 with
    | 1 => ceilDiv len 512
    | 2 => len * ceilDiv ch 512
    | _ => 0
  (block (le d 0 1), block (le d 1 1), if le d 3 1 == 1 then lines32 ch else 0, marks)

/-- R155: the descriptor is legal. -/
def scanDescOk (d : List Byte) : Bool :=
  le d 0 1 ≤ 2 && le d 1 1 ≤ 3 && 5 ≤ le d 2 1 && le d 2 1 ≤ 7 && le d 3 1 ≤ 1 && le d 4 1 ≤ 2 && zeroAt d 5 59

/-- R155: every extent of a SCAN, its parameter block included. -/
def scanExtents (t1 : List (List Byte)) (ix : List DWord) (c : Card) (d : List Byte) : List Extent :=
  let b := scanBlocks t1 d (fld c 31 22 + 1) (fld c 21 12 + 1)
  ⟨false, lineOf ix (fld c 51 32), 1 + b.1 + b.2.1 + b.2.2.1 + b.2.2.2, false⟩
    :: (cardRefs t1 c).map (Ref.extent ix)

/-- R151 to R158: SCAN. Where Y's lines and those of the carried-out state overlap, the carried-out state is written last (log 178,
DESIGN CHOICE). -/
def runScan (c : Card) (i : CardIn) : Except Status CardOut :=
  let mem := i.out.scratch; let t1 := i.t1
  let ch := fld c 31 22 + 1; let len := fld c 21 12 + 1
  let p := lineOf i.ix (fld c 51 32)
  let d := mem.read (64 * p) 64
  let es := scanExtents t1 i.ix c d
  if !scanDescOk d || !es.all (Extent.inside i.ways i.units) || !noOverlap es then .error .badParam
  else
    let n := scanBlocks t1 d ch len
    let aL := p + 1; let bL := aL + n.1; let iL := bL + n.2.1; let mL := iL + n.2.2.1
    let cf := le d 2 1
    let coef := fun (mode line t k : Nat) =>
      match mode with
      | 0 => elemAt t1 mem line cf ch t k
      | 1 => elemAt t1 mem line cf ch 0 k
      | 2 => elemAt t1 mem line cf 1 0 0
      | _ => one32
    let mark := fun (t k : Nat) =>
      match le d 4 1 with
      | 1 => bitOf (lineByte mem mL (t / 8)) (t % 8)
      | 2 => bitOf (lineByte mem (mL + t * ceilDiv ch 512) (k / 8)) (k % 8)
      | _ => false
    let hL := lineOf i.ix (fld c 71 52)
    let steps := List.range len
    let cols := (List.range ch).map fun k =>
      scanChannel (steps.map fun t => elemAt t1 mem (lineOf i.ix (fld c 111 92)) (fld c 11 8) ch t k)
        (steps.map fun t => coef (le d 0 1) aL t k) (steps.map fun t => coef (le d 1 1) bL t k)
        (if le d 3 1 == 1 then word32At mem iL k else 0) (steps.map fun t => mark t k) (word32At mem hL k)
    let rows := steps.map fun t => cols.map fun col => nth col t (0, .none)
    let done := if c.getLsbD 1 then
        { i.out with flags := raiseAll i.out.flags (rows.flatMap fun row => row.map (·.2)) }
      else i.writeRows (lineOf i.ix (fld c 91 72)) (fld c 7 4) (roundOf c) (satOf c) rows
    let last := cols.map fun col => (nth col (len - 1) (0, .none)).1.toNat
    .ok { done with scratch := done.scratch.write (64 * (hL + lines32 ch)) (packRow 32 last) }

/-! ### WIDEN -/

/-- R181: the bits of an integer narrow format. -/
def narrowBits (fn : Nat) : Nat := if fn == 0 then 4 else 8

/-- R186: widen_value. -/
def widenValue (fn code : Nat) (const : Bool) (s zp : Word) (zpm : Bool) : FR :=
  if const then plain zp
  else
    let v := value (fmtAt [] fn) code
    if !zpm then fp32Mul (fp32 v).1 s
    else
      let shifted := match v with
        | .fin a m => FVal.ofRat ((FVal.fin a m).rat + ((2 ^ (narrowBits fn - 1) : Nat) : Rat))
        | v => v
      lift2 fp32Add (fp32Mul (fp32 shifted).1 s) (plain zp)

/-- R190: SCALE and ZP of channel c of a scale record. -/
def recordEntry (r : List Byte) (c : Nat) : Word × Word := (le32 r (16 + 8 * c), le32 r (20 + 8 * c))

/-- R190: CONST of channel c of a scale record of CH channels. -/
def recordConst (r : List Byte) (ch c : Nat) : Bool := bitOf (le r (16 + 8 * ch + c / 8) 1) (c % 8)

/-- R194: WIDEN. -/
def runWiden (c : Card) (i : CardIn) : Except Status CardOut :=
  let mem := i.out.scratch
  let rows := fld c 51 40 + 1; let ch := fld c 39 28 + 1; let fn := fld c 27 24
  let r := mem.read (64 * lineOf i.ix (fld c 91 72)) (16 + 8 * ch + ceilDiv ch 8)
  let mode := le r 2 1
  if le r 4 2 != ch || le r 6 2 != rows || le r 1 1 != fn || 2 ≤ mode || (mode == 1 && 3 ≤ fn) then .error .badParam
  else
    let line := lineOf i.ix (fld c 111 92)
    let out := (List.range rows).map fun t => (List.range ch).map fun k =>
      let q := codeAt mem (line + t * rowLines i.t1 fn ch) (containerOf i.t1 fn) k
      widenValue fn q (recordConst r ch k) (recordEntry r k).1 (recordEntry r k).2 (mode == 1)
    .ok (i.writeRows (lineOf i.ix (fld c 71 52)) (fld c 23 20) (roundOf c) (satOf c) out)

/-! ### GRAIN -/

/-- R235: the key record: key and step counter; none when its reserved bytes are not zero. -/
def grainKey (c : Card) (ix : List DWord) (mem : Mem) : Option (List Byte × DWord) :=
  let r := mem.read (64 * lineOf ix (fld c 111 92)) 64
  if zeroAt r 40 24 then some (slice r 0 32, BitVec.ofNat 64 (le r 32 8)) else none

/-- R234: y of an element. -/
def grainValue (c : Card) (key : List Byte) (step e : Nat) : FR :=
  let stream := fld c 52 21
  match fld c 65 63 with
  | 1 =>
    let d := draw32 key stream step 1 e
    let v : Rat := ((2 * d + 1 : Nat) - (2 ^ 32 : Nat) : Int)
    lift2 fp32Mul (fp32 (.ofRat (v / ((2 ^ 32 : Nat) : Rat)))) (plain (widen (.flt 8 7 127 2) (fld c 20 5)))
  | 2 => plain (if draw16 key stream step 1 e < fld c 20 5 then one32 else 0)
  | _ => plain (nat32 (draw16 key stream step 1 e))

/-- R234: the fill forms of GRAIN. -/
def runGrainFill (c : Card) (i : CardIn) : Except Status CardOut :=
  let len := fld c 79 66 + 1
  let base := lineOf i.ix (fld c 56 53 * 65536)
  let out := (List.range (fld c 91 80 + 1)).map fun r => (List.range len).map fun j =>
    grainValue c i.key i.step ((base + r * len + j) % 2 ^ 32)
  .ok (i.writeRows (lineOf i.ix (fld c 111 92)) (fld c 62 59) (roundOf c) (satOf c) out)

/-! ### GSAMPLE -/

/-- R237: a row record. -/
structure RowRecord where
  stream : Nat
  topk   : Nat
  step   : Nat
  temp   : Word
  topP   : Word
deriving DecidableEq, Repr

/-- R237: the fields of a row record. -/
def rowRecord (b : List Byte) : RowRecord := ⟨le b 0 4, le b 4 4, le b 8 8, le32 b 16, le32 b 20⟩

/-- R239: a row record that GSAMPLE accepts; TEMP is +0, or finite and positive. -/
def rowRecordOk (b : List Byte) : Bool :=
  let r := rowRecord b
  finite32 r.temp && !r.temp.getLsbD 31 && !isNan32 r.topP && ltVal false (.fin false 0) (f32 r.topP)
    && !ltVal false (f32 one32) (f32 r.topP) && zeroAt b 24 8

/-- R238: the factory curves that GSAMPLE keeps: exp32. -/
def exp32 (x : Word) : FR := curveEval (curveOf (nth Factory.table2 0 [])) x

/-- R238: ln32. -/
def ln32 (x : Word) : FR := curveEval (curveOf (nth Factory.table2 2 [])) x

/-- R238: candidates in the order of z falling, then index rising: insertion into a list so ordered. -/
def insertByZ (p : Nat × Word) : List (Nat × Word) → List (Nat × Word)
  | [] => [p]
  | q :: qs =>
    if ltVal false (f32 q.2) (f32 p.2) || (!ltVal false (f32 p.2) (f32 q.2) && p.1 < q.1) then p :: q :: qs
    else q :: insertByZ p qs

/-- R238: the length of the top-p prefix, with the flags of its sums. -/
def topPrefix (lim : Word) : List Word → FR → Nat → Nat × Fl
  | [], acc, n => (n, acc.2)
  | w :: ws, acc, n =>
    if n == 0 || ltVal false (f32 acc.1) (f32 lim) then topPrefix lim ws (lift2 fp32Add acc (plain w)) (n + 1)
    else (n, acc.2)

/-- R238: the score of candidate i, from its z and its draw. -/
def gumbel (z : Word) (d : Nat) : FR :=
  let neg := fun (y : FR) => (fp32Neg y.1, y.2)
  let into := fun (f : Word → FR) (y : FR) => let r := f y.1; (r.1, y.2.join r.2)
  let u := fp32 (.ofRat (((2 * (d / 512) + 1 : Nat) : Rat) / ((2 ^ 24 : Nat) : Rat)))
  lift2 fp32Add (plain z) (neg (into ln32 (neg (into ln32 u))))

/-- R238: gsample_row with the site of its draws: the index chosen, or 2^32 − 1, and the flags. -/
def gsampleRow (x : List Word) (rec : RowRecord) (key : List Byte) (site : Nat) : Nat × Fl :=
  let k := (x.zipIdx.filter fun p => !isNan32 p.1).map fun p => (p.2, p.1)
  let nan : Fl := if k.length < x.length then .setNanin else .none
  let gt := fun (a b : Word) => ltVal false (f32 b) (f32 a)
  match k with
  | [] => (2 ^ 32 - 1, nan)
  | first :: others =>
    if (f32 rec.temp) == .fin false 0 then
      ((others.foldl (fun b p => if gt p.2 b.2 then p else b) first).1, nan)
    else
      let divided := k.map fun p => (p.1, fp32Div p.2 rec.temp)
      let fl := divided.foldl (fun f p => f.join p.2.2) nan
      let ranked := divided.foldr (fun p acc => insertByZ (p.1, p.2.1) acc) []
      let order := if 0 < rec.topk && rec.topk < x.length then ranked.take rec.topk else ranked
      let top := (order.headD (0, 0)).2
      if f32 top == .inf false then
        (((order.filter fun p => f32 p.2 == .inf false).map (·.1)).foldl min x.length, fl)
      else
        let into := fun (f : Word → FR) (y : FR) => let r := f y.1; ((r.1, y.2.join r.2) : FR)
        let kept := if ltVal false (f32 rec.topP) (f32 one32) then
            let w := order.map fun p => into exp32 (fp32Add p.2 (fp32Neg top))
            let lim := lift2 fp32Mul (plain rec.topP) (treeR w)
            let n := topPrefix lim.1 (w.map (·.1)) (plain 0) 0
            (order.take n.1, lim.2.join n.2)
          else (order, .none)
        let scored := kept.1.map fun p => (p.1, gumbel p.2 (draw32 key rec.stream rec.step site p.1))
        let sorted := (List.range x.length).filterMap fun i => scored.find? fun p => p.1 == i
        let fl := sorted.foldl (fun f p => f.join p.2.2) (fl.join kept.2)
        match sorted with
        | [] => (0, fl)
        | p :: ps => ((ps.foldl (fun b q => if gt q.2.1 b.2.1 then q else b) p).1, fl)

/-- R237 to R239: GSAMPLE. -/
def runGsample (c : Card) (i : CardIn) : Except Status CardOut :=
  let mem := i.out.scratch
  let rows := fld c 51 44 + 1; let len := fld c 43 26 + 1
  let recAt := fun (r : Nat) => mem.read (64 * lineOf i.ix (fld c 91 72) + 32 * r) 32
  if !((List.range rows).all fun r => rowRecordOk (recAt r)) then .error .badParam
  else
    let out := (List.range rows).map fun r =>
      gsampleRow (rowAt i.t1 mem (lineOf i.ix (fld c 111 92)) (fld c 25 22) len r) (rowRecord (recAt r)) i.key 2
    .ok { i.out with
      scratch := mem.write (64 * lineOf i.ix (fld c 71 52)) (packRow 32 (out.map (·.1))),
      flags := raiseAll i.out.flags (out.map (·.2)) }

end Sys2Proof.Machine
end

