-- ==== Sys2Proof/Machine/Codec.lean ====
section
/-!
DEFINITION. Compressed feature maps (R173 to R176) and narrowing for the links (R181 to R190).
-/
namespace Sys2Proof.Machine

open Sys2Proof

/-! ### Compressed blocks -/

/-- R173: the scratch-side format of a LOAD_C or STORE_C. -/
def codecFmt (c : Card) : Fmt := if c.getLsbD 5 then .flt 5 10 15 2 else .flt 8 7 127 2

/-- R174: B and LIM of a RATIO. -/
def codecShape (quarter : Bool) : Nat × Nat := if quarter then (2, 3) else (6, 63)

/-- R174: bytes of a block. -/
def codecBytes (quarter : Bool) : Nat := if quarter then 8 else 16

/-- R175: e of a sub-block: over its finite elements. -/
def subExponent (x : List FVal) : Int :=
  let m := x.foldl (fun m v => match v with
    | .fin _ a => max m a
    | _ => m) (0 : Rat)
  if m == 0 then -127 else max (-127) (floorLog2 m + 1)

/-- R175: the code of one element with its flags. -/
def codecCode (x : FVal) (step : Rat) (lim mode r : Nat) : Int × Fl :=
  match x with
  | .nan => (0, .setNv)
  | .inf neg => (if neg then -(lim : Int) else lim, .setSat)
  | .fin _ _ =>
    let q := roundInt mode r (x.rat / step)
    let k := min (max q (-(lim : Int))) lim
    (k, if k == q then .none else .setSat)

/-- R174, R175: a block of 16 elements encoded; `draw i` gives r of element i. -/
def encodeBlock (quarter : Bool) (mode : Nat) (draw : Nat → Nat) (x : List FVal) : List Byte × List Fl :=
  let (b, lim) := codecShape quarter
  let e0 := subExponent (x.take 8); let e1 := subExponent (x.drop 8)
  let big := max e0 e1
  let sh := fun (e : Int) => min (big - e) 15
  let q := x.zipIdx.map fun (v, i) =>
    codecCode v (pow2 (big - sh (if i < 8 then e0 else e1) - (b : Nat))) lim mode (draw i)
  let w := b + 1
  let packed := q.zipIdx.foldl (fun n p => n + (p.1.1 % ((2 ^ w : Nat) : Int)).toNat * 2 ^ (w * p.2)) 0
  (leBytes 1 (big + 127).toNat ++ leBytes 1 ((sh e0).toNat + 16 * (sh e1).toNat)
    ++ leBytes (codecBytes quarter - 2) packed, q.map (·.2))

/-- R176: the exact value of element i of a block. -/
def decodeElement (quarter : Bool) (blk : List Byte) (i : Nat) : FVal :=
  let b := (codecShape quarter).1
  let w := b + 1
  let q := sext w (le blk 2 (codecBytes quarter - 2) / 2 ^ (w * i))
  let sh := le blk 1 1 / (if i < 8 then 1 else 16) % 16
  .ofRat ((q : Rat) * pow2 ((le blk 0 1 : Nat) - 127 - (sh : Nat) - (b : Nat)))

/-- R175: row r of a STORE_C encoded from its scratch codes. -/
def encodeRow (c : Card) (key : List Byte) (step r : Nat) (codes : List Nat) : List Byte × List Fl :=
  let quarter := c.getLsbD 6
  let len := codes.length
  let vals := codes.map (value (codecFmt c))
  let blocks := (groupsOf 16 (len / 16) vals).zipIdx.map fun (x, b) =>
    encodeBlock quarter (roundOf c) (fun i => srDraw (roundOf c) key 0 step 3 (r * len + 16 * b + i)) x
  (blocks.flatMap (·.1), blocks.flatMap (·.2))

/-- R176: row r of a LOAD_C decoded into scratch codes of its format, with flags. -/
def decodeRow (c : Card) (key : List Byte) (step r : Nat) (bytes : List Byte) : List (Nat × Fl) :=
  let quarter := c.getLsbD 6
  let len := 32 * (fld c 38 27 + 1)
  (List.range len).map fun j =>
    let blk := slice bytes (codecBytes quarter * (j / 16)) (codecBytes quarter)
    convert (decodeElement quarter blk (j % 16)) (codecFmt c) (roundOf c) (satOf c)
      (srDraw (roundOf c) key 0 step 3 (r * len + j))

/-! ### Scales (R182 to R184) -/

/-- R182: qmax of a narrow format. -/
def qmaxOf (fn : Nat) : Nat :=
  match fn with
  | 0 => 7
  | 1 => 127
  | 3 => 448
  | _ => 57344

/-- FP32 2^−126. -/
def minNormal : Word := 0x00800000#32

/-- R182: the larger of a positive FP32 scale and MIN_NORMAL. -/
def atLeastNormal (s : Word) : Word := if ltVal false (f32 s) (f32 minNormal) then minNormal else s

/-- R182: the extreme finite elements of a channel, +0 above −0. -/
def channelRange (col : List Word) : Option (Word × Word) :=
  match col.filter finite32 with
  | [] => none
  | x :: xs =>
    some (xs.foldl (fun m v => if ltVal true (f32 v) (f32 m) then v else m) x,
      xs.foldl (fun m v => if ltVal true (f32 m) (f32 v) then v else m) x)

/-- R182: channel_scales. -/
def channelScales (fn : Nat) (zpm : Bool) (col : List Word) : ScaleReg :=
  match channelRange col with
  | none => ⟨true, minNormal, 0⟩
  | some (mn, mx) =>
    let a := (f32 mn).rat; let b := (f32 mx).rat
    if a == b then ⟨true, minNormal, mx⟩
    else if !zpm then
      ⟨false, atLeastNormal (fp32Up (max (absRat a) (absRat b) / (qmaxOf fn : Rat))), 0⟩
    else ⟨false, atLeastNormal (fp32Up ((b - a) / ((2 ^ narrowBits fn - 1 : Nat) : Rat))), mn⟩

/-- R184: the statistics record: minima, then maxima on a new line. -/
def statsRecord (cols : List (List Word)) : List Byte :=
  let ends := cols.map fun col => (channelRange col).getD (0, 0)
  packRow 32 (ends.map (·.1.toNat)) ++ packRow 32 (ends.map (·.2.toNat))

/-! ### NARROW (R186, R188, R190) -/

/-- R186: narrow_code, with its flags; a non-finite element of a constant channel codes as zero. A NaN of another channel
converts as R70 states and sets no NANIN (log 149, DEDUCED). -/
def narrowCode (fn : Nat) (zpm : Bool) (g : ScaleReg) (mode : Nat) (sat : Bool) (r : Nat) (x : Word) : Nat × Fl :=
  let f := fmtAt [] fn
  let v := f32 x
  if g.const then
    (0, match v with
      | .nan => .setNanin
      | .inf _ => .setSat
      | .fin _ _ => .none)
  else
    let s := (f32 g.scale).rat
    match v with
    | .fin n m =>
      if !zpm then convert (.fin n (m / s)) f mode sat r
      else
        let w := narrowBits fn
        let q := roundInt mode r ((v.rat - (f32 g.zp).rat) / s)
        let k := min (max q 0) ((2 ^ w - 1 : Nat) : Int)
        (((k - ((2 ^ (w - 1) : Nat) : Int)) % ((2 ^ w : Nat) : Int)).toNat, if k == q then .none else .setSat)
    | v => convert v f mode (zpm || sat) r

/-- R69, R188: e_c of a channel from its elements and their widened codes, over the finite rows, with the flags of the
arithmetic. -/
def channelError (col : List Word) (wide : List FR) : FR :=
  let ds := (col.zip wide).filter fun p => finite32 p.1
  match ds with
  | [] => plain 0
  | _ => treeR (ds.map fun p => let d := lift2 fp32Add (plain p.1) (fp32Neg p.2.1, p.2.2); lift2 fp32Mul d d)

/-- What a NARROW makes: codes by row, flags, the errors of the channels, their tree SSE, the block MSE and n. -/
structure Narrowed where
  codes : List (List Nat)
  flags : List Fl
  errs  : List Word
  sse   : Word
  mse   : Word
  n     : Nat

/-- R186, R188: a block narrowed under its registers. The flags are each element's, then those that the FP32 operations of
R188 raise (R69, R88). -/
def narrowBlock (fn : Nat) (zpm : Bool) (regs : List ScaleReg) (mode : Nat) (sat : Bool) (draw : Nat → Nat)
    (rows : List (List Word)) : Narrowed :=
  let ch := regs.length
  let coded := rows.zipIdx.map fun (row, t) => row.zipIdx.map fun (x, c) =>
    narrowCode fn zpm (nth regs c ⟨true, minNormal, 0⟩) mode sat (draw (t * ch + c)) x
  let errs := regs.zipIdx.map fun (g, c) =>
    let col := rows.map fun row => nth row c 0
    let wide := coded.map fun row => widenValue fn (nth row c (0, Fl.none)).1 g.const g.scale g.zp zpm
    channelError col wide
  let n := (rows.flatMap fun row => row.filter finite32).length
  let sse := treeR errs
  let mse := if n == 0 then plain 0 else lift2 fp32Div sse (plain (nat32 n))
  { codes := coded.map fun row => row.map (·.1), flags := (coded.flatMap fun row => row.map (·.2)) ++ [sse.2.join mse.2],
    errs := errs.map (·.1), sse := sse.1, mse := mse.1, n := n }

/-- R188: the error record. -/
def Narrowed.errorRecord (w : Narrowed) : List Byte :=
  packRow 32 (w.errs.map (·.toNat)) ++ padTo 64 (leBytes 4 w.mse.toNat ++ leBytes 4 w.n)

/-- R190: a scale record. -/
def scaleRecord (tag lsid : Byte) (fn : Nat) (zpm : Bool) (rows : Nat) (mse : Word) (regs : List ScaleReg) : List Byte :=
  let ch := regs.length
  let b := [tag] ++ leBytes 1 fn ++ leBytes 1 (if zpm then 1 else 0) ++ [lsid] ++ leBytes 2 ch ++ leBytes 2 rows
    ++ leBytes 4 (regs.countP (·.const)) ++ leBytes 4 mse.toNat
    ++ (regs.flatMap fun g => leBytes 4 g.scale.toNat ++ leBytes 4 g.zp.toNat)
    ++ leBytes (ceilDiv ch 8) (maskOf ch fun c => (nth regs c ⟨false, 0, 0⟩).const)
  padTo (roundUp b.length 64) b

/-- R188: the binary64 code of a rational rounded by RNE. -/
def toBinary64 (q : Rat) : DWord := BitVec.ofNat 64 (convert (.ofRat q) (.flt 11 52 1023 2) 0 false 0).1

/-- R188: binary64 addition for SSE: a NaN or an infinity stays. -/
def addBinary64 (a : DWord) (w : Word) : DWord :=
  match value (.flt 11 52 1023 2) a.toNat, f32 w with
  | .fin s m, .fin t n => toBinary64 ((FVal.fin s m).rat + (FVal.fin t n).rat)
  | .nan, _ | _, .nan => 0x7FF8000000000000#64
  | .inf _, _ => a
  | _, .inf neg => if neg then 0xFFF0000000000000#64 else 0x7FF0000000000000#64

end Sys2Proof.Machine
end

