-- ==== Sys2Proof/Machine/DeckCheck.lean ====
section
/-!
DEFINITION. Decks: their parts (R113 to R116), the checks of DECK_LOAD (R95, R98, R100, R105, R107, R110, R112, R117, R124,
R126, R139, R144, R155, R167, R173, R187, R194, R236, R239, R315) and static traces (R106, R110).
-/
namespace Sys2Proof.Machine

open Sys2Proof

/-! ### One card -/

/-- R95: whether an engine runs an opcode. -/
def engineRuns (e : Engine) (op : Nat) : Bool :=
  let both := op == 8 || op == 9 || op == 0xA || op == 0xB || op == 0xC || op == 0x3F
  both || (match e with
    | .fetch => 1 ≤ op && op ≤ 5
    | .execute => op == 0x10 || op == 0x11 || (0x18 ≤ op && op ≤ 0x1B) || op == 0x20 || op == 0x28
        || (0x30 ≤ op && op ≤ 0x32) || op == 0x38 || op == 0x39)

/-- R94: the six cards on which SIG is reserved. -/
def controlOp (op : Nat) : Bool := (8 ≤ op && op ≤ 0xC) || op == 0x3F

/-- R94: cards with a SAT bit: those that convert into a narrower format. -/
def hasSat (c : Card) : Bool :=
  let op := opOf c
  op == 3 || op == 4 || op == 0x10 || op == 0x11 || (0x18 ≤ op && op ≤ 0x1B) || op == 0x20 || op == 0x28 || op == 0x31
    || op == 0x32 || (op == 0x38 && fld c 65 63 != 0)

/-- The reserved operand bits of a card, as (high, low) ranges. -/
def reservedBits (c : Card) : List (Nat × Nat) :=
  match opOf c with
  | 0x01 | 0x02 => [(6, 0)]
  | 0x03 | 0x04 => [(2, 0)]
  | 0x05 => (12, 0) :: (if c.getLsbD 89 then [] else [(88, 88)]) ++ (if fld c 91 90 == 2 then [(111, 92)] else [])
  | 0x08 => [(107, 0)]
  | 0x09 => [(91, 0)]
  | 0x0A => [(95, 0)]
  | 0x0B => [(19, 0)]
  | 0x0C => [(111, 96), (71, 0)]
  | 0x10 => [(10, 8), (0, 0)]
  | 0x11 => [(0, 0)]
  | 0x18 => (3, 0) :: (if 6 ≤ fld c 25 20 && fld c 25 20 ≤ 9 then [(91, 72), (15, 12), (5, 4)] else [])
  | 0x19 => [(29, 0)]
  | 0x1A => [(32, 0)]
  | 0x1B => [(3, 0)]
  | 0x20 => (0, 0) :: (if c.getLsbD 1 then [(91, 72)] else [])
  | 0x30 => [(26, 0)]
  | 0x31 => [(23, 0)]
  | 0x32 => [(17, 0)]
  | 0x38 => (4, 0) :: (if fld c 65 63 == 0 then [(91, 5)] else [])
  | 0x39 => [(21, 0)]
  | 0x3F => [(79, 0)]
  | _ => []

/-- R94: the reserved bits and the common fields of a card. -/
def commonOk (c : Card) : Bool :=
  let op := opOf c
  let signals := op == 8 || op == 9 || sigOf c
  fld c 115 114 == 0 && (!controlOp op || !sigOf c) && (hasSat c || !satOf c)
    && (if signals then bobbinOf c ≤ 7 else bobbinOf c == 0) && (reservedBits c).all fun r => fld c r.1 r.2 == 0

/-- R100: a bobbin's declaration: depth, and whether it runs from execute to fetch. -/
def bobbinDecl (bobbins : List Byte) (b : Nat) : Nat × Bool :=
  let v := (bobbins.getD b 0).toNat
  (v % 128, 128 ≤ v)

/-- R100: a card's use of a bobbin agrees with the declaration. -/
def bobbinOk (bobbins : List Byte) (e : Engine) (c : Card) : Bool :=
  let (depth, back) := bobbinDecl bobbins (bobbinOf c)
  let source : Engine := if back then .execute else .fetch
  if opOf c == 8 then depth != 0 && source != e
  else if opOf c == 9 || sigOf c then depth != 0 && source == e
  else true

/-- R181: a narrow format. -/
def narrowFormat (fn : Nat) : Bool := fn == 0 || fn == 1 || fn == 3 || fn == 4

/-- The format faults of R117 of one card, with the user formats that the deck names and its copies of table 0x01. -/
def formatOk (t1 t2 : List (List Byte)) (c : Card) : Bool :=
  let data := dataFormat t1
  let round := roundOf c != 3
  match opOf c with
  | 0x03 | 0x04 => round && (fld c 38 27 + 1) % (if c.getLsbD 6 then 4 else 2) == 0
  | 0x05 => fld c 91 90 != 3 && fld c 87 85 ≤ 5 && (fld c 36 25 + 1) * (fld c 24 13 + 1) ≤ 4096
  | 0x10 | 0x11 =>
    arrayFormat t1 (fld c 26 23) && arrayFormat t1 (fld c 22 19) && data (fld c 18 15) && round
      && fld c 10 9 != 3 && fld c 7 6 != 3 && !(c.getLsbD 5 && fld c 7 6 == 0)
      && !(c.getLsbD 5 && 2 ≤ fld c 26 23)
  | 0x18 =>
    data (fld c 19 16) && data (fld c 15 12) && data (fld c 11 8) && round && fld c 25 20 ≤ 0xB
  | 0x19 => data (fld c 39 36) && data (fld c 35 32) && round && ((nth t2 (fld c 45 40) []).getD 0 0) != 0
  | 0x1A =>
    data (fld c 42 39) && data (fld c 38 35) && round && fld c 45 43 ≤ 5 && (fld c 45 43 < 4 || fld c 38 35 == 7)
  | 0x1B => data (fld c 22 19) && data (fld c 18 15) && data (fld c 14 11) && round && fld c 24 23 != 3
  | 0x20 => data (fld c 11 8) && data (fld c 7 4) && round
  | 0x30 | 0x31 =>
    narrowFormat (fld c 63 60) && !(c.getLsbD 59 && 3 ≤ fld c 63 60) && data (fld c 67 64) && fld c 50 48 ≤ 5 && round
      && (fld c 91 80 + 1) * (fld c 79 68 + 1) ≤ 262144
  | 0x32 => narrowFormat (fld c 27 24) && data (fld c 23 20) && round
  | 0x38 =>
    fld c 65 63 ≤ 3 && roundOf c ≤ 1 && data (fld c 62 59) && !(fld c 65 63 == 3 && fld c 20 5 != 0)
  | 0x39 => 5 ≤ fld c 25 22 && fld c 25 22 ≤ 7
  | _ => true

/-- The user formats that a card names: bit n for UFn. -/
def userFormats (c : Card) : List Nat :=
  let fs := match opOf c with
    | 0x10 | 0x11 => [fld c 26 23, fld c 22 19, fld c 18 15]
    | 0x18 => [fld c 19 16, fld c 15 12, fld c 11 8]
    | 0x19 => [fld c 39 36, fld c 35 32]
    | 0x1A => [fld c 42 39, fld c 38 35]
    | 0x1B => [fld c 22 19, fld c 18 15, fld c 14 11]
    | 0x20 => [fld c 11 8, fld c 7 4]
    | 0x30 | 0x31 => [fld c 67 64]
    | 0x32 => [fld c 23 20]
    | 0x38 => [fld c 62 59]
    | _ => []
  fs.filter fun f => 8 ≤ f && f ≤ 0xB

/-- R126, R167, R236: the execute cards whose cost is held to 65,536 waves. -/
def costHeld (op : Nat) : Bool :=
  op == 0x10 || op == 0x11 || (0x18 ≤ op && op ≤ 0x1B) || op == 0x28 || op == 0x38 || op == 0x39

/-- R98, R124: the references of a card through IX_0 lie in range, and no such write meets such a read. -/
def staticRefsOk (t1 : List (List Byte)) (ways units : Nat) (c : Card) : Bool :=
  let es := ((cardRefs t1 c).filter fun r => r.ref / 65536 == 0).map (Ref.extent [])
  es.all (Extent.inside ways units) && (opOf c ≤ 5 || noOverlap es)

/-- One card's own faults under R117. -/
def cardOk (t1 t2 : List (List Byte)) (ufMask : Nat) (bobbins : List Byte) (ways units : Nat) (e : Engine) (c : Card) :
    Bool :=
  engineRuns e (opOf c) && commonOk c && bobbinOk bobbins e c && formatOk t1 t2 c
    && (userFormats c).all (fun f => bitOf ufMask (f - 8))
    && (!costHeld (opOf c) || cardWaves t1 16 0 c ≤ 65536) && staticRefsOk t1 ways units c

/-! ### Static traces (R105 to R107, R110, R112) -/

/-- A stretch of a static trace: the waves before its first KNOT, each KNOT with the waves after it, and whether it ends
in HALT. -/
structure Stretch where
  head  : Nat
  knots : List (Nat × Nat)
  ended : Bool
deriving DecidableEq, Repr

/-- No card. -/
def Stretch.empty : Stretch := ⟨0, [], false⟩

/-- One stretch after another; what follows a HALT never runs. -/
def Stretch.append (a b : Stretch) : Stretch :=
  if a.ended then a
  else
    match a.knots.reverse with
    | [] => ⟨a.head + b.head, b.knots, b.ended⟩
    | (k, w) :: front => ⟨a.head, front.reverse ++ (k, w + b.head) :: b.knots, b.ended⟩

/-- A stretch repeated. -/
def Stretch.times (a : Stretch) : Nat → Stretch
  | 0 => .empty
  | n + 1 => if a.knots.isEmpty && !a.ended then ⟨(n + 1) * a.head, [], false⟩ else a.append (a.times n)

/-- An open loop while a stream is read: the LOOP's index, its count, and the trace before it. -/
structure OpenLoop where
  index  : Nat
  count  : Nat
  before : Stretch

/-- R105, R106: the static trace of the cards from index `i` on; none on a LOOP or END fault. -/
def traceFrom (t1 : List (List Byte)) (cards : List Card) : Nat → List Card → List OpenLoop → Stretch → Option Stretch
  | _, [], loops, acc => if loops.isEmpty then some acc else none
  | i, c :: rest, loops, acc =>
    let one := fun (w : Nat) => acc.append ⟨w, [], false⟩
    match opOf c with
    | 0x0A => traceFrom t1 cards (i + 1) rest loops (acc.append ⟨0, [(fld c 111 96, 0)], false⟩)
    | 0x0B =>
      let e := i + fld c 95 72
      let landsOnEnd := match cards[e]? with
        | some ec => opOf ec == 0x0C && fld ec 95 72 == fld c 95 72
        | none => false
      if 4 ≤ loops.length || fld c 95 72 == 0 || !landsOnEnd then none
      else traceFrom t1 cards (i + 1) rest (⟨i, fld c 111 96, one 1⟩ :: loops) .empty
    | 0x0C =>
      match loops with
      | [] => none
      | l :: outer =>
        if l.index + fld c 95 72 != i then none
        else
          let body := acc.append ⟨1, [], false⟩
          traceFrom t1 cards (i + 1) rest outer (l.before.append (body.times l.count))
    | 0x3F => traceFrom t1 cards (i + 1) rest loops (acc.append ⟨1, [], true⟩)
    | _ =>
      let aix := if fld c 90 87 == 0 then 0 else 2 ^ 37
      traceFrom t1 cards (i + 1) rest loops (one (cardWaves t1 16 aix c))

/-- R105, R112: a stream's static trace, which ends in HALT. -/
def streamTrace (t1 : List (List Byte)) (cards : List Card) : Option Stretch :=
  (traceFrom t1 cards 0 cards [] .empty).filter (·.ended)

/-- R107, R110: the two traces of a position name the same knots, each with a table entry, and no stretch exceeds its
bound. -/
def tracesOk (firstBound : Nat) (knots : List KnotEntry) (f e : Stretch) : Bool :=
  let entry := fun (id : Nat) => if id == 0 then none else knots[id - 1]?
  let live := fun (id : Nat) => (entry id).elim 0 fun k => knotWaves k.liveBytes
  let ids := f.knots.map (·.1)
  let heads := (f.head + e.head) :: List.zipWith (fun a b => a.2 + b.2) f.knots e.knots
  let bounds := firstBound :: ids.map fun id => (entry id).elim 0 (·.bound)
  let ends := ids.map live ++ [0]
  ids == e.knots.map (·.1) && ids.all (fun id => (entry id).isSome)
    && ((heads.zip ends).zip bounds).all fun p => p.1.1 + p.1.2 ≤ p.2

/-! ### The tables of a deck -/

/-- R113: the fields of a header. -/
structure DeckHeader where
  size : Nat
  positions : Nat
  alts : Nat
  ufMask : Nat
  dir : Nat
  knot : Nat
  knotSize : Nat
  place : Nat
  placeSize : Nat
  stream : Nat
  streamSize : Nat
deriving DecidableEq, Repr

/-- R113: a deck's header. -/
def deckHeader (b : List Byte) : DeckHeader :=
  { size := le b 8 4, positions := le b 0xC 2, alts := le b 0xE 2, ufMask := le b 0x20 1, dir := le b 0x58 4,
    knot := le b 0x5C 4, knotSize := le b 0x60 4, place := le b 0x64 4, placeSize := le b 0x68 4,
    stream := le b 0x6C 4, streamSize := le b 0x70 4 }

/-- R114: an entry of the position directory. -/
def dirEntry (b : List Byte) (h : DeckHeader) (p : Nat) : List Byte := slice b (h.dir + 32 * p) 32

/-- R114: the knot table entries of a position. -/
def knotEntries (b : List Byte) (h : DeckHeader) (d : List Byte) : List (List Byte) :=
  (List.range (le d 22 2)).map fun k => slice b (h.knot + 16 * (le d 20 2 + k)) 16

/-- R117: every table and stream lies inside the deck. RANGE_OFFSET of an entry without ranges is held to it too, and so is
KNOT_FIRST of a position without entries (log 154, DESIGN CHOICE). -/
def deckBoundsOk (b : List Byte) (length : Nat) : Bool :=
  let h := deckHeader b
  256 ≤ b.length && h.size == length && h.dir + 32 * h.positions ≤ length && h.knot + h.knotSize ≤ length
    && h.place + h.placeSize ≤ length && h.stream + h.streamSize ≤ length
    && (List.range h.positions).all fun p =>
      let d := dirEntry b h p
      le d 0 4 + 16 * le d 4 4 ≤ length && le d 8 4 + 16 * le d 12 4 ≤ length
        && h.knot + 16 * (le d 20 2 + le d 22 2) ≤ length
        && (knotEntries b h d).all fun k => le k 8 4 + 8 * le k 12 2 ≤ length

/-- R113: the header's own checks. -/
def headerOk (b : List Byte) : Bool :=
  let h := deckHeader b
  le b 0 4 == 0x594C4443 && le b 4 2 == 1 && le b 0xFC 4 == (crc32c (b.take 0xFC)).toNat && le b 6 2 == 256
    && 1 ≤ h.positions && h.positions ≤ 64 && 1 ≤ h.alts && h.alts ≤ 16
    && (slice b 0x18 8).all (fun v => v.toNat % 128 ≤ 64) && h.ufMask < 16 && zeroAt b 0x21 7 && h.stream % 16 == 0
    && zeroAt b 0x74 136

/-- R115: the ranges of a knot table entry: space, first line, count. -/
def rangesOf (b : List Byte) (k : List Byte) : List (Bool × Nat × Nat) :=
  (List.range (le k 12 2)).map fun i =>
    let o := le k 8 4 + 8 * i
    (bitOf (le b o 4) 31, le b o 4 % 2 ^ 31, le b (o + 4) 4)

/-- R115: an entry of the knot table. -/
def knotEntryOf (b : List Byte) (k : List Byte) : KnotEntry := ⟨le k 0 4, le k 4 4, rangesOf b k⟩

/-- Whether two ranges share a line; a range of no line shares none. -/
def rangesMeet (a b : Bool × Nat × Nat) : Bool :=
  a.2.2 != 0 && b.2.2 != 0 && a.1 == b.1 && decide (a.2.1 < b.2.1 + b.2.2) && decide (b.2.1 < a.2.1 + a.2.2)

/-- R110, R115: an entry of the knot table is legal for its position. -/
def knotEntryOk (b : List Byte) (h : DeckHeader) (ways units : Nat) (k : List Byte) : Bool :=
  let e := knotEntryOf b k
  e.bound ≤ 300000 && zeroAt k 14 2 && e.liveBytes == 64 * (e.ranges.map (·.2.2)).foldl (· + ·) 0
    && (e.ranges.isEmpty || (h.knot ≤ le k 8 4 && le k 8 4 + 8 * le k 12 2 ≤ h.knot + h.knotSize))
    && e.ranges.all (fun r => r.2.1 + r.2.2 ≤ if r.1 then 256 * units else 4096 * ways)
    && e.ranges.zipIdx.all fun r => e.ranges.zipIdx.all fun q => r.2 == q.2 || !rangesMeet r.1 q.1

/-- The cards of a stream. -/
def cardsAt (b : List Byte) (off n : Nat) : List Card :=
  (List.range n).map fun i => BitVec.ofNat 128 (le b (off + 16 * i) 16)

/-- R114: a position as read. -/
def positionOf (b : List Byte) (h : DeckHeader) (p : Nat) : Position :=
  let d := dirEntry b h p
  { fetch := cardsAt b (le d 0 4) (le d 4 4), execute := cardsAt b (le d 8 4) (le d 12 4), firstBound := le d 16 4,
    knots := (knotEntries b h d).map (knotEntryOf b), ways := le d 24 1, units := le d 25 1, staticWaves := le d 28 4 }

/-- R114: a position's directory entry and knot table are legal. KNOT_FIRST is checked when KNOT_COUNT is 0 too (log 154,
DESIGN CHOICE). -/
def dirEntryOk (b : List Byte) (h : DeckHeader) (p : Nat) : Bool :=
  let d := dirEntry b h p
  let within := fun (off n : Nat) =>
    off % 16 == 0 && 1 ≤ n && n ≤ 16777216 && h.stream ≤ off && off + 16 * n ≤ h.stream + h.streamSize
  within (le d 0 4) (le d 4 4) && within (le d 8 4) (le d 12 4) && le d 16 4 ≤ 300000
    && 16 * (le d 20 2 + le d 22 2) ≤ h.knotSize && 1 ≤ le d 24 1 && le d 24 1 ≤ 16 && le d 25 1 ≤ 16 && zeroAt d 26 2
    && (knotEntries b h d).all (knotEntryOk b h (le d 24 1) (le d 25 1))

/-- R116: bytes of a placement entry. -/
def altBytes (h : DeckHeader) : Nat := roundUp (16 + h.positions) 8

/-- R116: a placement entry's bytes. -/
def altAt (b : List Byte) (h : DeckHeader) (i : Nat) : List Byte := slice b (h.place + i * altBytes h) (altBytes h)

/-- R116: a placement alternative. -/
def alternativeOf (h : DeckHeader) (a : List Byte) : Alternative :=
  { vaultDents := BitVec.ofNat 64 (le a 0 8), channels := BitVec.ofNat 16 (le a 8 2), affinity := le32 a 12,
    dents := (List.range h.positions).map fun p => le a (16 + p) 1 }

/-- R116: a placement entry is legal. -/
def altOk (h : DeckHeader) (a : List Byte) : Bool :=
  let ds := (alternativeOf h a).dents
  zeroAt a 10 2 && zeroAt a (16 + h.positions) (altBytes h - 16 - h.positions) && ds.all (· < 64)
    && ds.all fun d => ds.count d == 1

/-- R113: a deck as read. -/
def deckImage (b : List Byte) : DeckImage :=
  let h := deckHeader b
  { waves := BitVec.ofNat 64 (le b 0x10 8), bobbins := slice b 0x18 8, ufMask := BitVec.ofNat 8 h.ufMask,
    deckId := slice b 0x48 16, positions := (List.range h.positions).map (positionOf b h),
    alts := (List.range h.alts).map fun i => alternativeOf h (altAt b h i) }

/-- R78: the copies of table 0x01 agree with it; entries that the mask does not name are zero. -/
def copiesOk (t1 : List (List Byte)) (ufMask : Nat) (copies : List Byte) : Bool :=
  (List.range 4).all fun n =>
    if bitOf ufMask n then slice copies (8 * n) 8 == nth t1 n [] && (userFmt (nth t1 n [])).isSome
    else zeroAt copies (8 * n) 8

/-- R107: a KNOT card names an entry of its position's knot table, on its static trace or off it. -/
def knotNamed (knots : List KnotEntry) (c : Card) : Bool :=
  opOf c != 0x0A || (fld c 111 96 != 0 && decide (fld c 111 96 ≤ knots.length))

/-- R100 to R112: a position's cards and traces are legal. -/
def positionOk (t1 t2 : List (List Byte)) (ufMask : Nat) (bobbins : List Byte) (p : Position) : Bool :=
  p.fetch.all (cardOk t1 t2 ufMask bobbins p.ways p.units .fetch)
    && p.execute.all (cardOk t1 t2 ufMask bobbins p.ways p.units .execute)
    && (p.fetch ++ p.execute).all (knotNamed p.knots)
    && match streamTrace t1 p.fetch, streamTrace t1 p.execute with
      | some f, some e => tracesOk p.firstBound p.knots f e
      | _, _ => false

/-- The dents of a mask. -/
def dentsOf (m : DWord) : List Nat := (List.range 64).filter fun d => m.getLsbD d

/-- R35, R259: an alternative uses no unmapped dent and no absent channel. -/
def State.altUsable (s : State) (a : Alternative) : Bool :=
  a.dents.all (fun d => (s.loomOf d).isSome) && (dentsOf a.vaultDents).all (fun d => (s.loomOf d).isSome)
    && (a.channels &&& ~~~ s.units.present) == 0

/-- R117: the first failure of a deck image; none when it passes. -/
def State.deckFault (s : State) (b : List Byte) (length : Nat) : Option Status :=
  let h := deckHeader b
  let t1 := s.live.table1
  if !deckBoundsOk b length then some .badLength
  else if !headerOk b || !((List.range h.positions).all (dirEntryOk b h)) || h.placeSize < h.alts * altBytes h
      || !((List.range h.alts).all fun i => altOk h (altAt b h i)) || !copiesOk t1 h.ufMask (slice b 0x28 32) then
    some .badParam
  else
    let d := deckImage b
    if !d.positions.all (positionOk t1 s.live.table2 h.ufMask d.bobbins) then some .badParam
    else if !d.alts.any s.altUsable then some .limit
    else none

/-! ### Step programs (R199 to R206) -/

/-- R199: a step program as read. -/
structure Program where
  id         : Word
  steps      : List Card
  stepWaves  : Nat
  fillWaves  : Nat
  condLen    : Nat
  condFmt    : Nat
  ufMask     : Nat
  stateWords : Nat
  weightBytes : Nat
  init       : List Word
  /-- Model-space offset of its weights. -/
  weights    : Nat
deriving DecidableEq, Repr

/-- R201: micro-steps. -/
def microOp (c : Card) : Nat := fld c 127 120

/-- R202: N of a micro-step. -/
def microN (c : Card) : Nat := fld c 73 62 + 1

/-- R200: K of an MV. -/
def microK (c : Card) : Nat := fld c 61 50 + 1

/-- R202: bytes of packed codes in whole words. -/
def codeWords (t1 : List (List Byte)) (f n : Nat) : Nat := ceilDiv (n * containerOf t1 f) 32

/-- R205: per-stream and per-batch waves of a micro-step. -/
def microWaves (t1 : List (List Byte)) (c : Card) : Nat × Nat :=
  let lanes := ceilDiv (microN c) 128
  match microOp c with
  | 1 => (tilesOf (shuttleTile (operandClass t1 (fld c 119 116) (fld c 115 112))) (microK c) (microN c), 2)
  | 2 => (lanes, 1)
  | 3 | 4 => (2 * lanes, 1)
  | 6 => (2 * lanes + 2, 1)
  | 5 => (1, 1)
  | _ => (0, 1)

/-- R200, R206: the word ranges that a micro-step reads: in the frame space or not, first offset, count. -/
def microReads (t1 : List (List Byte)) (c : Card) : List (Bool × Nat × Nat) :=
  let src := fun (hi n : Nat) => (c.getLsbD hi, fld c (hi - 1) (hi - 12), n)
  let n := microN c
  match microOp c with
  | 1 => src 99 (1 + codeWords t1 (fld c 119 116) (microK c)) :: (if c.getLsbD 25 then [src 86 n] else [])
  | 2 =>
    let unary := 6 ≤ fld c 36 31 && fld c 36 31 ≤ 9
    src 99 n :: (if unary then [] else [src 86 (if c.getLsbD 25 then 1 else n)])
  | 3 | 4 | 6 => [src 99 n]
  | 5 => [src 99 1]
  | _ => []

/-- R201: the words that a micro-step writes at DST. -/
def microWrites (t1 : List (List Byte)) (c : Card) : Nat :=
  match microOp c with
  | 1 | 2 | 3 => microN c
  | 4 => 1 + codeWords t1 (fld c 119 116) (microN c)
  | 6 => 1
  | _ => 0

/-- The reserved bits of a micro-step, as (high, low) ranges. -/
def microReserved (c : Card) : List (Nat × Nat) :=
  let tail := (24, 0)
  match microOp c with
  | 1 => [(36, 31), (30, 29), tail]
  | 2 => [(119, 112), (61, 50), (49, 37), (30, 26), tail]
  | 3 | 6 => [(119, 112), (61, 37), (30, 25), tail]
  | 4 => [(115, 112), (61, 37), (36, 31), (28, 25), tail]
  | 5 => [(119, 112), (61, 25), tail]
  | _ => [(119, 112), (61, 25), tail]

/-- R198, R206: bytes of an MV's weight tiles and scales from its first tile. -/
def microWeightBytes (t1 : List (List Byte)) (c : Card) : Nat :=
  let shape := shuttleTile (operandClass t1 (fld c 119 116) (fld c 115 112))
  let scales := ceilDiv (microK c) (groupOf (fld c 28 27)) * rowLines t1 (if c.getLsbD 26 then 5 else 0xC) (microN c)
  64 * (tilesOf shape (microK c) (microN c) * tileLines t1 shape (fld c 115 112) + scales)

/-- R206: one micro-step of a program is legal. -/
def microOk (t1 : List (List Byte)) (ufMask stateWords condLen weightBytes : Nat) (c : Card) : Bool :=
  let op := microOp c
  let uf := fun (f : Nat) => !(8 ≤ f && f ≤ 0xB) || bitOf ufMask (f - 8)
  let dst := fld c 111 100
  let w := microWrites t1 c
  ((1 ≤ op && op ≤ 6) || op == 0xF)
    && (microReserved c).all (fun r => fld c r.1 r.2 == 0)
    && (op != 1 || (arrayFormat t1 (fld c 119 116) && arrayFormat t1 (fld c 115 112) && uf (fld c 119 116)
      && uf (fld c 115 112) && fld c 28 27 != 3 && !c.getLsbD 99 && !(c.getLsbD 25 && c.getLsbD 86)
      && fld c 49 37 * 512 + microWeightBytes t1 c ≤ weightBytes))
    && (op != 2 || fld c 36 31 ≤ 0xB)
    && (op != 4 || (arrayFormat t1 (fld c 119 116) && uf (fld c 119 116) && fld c 30 29 != 3))
    && (op != 5 || fld c 73 62 == 0)
    && (w == 0 || dst + w ≤ stateWords)
    && (microReads t1 c).all fun r =>
      r.2.1 + r.2.2 ≤ (if r.1 then condLen else stateWords)
        && (r.1 || w == 0 || !(decide (dst < r.2.1 + r.2.2) && decide (r.2.1 < dst + w)))

/-- R199: a step program read from model space at an offset. -/
def State.programAt (s : State) (o : Nat) : Program :=
  let b := s.modelRead o 128
  { id := le32 b 8,
    steps := cardsAt (s.modelRead (o + le b 0x3C 4) (16 * le b 6 2)) 0 (le b 6 2),
    stepWaves := le b 0xC 2, fillWaves := le b 0xE 2, condLen := le b 0x10 2, condFmt := le b 0x12 1,
    ufMask := le b 0x13 1, stateWords := le b 0x34 2, weightBytes := le b 0x38 4,
    init :=
      let w := s.modelRead (o + le b 0x40 4) (4 * le b 0x34 2)
      (List.range (le b 0x34 2)).map fun i => le32 w (4 * i),
    weights := o + le b 0x44 4 }

/-- R199: the ranges of a program's header; its parts lie within `room` bytes. -/
def programHeaderOk (b : List Byte) (room : Nat) : Bool :=
  let cond := le b 0x10 2; let fmt := le b 0x12 1
  le b 0 4 == 0x53545031 && le b 4 2 == 1 && 2 ≤ le b 6 2 && le b 6 2 ≤ 1024 && le b 8 4 != 0
    && 1 ≤ le b 0xC 2 && le b 0xC 2 ≤ 4096 && 1 ≤ cond && cond ≤ (if fmt == 7 then 252 else 504)
    && 5 ≤ fmt && fmt ≤ 7 && le b 0x13 1 < 16 && 1 ≤ le b 0x34 2 && le b 0x34 2 ≤ 1664 && zeroAt b 0x36 2
    && le b 0x38 4 % 512 == 0 && le b 0x38 4 ≤ 4194304 && le b 0x44 4 % 512 == 0 && zeroAt b 0x48 52
    && le b 0x7C 4 == (crc32c (b.take 0x7C)).toNat
    && le b 0x3C 4 + 16 * le b 6 2 ≤ room && le b 0x40 4 + 4 * le b 0x34 2 ≤ room && le b 0x44 4 + le b 0x38 4 ≤ room

/-- R206: a step program in model space passes, `room` bytes of its model following its offset. -/
def State.programOk (s : State) (o room : Nat) : Bool :=
  let b := s.modelRead o 128
  let t1 := s.live.table1
  if room < 128 || !programHeaderOk b room || !copiesOk t1 (le b 0x13 1) (slice b 0x14 32) then false
  else
    let p := s.programAt o
    let waves := p.steps.map (microWaves t1)
    let fill := (waves.map (·.2)).foldl (· + ·) 0
    p.steps.all (microOk t1 p.ufMask p.stateWords p.condLen p.weightBytes)
      && (p.steps.map microOp).findIdx? (· == 0xF) == some (p.steps.length - 1)
      && p.fillWaves == fill && p.stepWaves == fill + (waves.map (·.1)).foldl (· + ·) 0

end Sys2Proof.Machine
end

