-- ==== Sys2Proof/Machine/RingOps.lean ====
section
/-!
DEFINITION. The Ring recorder's operations (R547 to R557): queueing an event, writing a record.
-/
namespace Sys2Proof.Machine

open Sys2Proof

/-- R547: slots of the lifetime class. -/
def lifetimeSlots : Nat := 2048

/-- R547: slots of the service class. -/
def serviceSlots : Nat := 8192

/-- Change the recorder. -/
def State.mapRecorder (s : State) (f : Recorder → Recorder) : State := { s with recorder := f s.recorder }

/-- R555: an event enters its class's queue, is lost when the queue is full, and is not recorded when the class is
full (R549). `mk` forms the record's bytes before SEQ and CRC from LOST. -/
def RingClass.enqueue (c : RingClass) (slots : Nat) (mk : Nat → List Byte) : RingClass :=
  if slots ≤ c.slots.length + c.queue.length then c
  else if 64 ≤ c.queue.length then { c with lost := min (c.lost + 1) 255 }
  else { c with queue := c.queue ++ [mk c.lost], lost := 0 }

/-- R552, R553: a lifetime event is queued, with the clocks of this moment. -/
def Recorder.lifetimeEvent (r : Recorder) (code kind unit status : Nat) (detail : List Byte) : Recorder :=
  { r with lifetime := r.lifetime.enqueue lifetimeSlots fun lost =>
      leBytes 2 code ++ leBytes 1 kind ++ leBytes 1 lost ++ leBytes 4 r.minutes.toNat ++ leBytes 4 r.cycles.toNat
        ++ leBytes 2 unit ++ leBytes 2 status ++ padTo 44 detail }

/-- R554: a service event is queued; SEQ is filled in when the record is written. -/
def Recorder.serviceEvent (r : Recorder) (code : Nat) (detail : List Byte) : Recorder :=
  { r with service := r.service.enqueue serviceSlots fun lost =>
      leBytes 2 code ++ zeros 1 ++ leBytes 1 lost ++ zeros 4 ++ padTo 20 detail }

/-- R557: an event is queued, or waits while PD_127 is off. -/
def State.record (s : State) (e : LateEvent) : State :=
  s.mapRecorder fun r =>
    if !s.domainOn 127 then { r with late := r.late ++ [e] }
    else if e.lifetime then r.lifetimeEvent e.code e.kind e.unit e.status e.detail
    else r.serviceEvent e.code e.detail

/-- R558: a lifetime event. -/
def State.lifetime (s : State) (code kind unit status : Nat) (detail : List Byte) : State :=
  s.record ⟨true, code, kind, unit, status, detail⟩

/-- R559: a service event. -/
def State.service (s : State) (code : Nat) (detail : List Byte) : State := s.record ⟨false, code, 0, 0, 0, detail⟩

/-- R557: the events that waited for PD_127 are queued when it is on again. -/
def State.flushLate (s : State) : State :=
  s.recorder.late.foldl State.record (s.mapRecorder fun r => { r with late := [] })

/-- R553: a lifetime record complete with its CRC. -/
def sealLifetime (b : List Byte) : List Byte := b ++ leBytes 4 (crc32 b).toNat

/-- R554: a service record complete with SEQ and CRC. -/
def sealService (seq : Nat) (b : List Byte) : List Byte :=
  let b := b.take 4 ++ leBytes 4 seq ++ b.drop 8
  b ++ leBytes 4 (crc32 b).toNat

/-- R555: the recorder writes one record, oldest first, lifetime before service. -/
def Recorder.writeOne (r : Recorder) : Recorder :=
  match r.lifetime.queue, r.service.queue with
  | b :: rest, _ =>
    if lifetimeSlots ≤ r.lifetime.slots.length then { r with lifetime := { r.lifetime with queue := rest } }
    else { r with lifetime := { r.lifetime with queue := rest, slots := r.lifetime.slots ++ [sealLifetime b] } }
  | [], b :: rest =>
    if serviceSlots ≤ r.service.slots.length then { r with service := { r.service with queue := rest } }
    else { r with service := { r.service with
      queue := rest, slots := r.service.slots ++ [sealService r.service.slots.length b] } }
  | [], [] => r

/-- R555: `n` records written. -/
def Recorder.writeMany : Nat → Recorder → Recorder
  | 0, r => r
  | n + 1, r => writeMany n r.writeOne

/-- R557: the wait of a reset or an entry for the recorder's queues: every queued record is written. -/
def Recorder.drain (r : Recorder) : Recorder := r.writeMany (r.lifetime.queue.length + r.service.queue.length)

/-- R556: a write cut short after `n` of the record's bytes: the slot is used and its CRC fails; after no byte it is
free. -/
def Recorder.cutWrite (r : Recorder) (n : Nat) : Recorder :=
  let cut := fun (size : Nat) (b : List Byte) => padTo size (b.take n)
  match r.lifetime.queue, r.service.queue with
  | b :: _, _ =>
    if lifetimeSlots ≤ r.lifetime.slots.length then r
    else { r with lifetime := { r.lifetime with slots := r.lifetime.slots ++ [cut 64 b] } }
  | [], b :: _ =>
    if serviceSlots ≤ r.service.slots.length then r
    else { r with service := { r.service with slots := r.service.slots ++ [cut 32 (sealService r.service.slots.length b)] } }
  | [], [] => r

/-- R551: the minute value of a checkpoint: the next multiple of 64, so that the clock never runs backwards (log 17). -/
def checkpointMinute (minutes : Word) : Word := BitVec.ofNat 32 (min (64 * (minutes.toNat / 64 + 1)) (2 ^ 32 - 1))

/-- R551: the clock counts are checkpointed in the boot flash. -/
def State.checkpoint (s : State) : State :=
  { s with flash := { s.flash with checkpoint := some (s.recorder.cycles, checkpointMinute s.recorder.minutes) } }

/-- R556: a stored slot whose CRC fails. -/
def slotBad (b : List Byte) : Bool := le b (b.length - 4) 4 != (crc32 (b.take (b.length - 4))).toNat

end Sys2Proof.Machine
end

