-- ==== Sys2Proof/Machine/SysSpace.lean ====
section
/-!
DEFINITION. The records that system space holds (R118, R209, R260, R262): their bytes, what a debug write has changed in them
(R525), and the checks at a read (R120, R225); and the hot copies of model data (R241, R255, R380).
-/
namespace Sys2Proof.Machine

open Sys2Proof

/-! ### Bytes of blocks -/

/-- R260: the key of a block's first byte. -/
def blockKey (b : Nat × Nat) : Nat := vaultKey b.1 (b.2 * blockBytes)

/-- The parts of a range of a list of blocks, laid end to end: key, offset from the start, length. -/
def blockParts (blocks : List (Nat × Nat)) (off len : Nat) : List (Nat × Nat × Nat) :=
  (granulesOf blockBytes off len).map fun p =>
    (blockKey (nth blocks ((off + p.1) / blockBytes) (0, 0)) + (off + p.1) % blockBytes, p.1, p.2)

/-- R525: no byte of a range of blocks differs from what its owner last wrote. -/
def State.intact (s : State) (blocks : List (Nat × Nat)) (off len : Nat) : Bool :=
  match s.memory.altered with
  | [] => true
  | m => (blockParts blocks off len).all fun p => (m.read p.1 p.2.2).all (· == 0)

/-- The bytes that blocks hold, of a record whose owner last wrote `bs` at `off`. -/
def State.seen (s : State) (blocks : List (Nat × Nat)) (off : Nat) (bs : List Byte) : List Byte :=
  (blockParts blocks off bs.length).flatMap fun p =>
    List.zipWith (· ^^^ ·) (slice bs p.2.1 p.2.2) (s.memory.altered.read p.1 p.2.2)

/-- A range of blocks written by its owner. -/
def State.rewrote (s : State) (blocks : List (Nat × Nat)) (off len : Nat) : State :=
  match s.memory.altered with
  | [] => s
  | m => { s with memory := { s.memory with
      altered := (blockParts blocks off len).foldl (fun m p => m.clear p.1 p.2.2) m } }

/-- A byte of a record changed by a debug write: `old` is what its owner last wrote there. -/
def State.alter (s : State) (key : Nat) (old new : Byte) : State :=
  { s with memory := { s.memory with altered := s.memory.altered.set key (old ^^^ new) } }

/-! ### Records -/

/-- CRC-32C of every byte of a record but the four at `at_`. -/
def recordCrc (r : List Byte) (at_ : Nat) : Nat := (crc32c (r.take at_ ++ r.drop (at_ + 4))).toNat

/-- A record's CRC is right. -/
def crcRight (r : List Byte) (at_ : Nat) : Bool := le r at_ 4 == recordCrc r at_

/-- A record with its CRC put in. -/
def sealRecord (r : List Byte) (at_ : Nat) : List Byte := r.take at_ ++ leBytes 4 (recordCrc r at_) ++ r.drop (at_ + 4)

/-- FP32 words at an offset. -/
def wordsAt (r : List Byte) (off n : Nat) : List Word := (List.range n).map fun i => le32 r (off + 4 * i)

/-- R209: bytes of a Shuttle context's record. -/
def shuttleRecordBytes : Nat := 8192

/-- R209: the record of a Shuttle context. -/
def ShuttleCtx.record (x : ShuttleCtx) (id : Word) (rate fade : Nat) (companion : Bool) : List Byte :=
  let flags := (if x.inFrame then 1 else 0) + (if companion then 2 else 0) + (if x.ended then 4 else 0)
  sealRecord (leBytes 4 0x53484331 ++ leBytes 2 1 ++ leBytes 2 flags ++ leBytes 4 id.toNat ++ leBytes 4 x.program.toNat
    ++ leBytes 4 rate ++ leBytes 2 x.done ++ leBytes 2 fade ++ leBytes 8 x.step.toNat ++ x.key
    ++ leBytes 4 x.arithFlags.toNat ++ leBytes 4 x.nextSeq.toNat ++ leBytes 4 x.badFrames.toNat
    ++ leBytes 4 x.dupFrames.toNat ++ leBytes 4 x.moves.toNat ++ zeros 172 ++ padTo 1024 x.frame
    ++ padTo 6656 (x.words.flatMap fun w => leBytes 4 w.toNat) ++ zeros 256) 0x1FFC

/-- R209: the context that a record holds. -/
def ShuttleCtx.ofRecord (r : List Byte) : ShuttleCtx :=
  { program := le32 r 0xC, inFrame := bitOf (le r 6 2) 0, ended := bitOf (le r 6 2) 2, done := le r 0x14 2,
    step := BitVec.ofNat 64 (le r 0x18 8), key := slice r 0x20 32, arithFlags := le32 r 0x40, nextSeq := le32 r 0x44,
    badFrames := le32 r 0x48, dupFrames := le32 r 0x4C, moves := le32 r 0x50, frame := slice r 0x100 1024,
    words := wordsAt r 0x500 1664 }

/-- R260: the block of a stream's save area. -/
def Stream.saveBlocks (t : Stream) : List (Nat × Nat) := [(t.saveVault, t.saveBlock)]

/-- R209, R218: the record of a stream's context as last written. -/
def Stream.savedRecord (t : Stream) : List Byte :=
  t.saved.record t.id t.rate ((t.savedCompanion.map fun k => k.2.1).getD 0) false

/-- R225 step 5, R226: a stream's context as its save area holds it; none when its CRC, its stream id or its NEXT_SEQ is not
that of the stream's run-list entry. -/
def State.readSaved (s : State) (t : Stream) (nextSeq : Word) : Option ShuttleCtx :=
  if s.intact t.saveBlocks 0 shuttleRecordBytes then (if t.saved.nextSeq == nextSeq then some t.saved else none)
  else
    let r := s.seen t.saveBlocks 0 t.savedRecord
    if crcRight r 0x1FFC && le32 r 8 == t.id && le32 r 0x44 == nextSeq then some (ShuttleCtx.ofRecord r) else none

/-- R213, R540: the slots that W has passed are free. -/
def Stream.freeRing (t : Stream) : Stream :=
  let live := fun (q : Word) => (q - t.saved.nextSeq).toNat < 2 ^ 31
  { t with ring := t.ring.filter fun e => live e.1, committed := t.committed.filter live }

/-- R218: a context written to its save area. -/
def Stream.write (t : Stream) : Stream :=
  { t with saved := t.ctx, savedCompanion := (t.companion.map fun k => (k, t.fadeStep, t.fadeOld)), redo := none }.freeRing

/-- R218, R260: the records of streams that have been written. -/
def State.wroteContexts (s : State) (ts : List Stream) : State :=
  ts.foldl (fun s t => s.rewrote t.saveBlocks 0 shuttleRecordBytes) s

/-- R118: bytes of a Loom context's record. -/
def loomRecordBytes : Nat := 2048

/-- R118: a loop stack. -/
def loopBytes (ls : List (Nat × Nat)) : List Byte :=
  padTo 64 (ls.flatMap fun l => leBytes 4 l.1 ++ leBytes 4 l.2 ++ zeros 8)

/-- R118: the record of a Loom context. -/
def Arch.record (x : Arch) (job : Word) (position ways units : Nat) (bobbins : List Byte) : List Byte :=
  let flags := (if x.fetch.halted then 1 else 0) + (if x.execute.halted then 2 else 0)
  let index := fun (g : EngineState) => g.ix.flatMap fun v => leBytes 8 v.toNat
  sealRecord (leBytes 4 0x54584331 ++ leBytes 2 1 ++ leBytes 2 flags ++ leBytes 4 job.toNat ++ leBytes 2 position
    ++ leBytes 1 ways ++ leBytes 1 units ++ padTo 8 bobbins ++ leBytes 4 x.knotCount.toNat ++ leBytes 4 x.arithFlags.toNat
    ++ leBytes 8 x.fetch.card ++ leBytes 8 x.execute.card ++ index x.fetch ++ index x.execute ++ loopBytes x.fetch.loops
    ++ loopBytes x.execute.loops ++ padTo 32 x.key ++ leBytes 8 x.execStep.toNat ++ leBytes 8 x.waves.toNat
    ++ leBytes 8 x.sinceKnot.toNat ++ leBytes 8 x.overrun.toNat ++ x.bobbins.flatMap (fun b => leBytes 2 b.length)
    ++ padTo 32 x.fetchKey ++ leBytes 8 x.fetchStep.toNat ++ zeros 472
    ++ x.bobbins.flatMap fun b => padTo 128 (b.flatMap fun v => leBytes 2 v.toNat)) 0x3FC

/-- R118: the engine state that a record holds. -/
def EngineState.ofRecord (r : List Byte) (halted : Bool) (card ix loops : Nat) : EngineState :=
  { halted := halted, card := le r card 8, ix := (List.range 16).map fun i => BitVec.ofNat 64 (le r (ix + 8 * i) 8),
    loops := ((List.range 4).map fun i => (le r (loops + 16 * i) 4, le r (loops + 16 * i + 4) 4)).takeWhile fun l => l.1 != 0 }

/-- R118: the architectural state that a record holds. -/
def Arch.ofRecord (r : List Byte) : Arch :=
  { fetch := EngineState.ofRecord r (bitOf (le r 6 2) 0) 0x20 0x30 0x130,
    execute := EngineState.ofRecord r (bitOf (le r 6 2) 1) 0x28 0xB0 0x170,
    knotCount := le32 r 0x18, arithFlags := le32 r 0x1C, key := slice r 0x1B0 32, execStep := BitVec.ofNat 64 (le r 0x1D0 8),
    waves := BitVec.ofNat 64 (le r 0x1D8 8), sinceKnot := BitVec.ofNat 64 (le r 0x1E0 8),
    overrun := BitVec.ofNat 64 (le r 0x1E8 8), fetchKey := slice r 0x200 32, fetchStep := BitVec.ofNat 64 (le r 0x220 8),
    bobbins := (List.range 8).map fun b =>
      (List.range (le r (0x1F0 + 2 * b) 2)).map fun i => BitVec.ofNat 16 (le r (0x400 + 128 * b + 2 * i) 2) }

/-- R118: the record of an architectural state of a context. -/
def State.archRecord (s : State) (c : Ctx) (x : Arch) : List Byte :=
  let p := (s.job? c.job).bind fun j => j.image.positions[c.position]?
  x.record c.job c.position (p.elim 0 (·.ways)) (p.elim 0 (·.units)) ((s.job? c.job).elim [] (·.image.bobbins))

/-- R120: an architectural state as the record at an offset of a context's blocks holds it; none when its CRC fails. -/
def State.readArch (s : State) (c : Ctx) (blocks : List (Nat × Nat)) (off : Nat) (x : Arch) : Option Arch :=
  if s.intact blocks off loomRecordBytes then some x
  else
    let r := s.seen blocks off (s.archRecord c x)
    if crcRight r 0x3FC then some (Arch.ofRecord r) else none

/-- R108, R242: offset of a knot slot in its pair: knot n takes slot n modulo 2 (DESIGN CHOICE, log 163). -/
def Ctx.slotAt (c : Ctx) (k : KnotSlot) : Nat := k.arch.knotCount.toNat % 2 * (c.knotBytes / 2)

/-- R120: the current knot slot as its blocks hold it; none when the CRC of its record fails. -/
def State.readKnot (s : State) (c : Ctx) (k : KnotSlot) : Option KnotSlot :=
  if c.knotBlocks.isEmpty then some k
  else (s.readArch c c.knotBlocks (c.slotAt k + 64) k.arch).map fun x => { k with arch := x }

/-! ### Bytes of system space (R260, R262, R525) -/

/-- What a byte of system space is part of: a record with a CRC, under its key, with what its owner last wrote; a frame record
in the ring; a byte of a sample; a saved line of a context; a line of a knot slot; a result. -/
inductive SysPlace where
  | record (key : Nat) (old : Byte)
  | frame (stream seq : Word) (off : Nat)
  | sample (stream : Word) (index byte : Nat)
  | line (job : Word) (position : Nat) (stripe : Bool) (addr : Nat)
  | live (job : Word) (position : Nat) (stripe : Bool) (addr : Nat)
  | result (job : Word) (off : Nat)
deriving DecidableEq, Repr

/-- R260: a byte of a stream's save area. -/
def Stream.sysPlace (t : Stream) (off : Nat) : Option SysPlace :=
  if off < shuttleRecordBytes then
    some (.record (blockKey (t.saveVault, t.saveBlock) + off) (t.savedRecord.getD off 0))
  else if off < 0xA000 then
    (t.ring.find? fun e => e.1.toNat % 32 == (off - 0x2000) / 1024).map fun e => .frame t.id e.1 (off % 1024)
  else if off < 0x12000 then
    ((List.range t.samples.length).find? fun i => (t.taken + i) % 8192 == (off - 0xA000) / 4).map fun i =>
      .sample t.id i (off % 4)
  else none

/-- The lines of a knot slot's live ranges, laid end to end (R115). -/
def liveAt : List (Bool × Nat × Nat) → Nat → Option (Bool × Nat)
  | [], _ => none
  | r :: rs, off => if off < 64 * r.2.2 then some (r.1, 64 * r.2.1 + off) else liveAt rs (off - 64 * r.2.2)

/-- R260: a byte of a Loom context's save area: its record, its scratch, its stripe buffer. -/
def State.savePlace (s : State) (c : Ctx) (off : Nat) : Option SysPlace :=
  let ways := ((s.job? c.job).bind fun j => j.image.positions[c.position]?).elim 0 (·.ways)
  if off < loomRecordBytes then
    some (.record (blockKey (nth c.blocks 0 (0, 0)) + off) ((s.archRecord c c.arch).getD off 0))
  else if off < loomRecordBytes + 262144 * ways then some (.line c.job c.position false (off - loomRecordBytes))
  else some (.line c.job c.position true (off - loomRecordBytes - 262144 * ways))

/-- R242: a byte of a pair of knot slots in system space; those of the slot headers and of the slot that is not current are
none that the model holds. -/
def State.knotPlace (s : State) (c : Ctx) (off : Nat) : Option SysPlace :=
  c.knot.bind fun k =>
    let base := c.slotAt k + 64
    if off < base then none
    else if off < base + loomRecordBytes then
      let key := blockKey (nth c.knotBlocks (off / blockBytes) (0, 0)) + off % blockBytes
      some (.record key ((s.archRecord c k.arch).getD (off - base) 0))
    else
      let ranges := ((s.job? c.job).bind fun j => j.image.positions[c.position]?).elim [] fun p =>
        (p.knots[k.entry - 1]?).elim [] (·.ranges)
      (liveAt ranges (off - base - loomRecordBytes)).map fun l => .live c.job c.position l.1 l.2

/-- R260, R262: what a byte of system space is part of; none of what the model does not hold as such bytes (log 27). -/
def State.sysPlace (s : State) (v off : Nat) : Option SysPlace :=
  let b := (v, off / blockBytes); let o := off % blockBytes
  let linear := fun (bs : List (Nat × Nat)) => (bs.findIdx? fun x => x == b).map fun i => i * blockBytes + o
  ((s.audio.streams.find? fun t => t.saveBlocks == [b]).bind fun t => t.sysPlace o).orElse fun _ =>
    (s.sched.ctxs.findSome? fun c => (linear c.blocks).bind (s.savePlace c)).orElse fun _ =>
      (s.sched.ctxs.findSome? fun c => (linear c.knotBlocks).bind (s.knotPlace c)).orElse fun _ =>
        s.sched.jobs.findSome? fun j => (linear j.resultBlocks).bind fun n =>
          if n < j.result.length then some (.result j.id n) else none

/-- A sample in the four bytes of its place: the 24 bits, the least significant byte first, then zero (log 171, DESIGN CHOICE). -/
def sampleBytes (v : BitVec 24) : List Byte := leBytes 4 v.toNat

/-- R525: a byte of system space as it is read. -/
def State.sysByte (s : State) (p : SysPlace) : Byte :=
  match p with
  | .record key old => old ^^^ s.memory.altered.get key
  | .frame id seq off => ((s.stream? id).bind fun t => (t.ring.find? fun e => e.1 == seq).map fun e => e.2.getD off 0).getD 0
  | .sample id i n => ((s.stream? id).bind fun t => (t.samples[i]?).map fun v => (sampleBytes v).getD n 0).getD 0
  | .line job pos stripe a => ((s.ctx? job pos).map fun c => (if stripe then c.stripe else c.scratch).get a).getD 0
  | .live job pos stripe a =>
    ((s.ctx? job pos).bind (·.knot)).elim 0 fun k => (if stripe then k.stripe else k.scratch).get a
  | .result job n => ((s.job? job).map fun j => j.result.getD n 0).getD 0

/-- R525: a byte of system space as a debug access writes it. -/
def State.sysWrite (s : State) (p : SysPlace) (b : Byte) : State :=
  match p with
  | .record key old => s.alter key old b
  | .frame id seq off =>
    s.mapStream id fun t => { t with ring := t.ring.map fun e => if e.1 == seq then (e.1, e.2.set off b) else e }
  | .sample id i n =>
    s.mapStream id fun t =>
      { t with samples := t.samples.modify i fun v => BitVec.ofNat 24 (leNat ((sampleBytes v).set n b)) }
  | .line job pos stripe a =>
    s.mapCtx job pos fun c => if stripe then { c with stripe := c.stripe.set a b } else { c with scratch := c.scratch.set a b }
  | .live job pos stripe a =>
    s.mapCtx job pos fun c => { c with knot := c.knot.map fun k =>
      if stripe then { k with stripe := k.stripe.set a b } else { k with scratch := k.scratch.set a b } }
  | .result job n => s.mapJob job fun j => { j with result := j.result.set n b }

/-! ### Hot copies (R241, R255, R380) -/

/-- R241: bytes of a dent's hot region. -/
def State.hotRegion (s : State) : Nat := 64 * 2 ^ 20 * fld s.units.layout 3 0

/-- The parts of a dent's hot region that copies take. -/
def State.hotTaken (s : State) (dent : Nat) : List (Nat × Nat) :=
  s.sched.models.flatMap fun m => m.hot.flatMap fun h => (h.copies.filter fun c => c.1 == dent).flatMap (·.2)

/-- The first parts of a region that nothing takes, `need` bytes in all (DESIGN CHOICE, log 164). -/
def freeParts (region : Nat) : List (Nat × Nat) → Nat → Nat → List (Nat × Nat)
  | [], start, need => if need == 0 then [] else [(start, min need (region - start))]
  | t :: ts, start, need =>
    let n := min need (t.1 - start)
    (if n == 0 then [] else [(start, n)]) ++ freeParts region ts (max start (t.1 + t.2)) (need - n)

/-- The parts of a list of parts that hold `len` bytes from offset `off`. -/
def partsAt : List (Nat × Nat) → Nat → Nat → List (Nat × Nat)
  | [], _, _ => []
  | p :: ps, off, len =>
    if p.2 ≤ off then partsAt ps (off - p.2) len
    else
      let n := min len (p.2 - off)
      if n == 0 then [] else (p.1 + off, n) :: partsAt ps 0 (len - n)

/-- R241: the key of a byte of a dent's hot region. -/
def State.hotKey (s : State) (dent off : Nat) : Nat := vaultKey ((s.homeOf dent).getD 0) (s.jobRegion + off)

/-- R255, R380: one hot entry's copies placed and written. -/
def State.writeHot (s : State) (m : Model) (h : HotRange) : HotRange × State :=
  let bytes := s.modelRead (m.base + h.offset) h.length
  let dents := (List.range 64).filter fun d => h.dents.getLsbD d && (s.homeOf d).isSome
  dents.foldl (fun (acc : HotRange × State) d =>
    let (h, s) := acc
    let taken := s.hotTaken d ++ (h.copies.filter fun c => c.1 == d).flatMap (·.2)
    let parts := freeParts s.hotRegion (sortBy (·.1) taken) 0 h.length
    let s := (parts.foldl (fun (acc : Nat × State) p =>
      (acc.1 + p.2, acc.2.mapVault fun v => v.write (s.hotKey d p.1) (slice bytes acc.1 p.2))) (0, s)).2
    ({ h with copies := h.copies ++ [(d, parts)] }, s)) (h, s)

/-- R255: the hot entry that holds a byte of model space, with the byte's offset in it. -/
def State.hotAt (s : State) (o : Nat) : Option (HotRange × Nat) :=
  s.sched.models.findSome? fun m =>
    if o < m.base then none
    else (m.hot.find? fun h => decide (h.offset ≤ o - m.base) && decide (o - m.base < h.offset + h.length)).map fun h =>
      (h, o - m.base - h.offset)

/-- R255: the copy of a hot entry that a reader takes: of its own dent, else of the lowest of its alternative's dents, else of
the lowest named. -/
def HotRange.copyFor (h : HotRange) (dent : Option Nat) (dents : DWord) : Option (Nat × List (Nat × Nat)) :=
  (h.copies.find? fun c => some c.1 == dent).orElse fun _ =>
    (h.copies.find? fun c => dents.getLsbD c.1).orElse fun _ => h.copies.head?

/-- R255: where a reader finds a byte of model space: the key in a vault of a hot copy, else the external copy. -/
def State.modelCopy (s : State) (o : Nat) (dent : Option Nat) (dents : DWord) : Option Loc :=
  let hot := (s.hotAt o).bind fun h => (h.1.copyFor dent dents).bind fun c =>
    ((partsAt c.2 h.2 1).head?).map fun p => Loc.vault (s.hotKey c.1 p.1)
  hot.orElse fun _ => (s.modelLoc o).map Loc.chan

/-- R255: bytes of model space as a reader finds them. -/
def State.modelReadBy (s : State) (o len : Nat) (dent : Option Nat) (dents : DWord) : List Byte :=
  (granulesOf 8192 o len).flatMap fun p =>
    match s.modelCopy (o + p.1) dent dents with
    | some l => s.readLoc l p.2
    | none => zeros p.2

end Sys2Proof.Machine
end

