-- ==== Sys2Proof/Machine/Topology.lean ====
section
/-!
DEFINITION. Systems of several devices: shapes and links (R304, R305), routes (R306, R325) and the root's walk (R308).
-/
namespace Sys2Proof.Machine

open Sys2Proof

/-! ### Shapes (R304, R305) -/

/-- R304: X, Y and Z of a system size. -/
def shapeOf (devices : Nat) : Option (Nat × Nat × Nat) :=
  match devices with
  | 1 => some (1, 1, 1)
  | 2 => some (2, 1, 1)
  | 4 => some (2, 2, 1)
  | 8 => some (2, 2, 2)
  | 16 => some (4, 4, 1)
  | 32 => some (4, 4, 2)
  | 64 => some (4, 4, 4)
  | _ => none

/-- R304: the size of dimension 0 (x), 1 (y) or 2 (z) of a system. -/
def dimSize (devices dim : Nat) : Nat :=
  match shapeOf devices with
  | none => 1
  | some (x, y, z) => if dim == 0 then x else if dim == 1 then y else z

/-- R304: a device's coordinate in a dimension. -/
def coordOf (devices d dim : Nat) : Nat :=
  let x := dimSize devices 0; let y := dimSize devices 1
  if dim == 0 then d % x else if dim == 1 then d / x % y else d / (x * y)

/-- R304: the device number one step along a dimension, forward or back, in its ring. -/
def stepFrom (devices d dim : Nat) (plus : Bool) : Nat :=
  let n := dimSize devices dim; let c := coordOf devices d dim
  let c' := if plus then (c + 1) % n else (c + n - 1) % n
  let unit := if dim == 0 then 1 else if dim == 1 then dimSize devices 0 else dimSize devices 0 * dimSize devices 1
  d - c * unit + c' * unit

/-- R304, R305: the dimension of a port; with 16 devices SV_4 and SV_5 are the second x ring. -/
def dimOf (devices port : Nat) : Nat := if port / 2 == 2 && devices == 16 then 0 else port / 2

/-- R305: the device and port that a port connects to; none for an unused port. -/
def farEnd (devices d port : Nat) : Option (Nat × Nat) :=
  let dim := dimOf devices port
  if dimSize devices dim ≤ 1 then none
  else if port % 2 == 0 then some (stepFrom devices d dim true, port + 1)
  else some (stepFrom devices d dim false, port - 1)

/-! ### Routes (R305, R306, R325) -/

/-- Whether the link of a port is up, at both its ends. -/
def linkUp (devices : Nat) (wires : List (Nat × Nat)) (d port : Nat) : Bool :=
  wires.contains (d, port) && (farEnd devices d port).any wires.contains

/-- R305: the ports of a device that lead one step along a dimension and whose links are up, in ascending order. -/
def stepPorts (devices : Nat) (wires : List (Nat × Nat)) (d dim : Nat) (plus : Bool) : List Nat :=
  (List.range 6).filter fun p =>
    dimOf devices p == dim && (farEnd devices d p).any (fun f => f.1 == stepFrom devices d dim plus)
      && linkUp devices wires d p

/-- R305: of a link pair the lower port carries class 0 and even bindings, the higher the odd bindings; one link alone
carries everything. -/
def portFor (ports : List Nat) (odd : Bool) : Option Nat := if odd then ports.getLast? else ports.head?

/-- R306: the moves along one dimension: how many, and the direction with fewer hops, + when they tie. -/
def movesAlong (devices a b dim : Nat) : Nat × Bool :=
  let n := dimSize devices dim
  let up := (coordOf devices b dim + n - coordOf devices a dim) % n
  if up ≤ n - up || up == 0 then (up, true) else (n - up, false)

/-- R325: the moves along a dimension, with its direction reversed when it is the dimension named. -/
def movesWith (devices a b dim : Nat) (reversed : Option Nat) : Nat × Bool :=
  let m := movesAlong devices a b dim
  if reversed == some dim && m.1 != 0 then (dimSize devices dim - m.1, !m.2) else m

/-- A path over steps of (dimension, direction): the ports taken, or none where no link is up. -/
def followSteps (devices : Nat) (wires : List (Nat × Nat)) (odd : Bool) : List (Nat × Bool) → Nat → Option (List (Nat × Nat))
  | [], _ => some []
  | (dim, plus) :: rest, d =>
    match portFor (stepPorts devices wires d dim plus) odd with
    | none => none
    | some p => (followSteps devices wires odd rest (stepFrom devices d dim plus)).map ((d, p) :: ·)

/-- R325: the paths in their order: the preferred route, that with one dimension reversed, the other dimension orders. -/
def pathPlans : List (List Nat × Option Nat) :=
  [([0, 1, 2], none), ([0, 1, 2], some 0), ([0, 1, 2], some 1), ([0, 1, 2], some 2), ([1, 2, 0], none), ([2, 0, 1], none),
   ([0, 2, 1], none), ([1, 0, 2], none), ([2, 1, 0], none)]

/-- R306, R325: the route from a device to another: the ports that it takes, or none. -/
def pathOf (devices : Nat) (wires : List (Nat × Nat)) (odd : Bool) (a b : Nat) : Option (List (Nat × Nat)) :=
  pathPlans.findSome? fun plan =>
    let steps := plan.1.flatMap fun dim =>
      let m := movesWith devices a b dim plan.2
      List.replicate m.1 (dim, m.2)
    followSteps devices wires odd steps a

/-- R325: a device's route table. A device has no entry for itself. -/
def routesOf (devices : Nat) (wires : List (Nat × Nat)) (a : Nat) : List (Option (Nat × Nat)) :=
  (List.range devices).map fun b =>
    if a == b then none
    else
      match pathOf devices wires false a b, pathOf devices wires true a b with
      | some (p :: _), some (q :: _) => some (p.2, q.2)
      | _, _ => none

/-- R325: the old routes of a device (destination, odd) of which a link has gone down. -/
def failedRoutes (devices : Nat) (before after : List (Nat × Nat)) (a : Nat) : List (Nat × Bool) :=
  (List.range devices).flatMap fun b =>
    [false, true].filterMap fun odd =>
      match pathOf devices before odd a b with
      | none => none
      | some path => if path.any fun x => !linkUp devices after x.1 x.2 then some (b, odd) else none

/-! ### The root's walk (R308) -/

/-- A link that the walk finds: serial number and port of each end. -/
abbrev FoundLink := DWord × Nat × DWord × Nat

/-- The links seen from both ends. -/
def bothWays (ls : List FoundLink) : List FoundLink := ls ++ ls.map fun l => (l.2.2.1, l.2.2.2, l.1, l.2.1)

/-- The number of a device in a numbering. -/
def numberOf (ns : List (Nat × DWord)) (serial : DWord) : Option Nat := (ns.find? fun n => n.2 == serial).map (·.1)

/-- R304, R308: one link from a numbered device to one without a number, wired as R305 states, numbers the latter. -/
def numberBy (devices : Nat) (ns : List (Nat × DWord)) (l : FoundLink) : List (Nat × DWord) :=
  match numberOf ns l.1, numberOf ns l.2.2.1 with
  | some d, none =>
    match farEnd devices d l.2.1 with
    | some (d', p') => if p' == l.2.2.2 && !ns.any (fun n => n.1 == d') then ns ++ [(d', l.2.2.1)] else ns
    | none => ns
  | _, _ => ns

/-- R308: the walk outward from the root, link after link, as many times round as there are devices. -/
def walk (devices : Nat) (ls : List FoundLink) (root : DWord) : List (Nat × DWord) :=
  (List.range devices).foldl (fun ns _ => ls.foldl (numberBy devices) ns) [(0, root)]

/-- R305, R308: a link that breaks R305. -/
def misWired (devices : Nat) (ns : List (Nat × DWord)) (l : FoundLink) : Bool :=
  match numberOf ns l.1, numberOf ns l.2.2.1 with
  | some d, some d' => farEnd devices d l.2.1 != some (d', l.2.2.2)
  | _, _ => true

/-- R308: the links that the walk finds up, by device number and port. -/
def wiresFound (ns : List (Nat × DWord)) (ls : List FoundLink) : List (Nat × Nat) :=
  (ls.filterMap fun l => (numberOf ns l.1).map fun d => (d, l.2.1)).eraseDups

end Sys2Proof.Machine
end

