-- ==== Sys2Proof/Machine/UnitOps.lean ====
section
/-!
DEFINITION. Operations on units and their power domains (R27, R28), on streams' playout buffers (R285, R343, R450) and on
the Reed ports (R446, R451, R452).
-/
namespace Sys2Proof.Machine

open Sys2Proof

/-! ### Streams and playout buffers -/

/-- R285: a stream's playout margin. -/
def Stream.margin (t : Stream) : Nat := t.samples.length

/-- R338: L of an RTP egress. -/
def rtpLevel (rate playoutUs : Nat) : Nat := ceilDiv (playoutUs * rate) 1000000

/-- R450: L of a Reed output. -/
def reedLevel (rate : Nat) : Nat := ceilDiv (6000 * rate) 1000000

/-- R338, R450: the playout level L; 0 for a stream with no egress. -/
def Stream.level (t : Stream) : Nat :=
  match t.egress with
  | .none => 0
  | .rtp d => rtpLevel t.rate d.playoutUs
  | .reed _ _ => reedLevel t.rate

/-- R343, R450: the playout buffer's capacity; with no egress the whole ring of R260 (log 12). -/
def Stream.capacity (t : Stream) : Nat :=
  match t.egress with
  | .none => 8192
  | .rtp d => t.level + 2 * d.pkt
  | .reed _ _ => t.level + 64

/-- Whether a stream has an RTP egress. -/
def Stream.isRtp (t : Stream) : Bool :=
  match t.egress with
  | .rtp _ => true
  | _ => false

/-- The port and channel of a stream's Reed output. -/
def Stream.reedOut (t : Stream) : Option (Nat × Nat) :=
  match t.egress with
  | .reed p c => some (p, c)
  | _ => none

/-- The streams that a Reed output carries. -/
def State.streamsOn (s : State) (port : Nat) : List Stream :=
  s.audio.streams.filter fun t => match t.reedOut with
    | some (p, _) => p == port
    | none => false

/-- R219: whether a stream's context has ended. -/
def Stream.ended (t : Stream) : Bool := t.ctx.ended

/-! ### Reed ports -/

/-- R411: the rate in Hz that RATE names; none for any rate and for reserved codes. -/
def rateOf (code : Nat) : Option Nat :=
  match code with
  | 0 => some 32000
  | 1 => some 44100
  | 2 => some 48000
  | 3 => some 88200
  | 4 => some 96000
  | 5 => some 176400
  | 6 => some 192000
  | _ => none

/-- A Reed port of a PORT_START mask: bit n names AIN_n, bit 16 + n AOUT_n (R412). -/
def State.reed (s : State) (code : Nat) : ReedPort :=
  if code < 16 then nth s.audio.ins code .stopped else nth s.audio.outs (code - 16) .stopped

/-- Change a Reed port, numbered as in PORT_START. -/
def State.mapReed (s : State) (code : Nat) (f : ReedPort → ReedPort) : State :=
  if code < 16 then { s with audio := { s.audio with ins := s.audio.ins.modify code f } }
  else { s with audio := { s.audio with outs := s.audio.outs.modify (code - 16) f } }

/-- R411: a Reed port's live configuration. -/
def State.reedConfig (s : State) (code : Nat) : DWord :=
  if code < 16 then nth s.live.reedIn code 0 else nth s.live.reedOut (code - 16) 0

/-- R27: the domain of a Reed port's group. -/
def reedDomain (code : Nat) : Nat := 107 + code / 8

/-- R411: CLOCK of an output. -/
def State.reedClock (s : State) (code : Nat) : Nat := fld (s.reedConfig code) 39 32

/-- R451: the clock by which a port runs: an output's CLOCK, an input's own recovered clock (coded 16 + n). -/
def State.portClock (s : State) (code : Nat) : Nat := if code < 16 then 16 + code else s.reedClock code

/-- R411: GROUP of a port. -/
def State.reedGroup (s : State) (code : Nat) : Nat := fld (s.reedConfig code) 23 21

/-- R451: the reference clock of the named ports of a group. -/
def State.groupReference (s : State) (named : List Nat) : Option Nat :=
  match named.find? fun c => 16 ≤ c with
  | some c => some (s.portClock c)
  | none => named.head?.map s.portClock

/-- R451: the ports that start on the same tick as a named port. -/
def State.startedWith (s : State) (named : List Nat) (code : Nat) : List Nat :=
  let g := s.reedGroup code
  let members := named.filter fun c => s.reedGroup c == g
  if g == 0 then [code]
  else if s.groupReference members == some (s.portClock code) then
    members.filter fun c => some (s.portClock c) == s.groupReference members
  else [code]

/-- R451, R452: start ports: RUNNING at once, the start tick 16 ticks of the reference later, and the data start once
the streams routed to the outputs of the group at acceptance are ready. -/
def State.startPorts (s : State) (named : List Nat) : State :=
  named.foldl (fun s' code =>
    let grp := s.startedWith named code
    let streams := (grp.filter fun c => 16 ≤ c).flatMap fun c => (s.streamsOn (c - 16)).map (·.id)
    s'.mapReed code fun p =>
      { p with running := true, armed := some 16, group := grp, started := false, dataOn := false, stopping := false,
               frames := 0, csPos := 0, awaited := streams, lacking := [] }) s

/-- R455: a port stopped. -/
def ReedPort.stop (p : ReedPort) : ReedPort :=
  { p with running := false, armed := none, group := [], started := false, dataOn := false, stopping := false,
           lacking := [] }

/-- The port codes of a mask. -/
def portsOf (mask : Nat) : List Nat := (List.range 32).filter fun i => bitOf mask i

/-! ### Power domains -/

/-- Change the power state. -/
def State.mapPower (s : State) (f : Power → Power) : State := { s with power := f s.power }

/-- A mask with a bit set or cleared. -/
def setBit {w : Nat} (m : BitVec w) (i : Nat) (on : Bool) : BitVec w :=
  if on then m ||| BitVec.ofNat w (2 ^ i) else m &&& ~~~ BitVec.ofNat w (2 ^ i)

/-- R51: the pace counter of a domain: kind and index. -/
def paceOf (d : Nat) : Option (Nat × Nat) :=
  if d < 68 then some (0, d) else if d < 84 then some (1, d - 68) else if d == 112 then some (2, 0) else none

/-- R50: a pace counter at the moment its domain is switched on. -/
def PaceCounter.restarted (c : PaceCounter) : PaceCounter :=
  { c with waves := 0, rate := 0, minRate := 0, valid := false, cleared := true }

/-- R27: the domain of a pace counter's unit. -/
def PaceCounter.domain (c : PaceCounter) : Nat :=
  if c.kind == 0 then c.index else if c.kind == 1 then 68 + c.index else 112

/-- R50: a unit's pace counter starts again when its domain is switched on. -/
def State.resetPace (s : State) (d : Nat) : State :=
  match paceOf d with
  | none => s
  | some (k, i) =>
    let cs := s.pace.counters.map fun c => if c.kind == k && c.index == i then c.restarted else c
    { s with pace := { s.pace with counters := cs } }

/-- R28, R180: a link stream whose port loses its Scale unit: window register, error accumulators, sequence tags and what has
arrived. -/
def LinkStream.poweredOff (t : LinkStream) : LinkStream :=
  { t with lost := t.lost || t.valid, valid := false, zpm := false, fn := 0, channels := 0, elements := 0, sse := 0, drift := 0,
           expTag := 0, data := [], records := [], ready := [], recovering := false, recoveries := 0 }

/-- R28, R303: a port's record when its domain is switched off; windows are lost (R180), and the equaliser coefficients stay in
the retention SRAM (R490). -/
def Selvage.poweredOff (p : Selvage) : Selvage :=
  { p with state := .off, width := 0, neighbour := 0xFF, queue := [], txSeq := 0, replay := [],
           credits := Selvage.fresh.credits, rxSeq := 0, nakked := false, unacked := 0, owed := Selvage.fresh.owed,
           partials := [], passing := [], scales := [], trainFails := 0, cause := none,
           streams := p.streams.map .poweredOff }

/-- R28: the sequence tag of a binding whose send end's port loses its Scale unit. -/
def Binding.tagLost (device port : Nat) (b : Binding) : Binding :=
  if b.send.device == device && b.send.port == port then { b with tag := 0 } else b

/-- R303: a port whose domain is switched on: counters start from zero, training begins. -/
def Selvage.poweredOn (p : Selvage) : Selvage :=
  { p with state := .training, fecFixed := 0, resends := 0, retrains := 0, e2eFails := 0, trainFails := 0 }

/-! ### Losses of lock and of the host link -/

/-- Change every stream. -/
def State.mapStreams (s : State) (f : Stream → Stream) : State :=
  { s with audio := { s.audio with streams := s.audio.streams.map f } }

/-- R342: the RTP streams paced by a source that has lost lock go on from the local source; each loss counts. -/
def State.sourceLost (s : State) (source : Nat) : State :=
  let f := fun (t : Stream) =>
    match t.egress with
    | .rtp d =>
      if d.source == source && t.running then { t with onLocal := true, sourceLoss := satAdd t.sourceLoss 1 } else t
    | _ => t
  s.mapStreams f

/-- R464, R468: an ingress stream whose input has lost lock. -/
def Ingress.loseLock (port : Nat) (g : Ingress) : Ingress :=
  if g.port == port && 0 < g.processed + g.input.length then { g with lockLost := true } else g

/-- R441, R445, R446: the clock of an output, or a port's own: locked, and its rate in 0.01 Hz where one is known. -/
def State.clockState (s : State) (clock : Nat) : Bool × Nat :=
  if 16 ≤ clock then
    let p := s.reed (clock - 16)
    (p.locked, (rateOf (fld (s.reedConfig (clock - 16)) 27 24)).elim p.measRate.toNat fun r => 100 * r)
  else if clock == 0 then (false, 0)
  else
    let w := nth s.audio.wclks (clock - 1) .unlocked
    (w.locked, w.measRate.toNat)

/-- R446: an output's clock is usable: its source is locked, and its rate, once it is known, lies within ±1,000 ppm of the
rate that RATE names (log 24). -/
def State.clockUsable (s : State) (code : Nat) : Bool :=
  let c := s.clockState (s.reedClock code)
  let want := 100 * (rateOf (fld (s.reedConfig code) 27 24)).getD 0
  c.1 && (c.2 == 0 || (want * 999 ≤ c.2 * 1000 && c.2 * 1000 ≤ want * 1001))

/-- R454: a running output's clock stops being usable. -/
def State.outputLost (s : State) (n : Nat) : State :=
  let p := s.reed (16 + n)
  if 16 ≤ n || !p.running || !p.clockOk then s
  else
    let s := s.mapReed (16 + n) fun p => { p with clockOk := false, lockLosses := satAdd p.lockLosses 1 }
    s.mapStreams fun t =>
      if t.reedOut.any (fun o => o.1 == n) then { t with sourceLoss := satAdd t.sourceLoss 1 } else t

/-- R454: the running outputs whose clocks are no longer usable stop. -/
def State.checkOutputs (s : State) : State :=
  (List.range 16).foldl (fun s n => if (s.reed (16 + n)).running && !s.clockUsable (16 + n) then s.outputLost n else s) s

/-- R441, R342, R454: an input loses lock. -/
def State.unlockInput (s : State) (n : Nat) : State :=
  if 16 ≤ n || !(s.reed n).locked then s
  else
    let s := s.mapReed n fun p => { p with locked := false, lockLosses := satAdd p.lockLosses 1, measRate := 0 }
    let s := { s with audio := { s.audio with ingress := s.audio.ingress.map (Ingress.loseLock n) } }
    (s.sourceLost (16 + n)).checkOutputs

/-- R328, R559: the service record of a change of the link. -/
def State.recordLink (s : State) (before after : BitVec 2) : State :=
  s.service 0x8022 (leBytes 1 before.toNat ++ leBytes 1 after.toNat)

/-- R28, R333: the host link without its associations. -/
def Net.unsecure (n : Net) : Net := { n with secured := false, rxSas := [], txSa := none, mkaSlot := none }

/-- R328: the link is lost: counted and recorded, when it was up. -/
def State.linkLost (s : State) : State :=
  if s.net.rate == 0 then s
  else
    { s with net := { s.net.unsecure with
      rate := 0, leader := false, lpi := false, ipv6 := [], linkDowns := satAdd s.net.linkDowns 1,
      trainFails := 0 } }.recordLink s.net.rate 0

/-- R325: this device's knowledge of the links, and its routes over them. -/
def State.setWires (s : State) (wires : List (Nat × Nat)) : State :=
  { s with links := { s.links with
      wires := wires, routes := if s.links.device.isSome then routesOf s.links.devices wires s.deviceNo else s.links.routes } }

/-- R325: the link of a port of this device is lost with its domain: the root tells every device, another device the root. -/
def State.portLost (s : State) (n : Nat) : State :=
  if s.links.wires.contains (s.deviceNo, n) then
    let s := s.setWires (s.links.wires.filter fun w => w != (s.deviceNo, n))
    if s.links.isRoot then s.tellAll (.routes s.links.wires) else s.tell 0 (.linkChange s.deviceNo n false)
  else s

/-- R28: what a unit loses when its domain is switched off. -/
def State.unitOff (s : State) (d : Nat) : State :=
  if 68 ≤ d && d < 84 then s.mapCluster (d - 68) fun k => { k with programs := [], store := [] }
  else if 100 ≤ d && d < 106 then
    let s := (s.portLost (d - 100)).mapPort (d - 100) .poweredOff
    { s with links := { s.links with bindings := s.links.bindings.map (Binding.tagLost s.deviceNo (d - 100)) } }
  else if d == 106 then
    let s := s.linkLost
    { s with net := { s.net with lease := none, hops := [], router := none, queue := [], handed := s.out.length } }
  else if 107 ≤ d && d < 111 then
    (List.range 8).foldl (fun s i =>
      (s.unlockInput (8 * (d - 107) + i)).mapReed (8 * (d - 107) + i) fun p =>
        { p.stop with fifo := [], locked := false, clockOk := false, measRate := 0 }) s
  else s

/-- R28, R332, R413, R303: what a unit starts from when its domain is switched on. -/
def State.unitOn (s : State) (d : Nat) : State :=
  let s := s.resetPace d
  if 100 ≤ d && d < 106 then s.mapPort (d - 100) .poweredOn
  else if d == 106 then
    { s with net := { s.net with rxFull := 0, rxDiscard := 0, macsecFail := 0, linkDowns := 0, trainFails := 0, unsecured := 0,
                                 advertised := BitVec.ofNat 3 (fld s.net.config 2 0) } }
  else if 107 ≤ d && d < 111 then
    (List.range 8).foldl (fun s i => s.mapReed (8 * (d - 107) + i) fun p =>
      { p with repeats := 0, drops := 0, frameErrors := 0, lockLosses := 0 }) s
  else if d == 127 then s.flushLate
  else s

/-- A domain switched off, with what its unit loses. -/
def State.switchOff (s : State) (d : Nat) : State :=
  (s.unitOff d).mapPower fun p => { p with powered := setBit p.powered d false }

/-- A domain switched on; its unit starts in its power-on state. -/
def State.switchOn (s : State) (d : Nat) : State :=
  (s.mapPower fun p => { p with powered := setBit p.powered d true }).unitOn d

/-- R248, R485: the PHY domain of an absent channel, which stays off. -/
def State.absentPhy (s : State) (d : Nat) : Bool := 84 ≤ d && d < 100 && !s.units.present.getLsbD (d - 84)

/-- R488: a domain's pads latched or released. -/
def State.latchPads (s : State) (d : Nat) (on : Bool) : State :=
  if padDomain d then s.mapPower fun p => { p with latched := setBit p.latched d on } else s

/-- R249: the channels' training results restored, and read and write DQ training run again. -/
def Units.retrainDq (u : Units) : Units :=
  { u with dqTrained := u.dqTrained.zipIdx.map fun p => if u.training.getLsbD p.2 then p.1 + 1 else p.1 }

/-! ### Addresses of the host link (R331, R334) -/

/-- The interface identifier that stateless autoconfiguration forms from the MAC address (PRESUMED, log 30). -/
def interfaceId : List Byte :=
  let m := beBytes 6 Config.mac.toNat
  [m.getD 0 0 ^^^ 2] ++ slice m 1 2 ++ [0xFF, 0xFE] ++ slice m 3 3

/-- R332: an IPv6 address joins the device's when duplicate address detection passes. -/
def State.tryV6 (s : State) (addr : List Byte) : State :=
  let good := Config.dadPassed s.free
  let s := { s with free := s.free + 1 }
  if good && !s.net.ipv6.contains addr then { s with net := { s.net with ipv6 := s.net.ipv6 ++ [addr] } } else s

/-- R331, R332: the addresses that a link coming up tries: the link-local one, and the static one. -/
def State.formV6 (s : State) : State :=
  if s.net.rate == 0 then s
  else
    let s := s.tryV6 ([0xFE, 0x80] ++ zeros 6 ++ interfaceId)
    if s.net.addr.getD 32 0 == 0 then s else s.tryV6 (slice s.net.addr 16 16)

/-- R331, R334: the device's IPv4 address. -/
def State.ownV4 (s : State) : Option (List Byte) :=
  if s.net.addr.getD 4 0 != 0 then some (s.net.addr.take 4) else s.net.lease.map (·.1)

/-- R334: whether an address is one of the device's. -/
def State.ownAddr (s : State) (v6 : Bool) (a : List Byte) : Bool := if v6 then s.net.ipv6.contains a else s.ownV4 == some a

/-! ### Debug grants (R522, R523) -/

/-- R523: the grants that remain; when none does, the trace stops and halted Looms resume. -/
def State.keepGrants (s : State) (gs : List Grant) : State :=
  let s := { s with bark := { s.bark with grants := gs } }
  if gs.isEmpty then
    { s with
      bark := { s.bark with trace := none },
      units := { s.units with looms := s.units.looms.map fun u => { u with halted := false } } }
  else s

/-- R522: FLAGS[0] PERSIST of a grant. -/
def Grant.persists (g : Grant) : Bool := g.flags.getLsbD 0

/-- R522: acceptance of entry to Deep sleep seals the persisting grants, and the others lapse; entry to Off discards
all. -/
def State.sealGrants (s : State) (target : PowerState) : State :=
  match target with
  | .deepSleep =>
    { s with bark := { s.bark with sealedGrants := s.bark.grants.filter Grant.persists } }.keepGrants []
  | .off => { s with bark := { s.bark with sealedGrants := [] } }.keepGrants []
  | _ => s

/-- R488, R489: whether a unit runs and reaches its pins. -/
def State.padsOpen (s : State) (d : Nat) : Bool := s.domainOn d && !s.power.latched.getLsbD d

end Sys2Proof.Machine
end

