-- ==== Sys2Proof/Machine/LinkOps.lean ====
section
/-!
DEFINITION. Messages (R314), link-stream ends (R312), the transmit store (R189, R316, R321) and acknowledgements.
-/
namespace Sys2Proof.Machine

open Sys2Proof

/-! ### Bindings -/

/-- The binding with a number. -/
def State.binding? (s : State) (n : Nat) : Option Binding := s.links.bindings.find? fun b => b.number == n

/-- Change a binding. -/
def State.mapBinding (s : State) (n : Nat) (f : Binding → Binding) : State :=
  { s with links := { s.links with bindings := modifyFirst s.links.bindings (fun b => b.number == n) f } }

/-- R312: an end named by its position, port and LSID. -/
def BindEnd.isAt (e : BindEnd) (device port : Nat) (lsid : Byte) (job : Word) (pos : Nat) : Bool :=
  e.device == device && e.port == port && e.lsid == lsid && e.job == job && e.position == pos

/-- R312: the binding whose send end a position holds. -/
def State.sendBinding (s : State) (job : Word) (pos port : Nat) (lsid : Byte) : Option Binding :=
  s.links.bindings.find? fun b => b.send.isAt s.deviceNo port lsid job pos

/-- R312: the binding and the index of the receive end that a position holds. -/
def State.recvBinding (s : State) (job : Word) (pos port : Nat) (lsid : Byte) : Option (Binding × Nat) :=
  s.links.bindings.findSome? fun b =>
    (b.recvs.findIdx? fun e => e.isAt s.deviceNo port lsid job pos).map fun i => (b, i)

/-- A link stream of a port. -/
def State.linkStream? (s : State) (port : Nat) (lsid : Byte) : Option LinkStream :=
  (s.port port).streams.find? fun t => t.lsid == lsid

/-- Change a link stream of a port. -/
def State.mapLinkStream (s : State) (port : Nat) (lsid : Byte) (f : LinkStream → LinkStream) : State :=
  s.mapPort port fun p => { p with streams := modifyFirst p.streams (fun t => t.lsid == lsid) f }

/-- R313: a binding has ended that has no receive end, or whose send end's job has ended and whose blocks are all
acknowledged. -/
def Binding.settle (b : Binding) : Binding :=
  if b.recvs.any (·.live) && (b.send.live || !b.store.isEmpty) then b else { b with ended := true }

/-- R313: the other devices learn that a binding has ended, or which of its receive ends have left. -/
def State.tellLeft (s : State) (b b' : Binding) : State :=
  if b'.ended then (if b.ended then s else s.tellAll (.ended b.number))
  else
    let gone := (List.range b.recvs.length).filter fun i =>
      (b.recvs[i]?).any (·.live) && !(b'.recvs[i]?).any (·.live)
    gone.foldl (fun s i => s.tellAll (.left b.number i)) s

/-- R319, R321: the other devices learn which receive ends of a binding of several are attached now. -/
def State.tellAttached (s : State) (b b' : Binding) : State :=
  let changed := (List.range b.recvs.length).filter fun i => (b.recvs[i]?).map (·.attached) != (b'.recvs[i]?).map (·.attached)
  changed.foldl (fun s i => s.tellAll (.attached b.number i ((b'.recvs[i]?).any (·.attached)))) s

/-! ### The transmit store -/

/-- R189, R316: blocks that an end has not acknowledged. -/
def Binding.behind (b : Binding) (e : BindEnd) : Nat := (b.nextSeq - e.acked).toNat

/-- Whether an end has acknowledged a block. -/
def BindEnd.has (e : BindEnd) (seq : Word) : Bool := decide ((e.acked - 1 - seq).toNat < 2 ^ 31)

/-- R321: the store keeps a block until every end has acknowledged it. -/
def Binding.prune (b : Binding) : Binding :=
  { b with store := b.store.filter fun e => b.recvs.any fun r => r.live && !r.has e.1 }

/-- Bytes that a binding holds in its port's store. -/
def Binding.stored (b : Binding) : Nat := (b.store.map fun e => e.2.2.1.length + e.2.2.2.length).foldl (· + ·) 0

/-- R189: bytes of a port's transmit store in use. -/
def State.storeUsed (s : State) (port : Nat) : Nat :=
  ((s.links.bindings.filter fun b => b.send.device == s.deviceNo && b.send.port == port).map Binding.stored).foldl (· + ·) 0

/-- R321: the oldest block of a port's transmit store, with its binding. -/
def State.oldestStored (s : State) (port : Nat) : Option (Binding × Word) :=
  (s.port port).entered.findSome? fun x =>
    (s.binding? x.1).bind fun b =>
      if b.send.device == s.deviceNo && b.send.port == port && b.store.any (fun e => e.1 == x.2) then some (b, x.2) else none

/-- R189: bytes of a transmit store. -/
def storeBytes : Nat := 1048576

/-- R321: attached ends that would fall more than 8 blocks behind are detached, unless all would. -/
def Binding.detach (b : Binding) : Option Binding :=
  let attached := b.recvs.filter fun e => e.live && e.attached
  if !attached.isEmpty && attached.all fun e => 8 ≤ b.behind e then none
  else some { b with recvs := b.recvs.map fun e => if e.live && 8 ≤ b.behind e then { e with attached := false } else e }

/-- R321: of the detached ends that alone hold a block, the one furthest behind, with its place. -/
def Binding.laggard (b : Binding) (seq : Word) : Option (Nat × BindEnd) :=
  if b.recvs.any fun r => r.live && r.attached && !r.has seq then none
  else
    let held := b.recvs.zipIdx.filter fun r => r.1.live && !r.1.attached
    let most := (held.map fun r => b.behind r.1).foldl max 0
    (held.find? fun r => b.behind r.1 == most).map fun r => (r.2, r.1)

/-- R321: room in a port's store for a block: while the oldest block in it, of whatever binding, is held only for detached ends, the
one furthest behind leaves; the ends that left. -/
def State.makeRoom : Nat → Nat → Nat → List BindEnd → State → Option (State × List BindEnd)
  | 0, _, _, _, _ => none
  | fuel + 1, port, bytes, left, s =>
    if s.storeUsed port + bytes ≤ storeBytes then some (s, left)
    else
      (s.oldestStored port).bind fun x =>
        (x.1.laggard x.2).bind fun r =>
          let b' := ({ x.1 with recvs := x.1.recvs.set r.1 { r.2 with live := false } }.prune).settle
          State.makeRoom fuel port bytes (left ++ [r.2]) ((s.mapBinding x.1.number fun _ => b').tellLeft x.1 b')

/-- R189, R316, R321: whether a block of `bytes` can enter the store of a binding: the state in which it can, the binding in it, and
the ends that left for it. -/
def State.enterPlan (s : State) (b : Binding) (bytes : Nat) : Option (State × Binding × List BindEnd) :=
  b.detach.bind fun b' =>
    let fuel := (s.links.bindings.map fun o => o.recvs.length).foldl (· + ·) 1
    (State.makeRoom fuel b.send.port bytes [] ((s.mapBinding b.number fun _ => b').tellAttached b b')).bind fun r =>
      (r.1.binding? b.number).map fun k => (r.1, k, r.2)

/-- R305: whether a binding goes by the port of odd numbers. -/
def Binding.odd (b : Binding) : Bool := b.number % 2 == 1

/-- R314, R316: one block of the store sent to a receive end, with its scale record for a narrowed binding. -/
def State.sendBlock (s : State) (b : Binding) (e : BindEnd) (blk : Word × Byte × List Byte × List Byte) : State :=
  let (seq, tag, body, record) := blk
  if b.narrowed then
    (s.sendMessage e.via b.odd e.device 3 e.port e.lsid tag seq body).sendMessage e.via b.odd e.device 4 e.port e.lsid tag seq
      record
  else s.sendMessage e.via b.odd e.device 2 e.port e.lsid 0 seq body

/-- R325: an end on the present route to it. -/
def State.onRoute (s : State) (b : Binding) (e : BindEnd) : BindEnd :=
  { e with
    via := s.routePort e.device b.odd, path := (pathOf s.links.devices s.links.wires b.odd s.deviceNo e.device).getD [] }

/-- R325: an end with no unacknowledged block moves to the present route. -/
def State.rerouted (s : State) (b : Binding) (e : BindEnd) : BindEnd := if b.nextSeq == e.acked then s.onRoute b e else e

/-- R319: a block of a binding that goes to several ends over one port leaves by it once, for the device at the port's other end;
bit 7 of DPORT says that DPORT and LSID are the send end's (log 176). -/
def State.sendGroup (s : State) (b : Binding) (n : Nat) (blk : Word × Byte × List Byte × List Byte) : State :=
  let (seq, tag, body, record) := blk
  let next := ((farEnd s.links.devices s.deviceNo n).map (·.1)).getD 0
  let dport := 128 + b.send.port
  if b.narrowed then (s.messageBy n next 3 dport b.send.lsid tag seq body).messageBy n next 4 dport b.send.lsid tag seq record
  else s.messageBy n next 2 dport b.send.lsid 0 seq body

/-- R319: a block leaves once by each port that leads to ends of its binding; each end on this device gets its own. -/
def State.sendCopies (s : State) (b : Binding) (ends : List BindEnd) (blk : Word × Byte × List Byte × List Byte) : State :=
  let near := ends.filter fun e => e.device == s.deviceNo
  let far := ends.filter fun e => e.device != s.deviceNo
  let s := near.foldl (fun s e => s.sendBlock b e blk) s
  ((far.filterMap (·.via)).eraseDups).foldl (fun s n =>
    match far.filter fun e => e.via == some n with
    | [e] => s.sendBlock b e blk
    | _ => s.sendGroup b n blk) s

/-- R189, R316, R319: a block enters the store and leaves for every attached end: its body, and its scale record for a narrowed
binding. -/
def State.enterBlock (s : State) (b : Binding) (body record : List Byte) : State :=
  let tag := if b.narrowed then b.tag else 0
  let blk := (b.nextSeq, tag, body, record)
  let recvs := b.recvs.map (s.rerouted b)
  let b' := { b with store := b.store ++ [blk], nextSeq := b.nextSeq + 1, tag := b.tag + 1, recvs := recvs }
  let s := s.mapBinding b.number fun _ => b'.settle
  let kept := fun (x : Nat × Word) => (s.binding? x.1).any fun o => o.store.any fun e => e.1 == x.2
  let s := s.mapPort b.send.port fun p => { p with entered := p.entered.filter kept ++ [(b.number, b.nextSeq)] }
  s.sendCopies b (recvs.filter fun e => e.live && e.attached) blk

/-- R191, R316: an acknowledgement sent to the send end. -/
def State.sendAck (s : State) (b : Binding) (e : BindEnd) (seq : Word) : State :=
  s.sendMessage none b.odd b.send.device 5 e.port e.lsid 0 seq []

/-- R314: body of a raw block: rows, lines per row, the rows. -/
def rawBody (rows lines : Nat) (bs : List Byte) : List Byte := leBytes 2 rows ++ leBytes 2 lines ++ bs

/-! ### The root's reset (R311) -/

/-- R311: a reset of the root reaches every device, and the system is unenumerated. -/
def State.announceReset (s : State) : State :=
  if !s.links.isRoot then s
  else
    let s := (List.range s.links.devices).foldl (fun s d => s.tell d .rootReset) s
    { s with links := { s.links with
        device := none, devices := 0, isRoot := false, phases := Links.fresh.phases, routes := [], wires := [] } }

end Sys2Proof.Machine
end

