-- ==== Sys2Proof/Machine/Engine.lean ====
section
/-!
DEFINITION. The engines of a Loom: the next card of a context, its readiness (R93, R100 to R103, R279, R316), the choice among
ready contexts (R273, R274, R534), charging (R109, R273, R282), and the reach of device addresses by a job (R131, R252 to
R257).
-/
namespace Sys2Proof.Machine

open Sys2Proof

/-! ### Contexts -/

/-- One engine's part of the architectural state. -/
def Arch.eng (a : Arch) (e : Engine) : EngineState :=
  match e with
  | .fetch => a.fetch
  | .execute => a.execute

/-- Change one engine's part. -/
def Arch.mapEng (a : Arch) (e : Engine) (f : EngineState → EngineState) : Arch :=
  match e with
  | .fetch => { a with fetch := f a.fetch }
  | .execute => { a with execute := f a.execute }

/-- The other engine. -/
def otherEngine (e : Engine) : Engine :=
  match e with
  | .fetch => .execute
  | .execute => .fetch

/-- R114: the stream of an engine. -/
def Position.stream (p : Position) (e : Engine) : List Card :=
  match e with
  | .fetch => p.fetch
  | .execute => p.execute

/-- R92: the starting architectural state, with IX_14 and IX_15 of the fetch engine (R387). -/
def Arch.initial (ix14 ix15 : Nat) : Arch :=
  let ix : List DWord := List.replicate 16 0
  { fetch := { halted := false, card := 0, ix := (ix.set 14 (BitVec.ofNat 64 ix14)).set 15 (BitVec.ofNat 64 ix15), loops := [] },
    execute := { halted := false, card := 0, ix := ix, loops := [] }, knotCount := 0, arithFlags := 0, key := zeros 32,
    execStep := 0, fetchKey := zeros 32, fetchStep := 0, waves := 0, sinceKnot := 0, overrun := 0,
    bobbins := List.replicate 8 [] }

/-- The deck position that a context runs. -/
def State.positionOf (s : State) (c : Ctx) : Option Position :=
  (s.job? c.job).bind fun j => j.image.positions[c.position]?

/-- The next card of an engine of a context. -/
def State.nextCard (s : State) (c : Ctx) (e : Engine) : Option Card :=
  (s.positionOf c).bind fun p => (p.stream e)[(c.arch.eng e).card]?

/-- R269: a job's chosen alternative. -/
def Job.alt (j : Job) : Option Alternative := j.alternative.bind fun i => j.image.alts[i]?

/-- R389: a job that is ending: its contexts issue no further card. -/
def Job.stopping (j : Job) : Bool := j.ready || j.endStatus != .ok

/-- R267: a job's share in force. -/
def State.shareOf (s : State) (j : Job) : Nat :=
  let c := (nth s.live.shares j.client (0, 4096)).1.toNat
  if j.share != 0 then j.share else if c != 0 then c else fld s.live.schedConfig 31 16

/-- R273: stride. -/
def stride (share : Nat) : Nat := 2 ^ 24 / share

/-- A context's share. -/
def State.ctxShare (s : State) (c : Ctx) : Nat := (s.job? c.job).elim 1 s.shareOf

/-- A context's place in the order of submission. -/
def State.ctxOrder (s : State) (c : Ctx) : Nat := (s.job? c.job).elim 0 (·.order)

/-- The contexts resident on a Loom, in ascending slot order. -/
def State.residents (s : State) (loom : Nat) : List (Nat × Ctx) :=
  (List.range 16).filterMap fun k => (s.resident? loom k).map fun c => (k, c)

/-- R278 step 4: a context is admitted once one of its ways is free, zeroed or restored. -/
def Ctx.admitted (c : Ctx) : Bool := c.pendingWays.length < c.ways.length

/-! ### Reach of device addresses -/

/-- R256, R257: a row of a STORE to a frame or token port. -/
def State.portRowOk (s : State) (j : Job) (w : Window) (off len : Nat) : Bool :=
  off % 1024 == 0 &&
  match w with
  | .frame => len == 1024 && s.audio.streams.any fun t => t.port == off / 1024 && t.id == j.frameSink
  | .token => len == 64 && j.tokenPort == some (off / 1024)
  | _ => false

/-- R131, R253 to R257: a row of a card of an opcode lies where the job may reach it. -/
def State.rowOk (s : State) (j : Job) (a : Alternative) (op : Nat) (write : Bool) (addr len : Nat) : Bool :=
  match windowOf addr, windowOf (addr + len - 1) with
  | some (w, o), some (w', _) =>
    let inSlot := fun (size limit : Nat) => o % size + len ≤ limit
    let dentOk := fun (d : Nat) => a.vaultDents.getLsbD d && (s.homeOf d).isSome && inSlot (2 ^ 30) s.jobRegion
    w == w' &&
    match w with
    | .position => ((a.dents[o / 2 ^ 30]?).map dentOk).getD false
    | .dent => dentOk (o / 2 ^ 30)
    | .canopy => (interleave (o + len - 1) (dentsOf a.vaultDents) 2048 s.jobRegion).isSome
    | .frame | .token => op == 2 && s.portRowOk j w o len
    | .channel =>
      let n := o / 2 ^ 35
      a.channels.getLsbD n && s.units.present.getLsbD n && inSlot (2 ^ 35) s.extJob
    | .external =>
      (interleave (o + len - 1) ((List.range 16).filter fun n => a.channels.getLsbD n) 8192 s.extJob).isSome
    | .model => !write && s.sched.models.any fun m => j.binds.contains m.id && decide (m.base ≤ o)
        && decide (o + len ≤ m.base + m.bytes)
  | _, _ => false

/-- R252 to R257: where a device address that a job reaches lies, for a reader on a dent: model data in the copy of R255. -/
def State.locate (s : State) (a : Alternative) (dent : Option Nat) (addr : Nat) : Option Loc :=
  let inVault := fun (d o : Nat) => (s.homeOf d).map fun v => Loc.vault (vaultKey v o)
  match windowOf addr with
  | some (.position, o) => (a.dents[o / 2 ^ 30]?).bind fun d => inVault d (o % 2 ^ 30)
  | some (.dent, o) => inVault (o / 2 ^ 30) (o % 2 ^ 30)
  | some (.canopy, o) => (interleave o (dentsOf a.vaultDents) 2048 s.jobRegion).bind fun p => inVault p.1 p.2
  | some (.frame, o) => some (.frame (o / 1024) (o % 1024))
  | some (.token, o) => some (.token (o / 1024) (o % 1024))
  | some (.channel, o) => some (.chan (chanKey (o / 2 ^ 35) (o % 2 ^ 35)))
  | some (.external, o) =>
    (interleave o ((List.range 16).filter fun n => a.channels.getLsbD n) 8192 s.extJob).map fun p =>
      .chan (chanKey p.1 p.2)
  | some (.model, o) => s.modelCopy o dent a.vaultDents
  | none => none

/-- R130, R253: the pieces of a row: of at most 8 KiB, crossing no granule of an interleaved window. A row outside the
interleaved windows is cut every 8 KiB from its start (log 155, DESIGN CHOICE). -/
def piecesOfRow (addr len : Nat) : List (Nat × Nat) :=
  match windowOf addr with
  | some (.canopy, o) => granulesOf 2048 o len
  | some (.external, o) | some (.model, o) => granulesOf 8192 o len
  | _ => granulesOf 8192 0 len

/-- Bytes that a job reads at a device address, on a dent. -/
def State.readDevice (s : State) (a : Alternative) (dent : Option Nat) (addr len : Nat) : List Byte :=
  (piecesOfRow addr len).flatMap fun p =>
    match s.locate a dent (addr + p.1) with
    | some l => s.readLoc l p.2
    | none => zeros p.2

/-- Bytes that a job writes at a device address. -/
def State.writeDevice (s : State) (a : Alternative) (addr : Nat) (bs : List Byte) : State :=
  (piecesOfRow addr bs.length).foldl (fun s p =>
    match s.locate a none (addr + p.1) with
    | some l => s.writeLoc l (slice bs p.1 p.2)
    | none => s) s

/-! ### Extents of a card -/

/-- R107: the knot table entry that a KNOT names. -/
def State.knotEntry? (s : State) (c : Ctx) (card : Card) : Option KnotEntry :=
  (s.positionOf c).bind fun p => if fld card 111 96 == 0 then none else p.knots[fld card 111 96 - 1]?

/-- R98, R155, R168: every extent of a card, those that depend on scratch included. -/
def State.cardExtents (s : State) (c : Ctx) (e : Engine) (card : Card) : List Extent :=
  let ix := (c.arch.eng e).ix; let t1 := s.live.table1
  let desc := c.scratch.read (64 * lineOf ix (fld card 51 32)) 64
  match opOf card with
  | 0x20 => scanExtents t1 ix card desc
  | 0x28 => convExtents t1 ix card (convDesc desc)
  | 0x0A => (s.knotEntry? c card).elim [] fun k => k.ranges.map fun r => ⟨r.1, r.2.1, r.2.2, false⟩
  | _ => (cardRefs t1 card).map (Ref.extent ix)

/-- R279: a card touches a way or unit that is still pending. -/
def Ctx.touchesPending (c : Ctx) (es : List Extent) : Bool :=
  es.any fun e =>
    if e.stripe then c.pendingUnits.any fun u => e.meets ⟨true, 256 * u, 256, false⟩
    else c.pendingWays.any fun w => e.meets ⟨false, 4096 * w, 4096, false⟩

/-! ### Transfers -/

/-- R103: a transfer is outstanding until each of its pieces has completed its path. -/
def Transfer.outstanding (t : Transfer) : Bool := !t.pieces.isEmpty

/-- The outstanding transfers of a context. -/
def State.outstandingOf (s : State) (c : Ctx) : List Transfer :=
  s.sched.transfers.filter fun t => t.outstanding && t.job == c.job && t.position == c.position

/-- The scratch or stripe lines of a transfer; a load writes them. -/
def Transfer.extent (t : Transfer) : Extent :=
  ⟨t.isStripe, t.line, t.rows * (fld t.card 38 27 + 1), t.kind == .load || t.kind == .loadC⟩

/-- R103: an earlier transfer writes a line that the card touches, or reads one that it writes. -/
def hazard (es : List Extent) (earlier : List Transfer) : Bool :=
  earlier.any fun t => es.any fun e => e.meets t.extent && (e.write || t.extent.write)

/-! ### Bobbins -/

/-- Tokens of a bobbin. -/
def Arch.tokens (a : Arch) (b : Nat) : List Half := nth a.bobbins b []

/-- Change a bobbin. -/
def Arch.mapTokens (a : Arch) (b : Nat) (f : List Half → List Half) : Arch := { a with bobbins := a.bobbins.modify b f }

/-- R125, R189: the execute engine of a Loom is held by a QSTAT or NARROW in progress of a context other than `c`. -/
def State.engineHeld (s : State) (loom : Nat) (c : Ctx) : Bool :=
  (s.residents loom).any fun p => (p.2.job, p.2.position) != (c.job, c.position)
    && s.sched.scale.any fun q => q.2 == (p.2.job, p.2.position)

/-- R102: a PEER that reads device memory waits for the context's earlier STOREs and STORE_Cs, and one that writes it for every
earlier transfer (log 157, DEDUCED). -/
def peerHazard (card : Card) (earlier : List Transfer) : Bool :=
  fld card 91 90 == 2 && earlier.any fun t => card.getLsbD 89 || t.kind == .store || t.kind == .storeC

/-- R101: room for one more token of a bobbin: the tokens it holds, and those that completed or outstanding transfers are
still to add, stay within its depth. -/
def State.bobbinRoom (s : State) (c : Ctx) (j : Job) (b : Nat) : Bool :=
  let due := s.sched.transfers.filter fun t => t.job == c.job && t.position == c.position && sigOf t.card && bobbinOf t.card == b
  (c.arch.tokens b).length + due.length < (bobbinDecl j.image.bobbins b).1

/-! ### PEER ends -/

/-- R536: a send end's log. -/
def Ctx.sendLog (c : Ctx) (binding : Nat) : EndLog :=
  (c.sends.find? fun l => l.binding == binding).getD ⟨binding, 0, 0, 0, [], true, []⟩

/-- R537: a receive end's log. -/
def Ctx.recvLog (c : Ctx) (binding i : Nat) : EndLog :=
  (c.recvs.find? fun l => l.binding == binding && l.recvEnd == i).getD ⟨binding, i, 0, 0, [], true, []⟩

/-- R315: bytes of a PEER card's block. -/
def peerBytes (card : Card) : Nat := (fld card 36 25 + 1) * (fld card 24 13 + 1) * 64

/-- R315: the LSID of a PEER card. -/
def peerLsid (card : Card) : Byte := BitVec.ofNat 8 (fld card 84 77)

/-- R316: a PEER does not wait: it can enter its block, take one, or has to stop its context. -/
def State.peerReady (s : State) (c : Ctx) (card : Card) : Bool :=
  let port := fld card 87 85
  if card.getLsbD 89 then
    match s.recvBinding c.job c.position port (peerLsid card) with
    | none => true
    | some (b, i) =>
      let log := c.recvLog b.number i
      log.since < log.entered || b.ended || ((s.linkStream? port (peerLsid card)).elim true fun t => !t.ready.isEmpty)
  else
    match s.sendBinding c.job c.position port (peerLsid card) with
    | none => true
    | some b =>
      let log := c.sendLog b.number
      log.since < log.entered || b.ended || b.narrowed || b.maxBlock * 64 < peerBytes card
        || (s.enterPlan b (4 + peerBytes card)).isSome

/-! ### Readiness and choice -/

/-- R93, R101, R103: the card itself is ready; a KNOT issues on the fetch engine, for both (R108). -/
def State.cardReady (s : State) (c : Ctx) (j : Job) (e : Engine) (loom : Nat) (card : Card) : Bool :=
  let op := opOf card
  let earlier := s.outstandingOf c
  let drained := e == .execute || earlier.isEmpty
  let es := s.cardExtents c e card
  let room := !sigOf card || s.bobbinRoom c j (bobbinOf card)
  if op == 0x08 then !(c.arch.tokens (bobbinOf card)).isEmpty
  else if op == 0x09 then drained && s.bobbinRoom c j (bobbinOf card)
  else if op == 0x3F then drained
  else if op == 0x0A then
    e == .fetch && earlier.isEmpty && !c.touchesPending es && !s.engineHeld loom c && (s.nextCard c (otherEngine e)).any fun o => opOf o == 0x0A && !(c.arch.eng (otherEngine e)).halted
  else if op == 0x0B || op == 0x0C then true
  else if op == 0x05 then
    room && !c.touchesPending es && !hazard es earlier && !peerHazard card earlier && (!sigOf card || earlier.isEmpty)
      && s.peerReady c card
  else if 1 ≤ op && op ≤ 4 then
    room && !c.touchesPending es && !hazard es earlier
      && (s.sched.transfers.filter fun t => t.outstanding && t.loom == loom).length < 32
  else room && !c.touchesPending es

/-- R93, R279: an engine's next card of a resident context is ready. -/
def State.ready (s : State) (c : Ctx) (e : Engine) : Bool :=
  match c.place, s.job? c.job, s.nextCard c e with
  | .resident loom _, some j, some card =>
    !(s.loom loom).failed && !j.stopping && c.admitted && !(c.arch.eng e).halted && s.cardReady c j e loom card
  | _, _, _ => false

/-- A context's pass on an engine (R273). -/
def Ctx.passOf (c : Ctx) (e : Engine) : Nat :=
  match e with
  | .fetch => c.passF.toNat
  | .execute => c.passE.toNat

/-- Whether an engine of a context was last found blocked. -/
def Ctx.blockedOf (c : Ctx) (e : Engine) : Bool :=
  match e with
  | .fetch => c.blockedF
  | .execute => c.blockedE

/-- Change the pass and the blocked mark of an engine. -/
def Ctx.setPass (c : Ctx) (e : Engine) (pass : Nat) (blocked : Bool) : Ctx :=
  match e with
  | .fetch => { c with passF := BitVec.ofNat 64 pass, blockedF := blocked }
  | .execute => { c with passE := BitVec.ofNat 64 pass, blockedE := blocked }

/-- The least number of a list. -/
def least (l : List Nat) : Option Nat :=
  match l with
  | [] => none
  | x :: xs => some (xs.foldl min x)

/-- R274: the lowest pass of an engine among the other ready contexts of a Loom. -/
def State.lowestPass (s : State) (loom : Nat) (e : Engine) (slot : Nat) : Nat :=
  let others := (s.residents loom).filter fun p => p.1 != slot && s.ready p.2 e
  (least (others.map fun p => p.2.passOf e)).getD 0

/-- R274: each engine's pass of a context raised to the lowest among the other ready contexts on that engine. -/
def State.raisePasses (s : State) (loom slot : Nat) (c : Ctx) : State :=
  s.mapCtx c.job c.position fun x => [Engine.fetch, Engine.execute].foldl (fun x e =>
    x.setPass e (max (x.passOf e) (s.lowestPass loom e slot)) (x.blockedOf e)) x

/-- R274: one engine of one context found ready or blocked: when it becomes ready, each engine's pass of the context is
raised. -/
def State.refreshOne (s : State) (loom : Nat) (e : Engine) (slot : Nat) (c : Ctx) : State :=
  let now := s.ready c e
  if now && c.blockedOf e then
    (s.raisePasses loom slot c).mapCtx c.job c.position fun c => c.setPass e (c.passOf e) false
  else if !now && !c.blockedOf e then s.mapCtx c.job c.position fun c => c.setPass e (c.passOf e) true
  else s

/-- R274: every context of a Loom. -/
def State.refresh (s : State) (loom : Nat) : State :=
  (s.residents loom).foldl (fun s p =>
    [Engine.fetch, Engine.execute].foldl (fun s e =>
      match s.resident? loom p.1 with
      | some c => s.refreshOne loom e p.1 c
      | none => s) s) s

/-- R189, R273, R534: choose: the slot of the ready context of least pass; contexts that regain their state come first. While a
QSTAT or NARROW is in progress it occupies the execute engine, so its context alone is taken. -/
def State.choose (s : State) (loom : Nat) (e : Engine) : Option Nat :=
  let ready := (s.residents loom).filter fun p => s.ready p.2 e && (e == .fetch || !s.engineHeld loom p.2)
  let key := fun (p : Nat × Ctx) => (if p.2.replayTo == 0 then 2 ^ 64 else 0) + p.2.passOf e
  (least (ready.map key)).bind fun low => (ready.find? fun p => key p == low).map (·.1)

/-! ### Charging -/

/-- R272, R282: a context's slice: SLICE less the overrun carried into it, and at least 24,000 waves. -/
def State.sliceOf (s : State) (c : Ctx) : Nat := max (1000 * fld s.live.schedConfig 11 0 - c.absorbed) 24000

/-- R273, R277, R282: waves charged to a context, on the passes of the named engines; `fixed` waves at the end of the card
are not pre-emptible, and those past the end of a slice that ends inside them are overrun. -/
def State.charge (s : State) (job : Word) (pos : Nat) (engines : List Engine) (waves fixed : Nat) : State :=
  let s := s.mapJob job fun j => { j with positions := j.positions.modify pos fun p => { p with waves := p.waves + waves } }
  match s.ctx? job pos with
  | none => s
  | some c =>
    let step := waves * stride (s.ctxShare c)
    let limit := s.sliceOf c
    let after := c.sliceWaves + waves
    let from_ := max c.sliceWaves (after - fixed)
    let excess := if from_ < limit && limit < after then after - limit else 0
    let w64 : DWord := BitVec.ofNat 64 waves
    s.mapCtx job pos fun c =>
      let c := engines.foldl (fun c e => c.setPass e (c.passOf e + step) (c.blockedOf e)) c
      let arch := c.arch
      { c with
        sliceWaves := after, residentWaves := c.residentWaves + waves, replayTo := c.replayTo - waves,
        arch := { arch with
          waves := arch.waves + w64, sinceKnot := arch.sinceKnot + w64, overrun := arch.overrun + BitVec.ofNat 64 excess } }

/-- R277, R282: a new slice begins. -/
def State.newSlice (s : State) (c : Ctx) : Ctx :=
  let room := 1000 * fld s.live.schedConfig 11 0 - 24000
  let taken := min c.arch.overrun.toNat room
  { c with sliceWaves := 0, absorbed := taken, arch := { c.arch with overrun := c.arch.overrun - BitVec.ofNat 64 taken } }

end Sys2Proof.Machine
end

