-- ==== Sys2Proof/Machine/JobOps.lean ====
section
/-!
DEFINITION. The end of positions and jobs (R112, R281, R313, R388, R389, R397), accounts (R291), tags (R269), and the events
that report them (R405, R407).
-/
namespace Sys2Proof.Machine

open Sys2Proof

/-! ### When units run -/

/-- R475, R564: cards, batches and the other work of the core run at READY in Run. -/
def State.computing (s : State) : Bool := s.power.boot == .ready && s.power.state == .run

/-- R477, R485: whether the Treadle starts work: in Run, while no transition runs. -/
def State.starting (s : State) : Bool := s.computing && s.power.transition.isNone

/-! ### Accounts (R291) -/

/-- R291: the counts of a client: submitted, completed, cancelled, faulted, fallbacks. -/
abbrev Counts := Word × Word × Word × Word × Word

/-- R291: a client's counts. -/
def State.accountOf (s : State) (client : Nat) : Counts :=
  ((s.sched.accounts.find? fun a => a.1 == client).map (·.2)).getD (0, 0, 0, 0, 0)

/-- R291: a client's counts replaced. -/
def State.mapAccount (s : State) (client : Nat) (f : Counts → Counts) : State :=
  let rest := s.sched.accounts.filter fun a => a.1 != client
  { s with sched := { s.sched with accounts := rest ++ [(client, f (s.accountOf client))] } }

/-- R291, R393: a job ended with a status. -/
def State.countEnd (s : State) (client : Nat) (st : Status) : State :=
  s.mapAccount client fun (a, b, c, d, e) =>
    match st with
    | .ok => (a, satAdd b 1, c, d, e)
    | .superseded => (a, b, satAdd c 1, d, e)
    | _ => (a, b, c, satAdd d 1, e)

/-! ### Events -/

/-- R407: the kinds of a unit that EVENT_FAULT names. -/
inductive FaultUnit where
  | loom (n : Nat)
  | shuttle (cluster pos : Nat)
  | vault (n : Nat)
  | channel (n : Nat)
  | port (n : Nat)
  | device (n : Nat)
  | hostLink
  | stream
deriving DecidableEq, Repr

/-- R407: UNIT_KIND and UNIT_INDEX. -/
def FaultUnit.code (u : FaultUnit) : Nat × Nat :=
  match u with
  | .loom n => (0, n)
  | .shuttle c p => (1, 256 * c + p)
  | .vault n => (2, n)
  | .channel n => (3, n)
  | .port n => (4, n)
  | .device n => (5, n)
  | .hostLink => (6, 0)
  | .stream => (7, 0)

/-- R407: EVENT_FAULT; at most 1,024 ids, streams first. -/
def State.faultEvent (s : State) (st : Status) (u : FaultUnit) (repeats : Word) (detail : Nat) (streams jobs : List Word) :
    State :=
  let fewStreams := streams.take 1024
  let fewJobs := jobs.take (1024 - fewStreams.length)
  let cut := 1024 < streams.length + jobs.length
  s.event .fault st 0 0 (beBytes 1 u.code.1 ++ beBytes 1 (if cut then 1 else 0) ++ beBytes 2 u.code.2
    ++ beBytes 4 repeats.toNat ++ beBytes 8 detail ++ beBytes 2 fewStreams.length ++ beBytes 2 fewJobs.length
    ++ (fewStreams ++ fewJobs).flatMap fun w => beBytes 4 w.toNat)

/-- R367: WAVES_DONE. -/
def Job.wavesDone (j : Job) : Nat := (j.positions.map (·.waves)).foldl (· + ·) 0

/-- R405: EVENT_RESULT of a job that has become Ready. -/
def State.resultEvent (s : State) (j : Job) : State :=
  s.event .result .ok j.id j.hostTag (beBytes 2 j.endStatus.code ++ zeros 2 ++ beBytes 4 j.result.length
    ++ beBytes 8 j.wavesDone)

/-! ### Contexts that go -/

/-- System-space blocks of a context: its saves, its knot slots, its receive logs. -/
def Ctx.allBlocks (c : Ctx) : List (Nat × Nat) := c.blocks ++ c.knotBlocks ++ c.recvs.flatMap (·.blocks)

/-- R278: save-port steps without the contexts that `gone` names: the port still empties the ways it has begun on. -/
def dropSaves (gone : Word × Nat → Bool) (saves : List SaveStep) : List SaveStep :=
  (saves.filter fun v => !gone v.arriving).map fun v =>
    match v.victim with
    | some k => if gone k then { v with victim := none } else v
    | none => v

/-- R179: a context's card has left its Scale unit. -/
def State.leaveScale (s : State) (job : Word) (pos : Nat) : State :=
  { s with sched := { s.sched with scale := s.sched.scale.filter fun q => q.2 != (job, pos) } }

/-- R112, R242, R281: a context gone: its ways, units, slot, blocks and knot slots are free; its flags are kept. -/
def State.dropCtx (s : State) (job : Word) (pos : Nat) : State :=
  match s.ctx? job pos with
  | none => s
  | some c =>
    let s := (s.freeBlocks c.allBlocks).mapJob job fun j =>
      { j with positions := j.positions.modify pos fun p => { p with arith := mergeFlags p.arith c.arch.arithFlags } }
    { s with sched := { s.sched with
        ctxs := s.sched.ctxs.filter fun x => !(x.job == job && x.position == pos),
        saves := dropSaves (fun k => k == (job, pos)) s.sched.saves,
        scale := s.sched.scale.filter fun q => q.2 != (job, pos) } }

/-- Every context of a job gone, with its transfers. -/
def State.dropCtxs (s : State) (job : Word) : State :=
  let mine := (s.sched.ctxs.filter fun c => c.job == job).map (·.position)
  let s := mine.foldl (fun s p => s.dropCtx job p) s
  { s with sched := { s.sched with transfers := s.sched.transfers.filter fun t => t.job != job } }

/-- A transfer to a frame or token port. -/
def Transfer.toPort (t : Transfer) : Bool := 0x03000000000 ≤ t.addr && t.addr < 0x03001400000 && t.kind == .store

/-- Whether a record at a port came by a transfer of a job. -/
def State.recordOf (s : State) (job : Word) (r : PortRecord) : Bool :=
  s.sched.transfers.any fun t => t.loom == r.loom && t.job == job && t.pieces.any fun p => p.tag == some r.tag

/-- The records of a job that wait at ports are withdrawn, with the transfers that carry them. -/
def State.dropPortTransfers (s : State) (job : Word) : State :=
  let mine := s.recordOf job
  let s1 := s.mapJob job fun j => { j with tokenInbox := [] }
  { s1 with
    audio := { s1.audio with streams := s1.audio.streams.map fun t =>
      { t with inbox := t.inbox.filter fun r => !mine r } },
    sched := { s1.sched with transfers := s1.sched.transfers.filter fun t => !(t.job == job && t.toPort) } }

/-! ### Bindings (R313) -/

/-- The devices of a binding's ends, and the root. -/
def Binding.devices (b : Binding) : List Nat := (0 :: b.send.device :: b.recvs.map (·.device)).eraseDups

/-- R313: a binding after a job of this device has ended. -/
def Binding.leftBy (b : Binding) (device : Nat) (job : Word) : Binding :=
  let left := fun (e : BindEnd) => if e.device == device && e.job == job then { e with live := false } else e
  let gone := b.send.device == device && b.send.job == job
  { b with recvs := b.recvs.map left, send := { b.send with live := b.send.live && !gone } }.prune.settle

/-- R313: the bindings that a job's end leaves. -/
def State.leaveBindings (s : State) (job : Word) : State :=
  let old := s.links.bindings
  let s' := { s with links := { s.links with bindings := old.map fun b => b.leftBy s.deviceNo job } }
  old.foldl (fun t b => t.tellLeft b (b.leftBy s.deviceNo job)) s'

/-! ### The end of a job -/

/-- R269: the tags that a job's end leaves on the dents of its alternative. -/
def State.tagDents (s : State) (a : Alternative) : State :=
  let tag := if a.affinity == 0 then none else some a.affinity
  let tags := s.units.tags.zipIdx.map fun p => if a.vaultDents.getLsbD p.2 then tag else p.1
  { s with units := { s.units with tags := tags } }

/-- R388: a job's result at its end. -/
def State.resultOf (s : State) (j : Job) (st : Status) : List Byte :=
  if st != .ok then []
  else
    match j.kind with
    | .plain => j.alt.elim [] fun a => s.readDevice a none j.resultAddr j.resultBytes
    | .member => j.produced.flatMap fun w => leBytes 4 w.toNat
    | .batch => []

/-- R397: a phrase job has left: it is in no job table, and its stream may start the next. -/
def State.dropPhraseJob (s : State) (j : Job) (st : Status) : State :=
  let s := { s with sched := { s.sched with jobs := s.sched.jobs.filter fun k => k.id != j.id } }
  let s := s.mapStream j.frameSink fun t => { t with runningPhrase := none }
  if st == .ok || (s.stream? j.frameSink).isNone then s
  else s.faultEvent st .stream 0 0 [j.frameSink] [j.id]

/-- R112, R281, R366, R388: a job ends with a status: its contexts and bindings go, its dents are tagged, its result is
kept, and it is Ready. -/
def State.endOne (s : State) (id : Word) (st : Status) : State :=
  match s.job? id with
  | none => s
  | some j =>
    if j.ready then s
    else
      let result := s.resultOf j st
      let s := (s.dropPortTransfers id).dropCtxs id
      let s := s.leaveBindings id
      let s := if j.started then j.alt.elim s s.tagDents else s
      let s := s.countEnd j.client st
      if j.phrase.isSome then s.dropPhraseJob j st
      else
        let s := s.mapJob id fun j =>
          { j with
            ready := true, endStatus := st, result := result, readyMs := s.recorder.windows, reserved := none,
            stepRuns := false, rows := [], tokenHeld := [], tokenInbox := [] }
        (s.job? id).elim s s.resultEvent

/-- R388, R389: a job ends; the members of a batch job end with it. -/
def State.endJob (s : State) (id : Word) (st : Status) : State :=
  let members := (s.sched.jobs.filter fun j => j.kind == .member && j.batch == id && !j.ready).map (·.id)
  (members.foldl (fun s m => s.endOne m (if st == .ok then .superseded else st)) s).endOne id st

/-- R98, R119, R389: a job that is ending ends once its outstanding transfers have completed. -/
def State.settleJob (s : State) (id : Word) : State :=
  match s.job? id with
  | none => s
  | some j =>
    if j.stopping && !j.ready && !(s.sched.transfers.any fun t => t.outstanding && t.job == id) then
      s.endJob id j.endStatus
    else s

/-- R98, R389: a job stops with a status: its contexts issue no further card, and it ends at their card boundaries; a QSTAT or
NARROW in progress is abandoned. -/
def State.stopJob (s : State) (id : Word) (st : Status) : State :=
  match s.job? id with
  | none => s
  | some j =>
    if j.stopping then s
    else
      let s := (s.mapJob id fun j => { j with endStatus := st }).dropPortTransfers id
      { s with sched := { s.sched with scale := s.sched.scale.filter fun q => q.2.1 != id } }.settleJob id

/-- R98, R390: a card stops its context: JOB_STATUS names the position, the engine and the card. -/
def State.stopCard (s : State) (c : Ctx) (e : Engine) (card : Nat) (st : Status) : State :=
  match s.job? c.job with
  | none => s
  | some j =>
    if j.stopping then s
    else
      let code : Byte := match e with
        | .fetch => 0
        | .execute => 1
      (s.mapJob c.job fun j =>
        { j with faultPos := BitVec.ofNat 16 c.position, faultEngine := code, faultCard := BitVec.ofNat 64 card }).stopJob
        c.job st

/-- Stop the jobs of ends of bindings (R193, R313, R321, R325): here, or on the device of the end. -/
def State.stopEnds (s : State) (ends : List BindEnd) (st : Status) : State :=
  ends.foldl (fun s e => if e.device == s.deviceNo then s.stopJob e.job st else s.tell e.device (.stopJob e.job)) s

/-- R112: a position whose engines have both halted finishes; a plain job finishes with its last position. -/
def State.finishPosition (s : State) (job : Word) (pos : Nat) : State :=
  let s := s.dropCtx job pos
  match s.job? job with
  | none => s
  | some j =>
    if j.kind == .plain && j.positions.all (fun p => p.fetchHalt.isSome && p.execHalt.isSome) then s.endJob job .ok else s

end Sys2Proof.Machine
end

