-- ==== Sys2Proof/Machine/Settings.lean ====
section
/-!
DEFINITION. The checks of the retained registers (R243, R266, R272, R330, R331, R411, R422, R423), the settings image
(R437, R516, R568, R569) and the keys that Bark derives (R506).
-/
namespace Sys2Proof.Machine

open Sys2Proof

/-! ### Field checks -/

/-- R243: the retained fields of MEM_LAYOUT; a write to the others is ignored, or must be zero. -/
def memLayoutOk (v : DWord) : Bool :=
  fld v 39 36 == 0 && fld v 23 20 == 0 && fld v 18 4 == 0 && fld v 35 28 ≤ 128 && fld v 27 24 ≤ 4 && fld v 3 0 ≤ 8

/-- R243: the retained fields alone. -/
def memLayoutRetained (v : DWord) : DWord := v &&& 0x0000000FFF08000F#64

/-- R330. -/
def netConfigOk (v : DWord) : Bool :=
  1 ≤ fld v 63 48 && 1500 ≤ fld v 47 34 && fld v 47 34 ≤ 9216 && fld v 33 22 ≤ 4094 && fld v 15 14 != 3
    && fld v 11 10 != 3 && fld v 7 3 == 0 && fld v 2 0 != 0

/-- R331. -/
def netAddrOk (b : List Byte) : Bool :=
  b.length == 64 && (b.getD 4 0).toNat ≤ 30 && (b.getD 5 0).toNat ≤ 63 && zeroAt b 6 2 && zeroAt b 12 4
    && (b.getD 32 0).toNat ≤ 128 && zeroAt b 33 15

/-- R272. -/
def schedConfigOk (v : DWord) : Bool :=
  fld v 63 48 == 0 && fld v 37 32 == 0 && fld v 15 12 == 0 && 1 ≤ fld v 47 40 && fld v 47 40 ≤ 64 && fld v 39 38 != 3
    && 1 ≤ fld v 31 16 && 24 ≤ fld v 11 0 && fld v 11 0 ≤ 2400

/-- R411: a REED_CONFIG of an input or output, with the channel-status table that CS_ENTRY must name a used entry of.
CLOCK and CS_ENTRY are the outputs' alone, and read zero on an input (log 10). -/
def reedConfigOk (output : Bool) (table6 : List (List Byte)) (v : DWord) : Bool :=
  let clock := fld v 39 32
  fld v 63 40 == 0 && fld v 18 0 == 0 &&
  (if output then
    (clock ≤ 4 || (16 ≤ clock && clock ≤ 31)) && table6Used (nth table6 (fld v 31 28) []) && fld v 27 24 ≤ 6
  else clock == 0 && fld v 31 28 == 0 && (fld v 27 24 ≤ 6 || fld v 27 24 == 15))

/-- R422. -/
def voltagePolicyOk (v : DWord) : Bool :=
  550 ≤ fld v 63 54 && fld v 63 54 ≤ fld v 53 44 && fld v 53 44 ≤ 850 && fld v 43 42 ≤ 1
    && (fld v 43 42 == 0 || fld v 41 21 != 0) && fld v 20 0 == 0

/-- R423. -/
def ceilingOk (w : Nat) : Bool := 120 ≤ w && w ≤ 560

/-- R266: MAX_JOBS of a client. -/
def maxJobsOk (n : Nat) : Bool := 1 ≤ n && n ≤ 4096

/-! ### Derived keys -/

/-- R506: kdf(label, n). -/
def kdf (label : List Byte) (n : Nat) : List Byte := Crypto.kmac256 Config.dus label (8 * n) (ascii "CQ9600 KDF")

/-- R506: the settings key. -/
def settingsKey : List Byte := kdf (ascii "settings") 32

/-! ### The image -/

/-- A record of the body (R569). -/
def imageRecord (item : Nat) (data : List Byte) : List Byte :=
  leBytes 2 item ++ zeros 2 ++ leBytes 4 data.length ++ padTo (roundUp data.length 8) data

/-- R569, R570: the data of each item, in ascending ITEM. -/
def Retained.items (r : Retained) : List (Nat × List Byte) :=
  [(0x0001, leBytes 8 r.memLayout.toNat), (0x0002, leBytes 8 r.netConfig.toNat), (0x0003, r.netAddr),
   (0x0004, leBytes 8 r.schedConfig.toNat),
   (0x0005, r.shares.flatMap fun p => leBytes 2 p.1.toNat ++ leBytes 2 p.2.toNat)]
  ++ (r.reedIn ++ r.reedOut).zipIdx.map (fun p => (0x0010 + p.2, leBytes 8 p.1.toNat))
  ++ [(0x0030, leBytes 8 r.voltagePolicy.toNat), (0x0031, leBytes 2 r.ceiling.toNat)]
  ++ [(0x0101, r.table1.flatten), (0x0102, r.table2.flatten), (0x0103, r.table3.flatten), (0x0104, r.table4.flatten),
      (0x0105, r.table5.flatten), (0x0106, r.table6.flatten)]

/-- R569: the body of the image. -/
def Retained.body (r : Retained) : List Byte := r.items.flatMap fun p => imageRecord p.1 p.2

/-- R516: the tag of an image without it. -/
def imageTag (bs : List Byte) : List Byte := Crypto.kmac256 settingsKey bs 256 (ascii "CQ9600 settings")

/-- R516: a settings image. -/
def settingsImage (r : Retained) (generation : Nat) (lifecycle : Byte) : List Byte :=
  let body := r.body
  let head := leBytes 4 generation ++ leBytes 4 (body.length + 64) ++ leBytes 8 Config.serial.toNat ++ [lifecycle]
    ++ zeros 15
  head ++ body ++ imageTag (head ++ body)

/-- R516: IMAGE_BYTES of an image. -/
def imageBytes (img : List Byte) : Nat := le img 4 4

/-- R516: GENERATION of an image. -/
def imageGeneration (img : List Byte) : Nat := le img 0 4

/-- R516: an image passes its check. -/
def imageOk (img : List Byte) (lifecycle : Byte) : Bool :=
  img.length == imageBytes img && 64 ≤ img.length && le img 8 8 == Config.serial.toNat
    && img.getD 16 0 == lifecycle && img.drop (img.length - 32) == imageTag (img.take (img.length - 32))

/-- R569: the records of a body. -/
def parseRecords : Nat → List Byte → List (Nat × List Byte)
  | 0, _ => []
  | n + 1, bs =>
    if bs.length < 8 then []
    else
      let len := le bs 4 4
      (le bs 0 2, slice bs 8 len) :: parseRecords n (bs.drop (8 + roundUp len 8))

/-- The entries of a table from its joined bytes. -/
def chunk (size : Nat) : Nat → List Byte → List (List Byte)
  | 0, _ => []
  | n + 1, bs => bs.take size :: chunk size n (bs.drop size)

/-- R569: a record's data when it has its item's length. -/
def itemData (recs : List (Nat × List Byte)) (item len : Nat) : Option (List Byte) :=
  match recs.find? fun p => p.1 == item with
  | some p => if p.2.length == len then some p.2 else none
  | none => none

/-- R569: a 64-bit item that passes its check, or its factory value. -/
def restoreDWord (recs : List (Nat × List Byte)) (item : Nat) (check : DWord → Bool) (factory : DWord) : DWord :=
  match itemData recs item 8 with
  | some d => let v := BitVec.ofNat 64 (leNat d); if check v then v else factory
  | none => factory

/-- R569: a table that passes its checks, or its factory content. -/
def restoreTable (recs : List (Nat × List Byte)) (t : Nat) : List (List Byte) :=
  match tableShape t with
  | none => []
  | some (n, size) =>
    match itemData recs (0x0100 + t) (n * size) with
    | some d => let c := chunk size n d; if tableOk t c then c else Retained.factory.table t
    | none => Retained.factory.table t

/-- R569: the client shares, or their factory value. -/
def restoreShares (recs : List (Nat × List Byte)) : List (Half × Half) :=
  match itemData recs 5 1024 with
  | some d =>
    let l := (chunk 4 256 d).map fun c => (BitVec.ofNat 16 (le c 0 2), BitVec.ofNat 16 (le c 2 2))
    if l.all fun p => maxJobsOk p.2.toNat then l else Factory.shares
  | none => Factory.shares

/-- R569: the retained fields and tables that an image restores. -/
def restoreFrom (img : List Byte) : Retained :=
  let body := (img.take (img.length - 32)).drop 32
  let recs := parseRecords (body.length / 8) body
  let t6 := restoreTable recs 6
  { memLayout := memLayoutRetained (restoreDWord recs 1 memLayoutOk Factory.memLayout),
    netConfig := restoreDWord recs 2 netConfigOk Factory.netConfig,
    netAddr := ((itemData recs 3 64).filter netAddrOk).getD (zeros 64),
    schedConfig := restoreDWord recs 4 schedConfigOk Factory.schedConfig,
    shares := restoreShares recs,
    reedIn := (List.range 16).map fun i => restoreDWord recs (0x10 + i) (reedConfigOk false t6) Factory.reedConfig,
    reedOut := (List.range 16).map fun i => restoreDWord recs (0x20 + i) (reedConfigOk true t6) Factory.reedConfig,
    voltagePolicy := restoreDWord recs 0x30 voltagePolicyOk Factory.voltagePolicy,
    ceiling := BitVec.ofNat 16 ((((itemData recs 0x31 2).map leNat).filter ceilingOk).getD 560),
    table1 := restoreTable recs 1, table2 := restoreTable recs 2, table3 := restoreTable recs 3,
    table4 := restoreTable recs 4, table5 := restoreTable recs 5, table6 := t6 }

/-- The settings slot that a choice names. -/
def Flash.slot (f : Flash) (second : Bool) : List Byte := if second then f.slot1 else f.slot0

/-- R568: the current slot: the one that passes with the higher GENERATION. -/
def pickSlot (f : Flash) (lifecycle : Byte) : Option Bool :=
  match imageOk f.slot0 lifecycle, imageOk f.slot1 lifecycle with
  | true, true => some (imageGeneration f.slot0 < imageGeneration f.slot1)
  | true, false => some false
  | false, true => some true
  | false, false => none

/-- R568, R438: SOURCE. -/
def bootSource (f : Flash) (current : Option Bool) : Byte :=
  match current with
  | some _ => 0
  | none => if f.slot0.isEmpty && f.slot1.isEmpty then 1 else 2

/-- R14, R568, R491: the settings restored at a boot: the current slot chosen, the live values set, Heartwood's copy
written. -/
def State.restoreSettings (s : State) : State :=
  let cur := pickSlot s.flash s.bark.lifecycle
  let live := match cur with
    | some b => restoreFrom (s.flash.slot b)
    | none => Retained.factory
  { s with
    live := live,
    flash := { s.flash with
      current := cur, source := bootSource s.flash cur, heartwoodCopy := (cur.map s.flash.slot).getD [] } }

/-- R491: the settings restored on a wake from Deep sleep: from Heartwood's copy, else from flash, else factory. -/
def State.wakeSettings (s : State) : State :=
  if imageOk s.flash.heartwoodCopy s.bark.lifecycle then { s with live := restoreFrom s.flash.heartwoodCopy }
  else
    let cur := pickSlot s.flash s.bark.lifecycle
    { s with live := match cur with
      | some b => restoreFrom (s.flash.slot b)
      | none => Retained.factory }

/-- The current settings image, empty when there is none. -/
def State.currentImage (s : State) : List Byte :=
  match s.flash.current with
  | some b => s.flash.slot b
  | none => []

/-- R438: DIRTY: a live retained field or table differs from the current image, or from the factory values when there
is none (log 11). -/
def State.dirty (s : State) : Bool :=
  let base := match s.flash.current with
    | some b => restoreFrom (s.flash.slot b)
    | none => Retained.factory
  s.live.items != base.items

end Sys2Proof.Machine
end

