-- ==== Sys2Proof/Machine/PowerOps.lean ====
section
/-!
DEFINITION. Power: the policy voltage and the governor (R498, R499), regulator requests (R494 to R496), and the
transitions of table 0x03 (R475 to R493).
-/
namespace Sys2Proof.Machine

open Sys2Proof

/-! ### Temperature, pace and voltage -/

/-- R593: the hottest on-die sensor in use, in quarter degrees. -/
def State.hottest (s : State) : Int :=
  let used := (s.power.sensors.zipIdx.filter fun p => !s.power.excluded.contains p.2).map (·.1)
  used.foldl max (used.headD Config.noSensor)

/-- Linear interpolation between two grid columns: the lower column's index and the fraction above it, of a value among
rising points; values outside are held at the ends. -/
def gridPos (axis : List Int) (x : Rat) : Nat × Rat :=
  let below := (axis.filter fun (a : Int) => decide ((a : Rat) ≤ x)).length
  if below == 0 then (0, 0)
  else if axis.length ≤ below then (axis.length - 2, 1)
  else
    let lo : Rat := (axis.getD (below - 1) 0 : Int); let hi : Rat := (axis.getD below 0 : Int)
    (below - 1, (x - lo) / (hi - lo))

/-- R436, R498: the pace of table 0x08 at a voltage and a temperature, interpolated linearly in both. -/
def paceAt (mv : Nat) (quarterC : Int) : Rat :=
  let (ti, tf) := gridPos Factory.tempAxis ((quarterC : Rat) / 4)
  let (vi, vf) := gridPos ((List.range 13).map fun i => (550 + 25 * i : Nat)) (mv : Rat)
  let at_ := fun (v t : Nat) => (Factory.gridPace (11 * v + t) : Rat)
  let row := fun (v : Nat) => at_ v ti + (at_ v (ti + 1) - at_ v ti) * tf
  row vi + (row (vi + 1) - row vi) * vf

/-- R498: the policy voltage. -/
def State.policyMv (s : State) : Nat :=
  let v := s.live.voltagePolicy
  let lo := fld v 63 54; let hi := fld v 53 44
  if fld v 43 42 == 0 then hi
  else
    let mvs := ((List.range 61).map fun i => 550 + 5 * i).filter fun m => lo ≤ m && m ≤ hi
    (mvs.find? fun m => decide ((fld v 41 21 : Rat) ≤ paceAt m s.hottest)).getD hi

/-- R499: the next governed voltage. -/
def nextG (g draw ceiling : Nat) (hot : Bool) (policy : Nat) : Nat :=
  let g := if ceiling < draw || hot then g - 10 else if draw * 100 < ceiling * 95 then g + 5 else g
  min (max g 550) policy

/-- R475, R499: the VCORE target of a state. -/
def State.targetMv (s : State) : Nat :=
  match s.power.state with
  | .run => min s.power.governedMv s.policyMv
  | .idle => min (fld s.live.voltagePolicy 63 54) s.power.governedMv
  | _ => 550

/-! ### The regulator interface (R494 to R496) -/

/-- R495: the PMBus commands that the part uses. -/
inductive PmbusCommand where
  | page | operation | clearFaults | voutCommand | statusWord | readVout | readIout | readTemperature1 | readPout
deriving DecidableEq, Repr

/-- The command codes of PMBus Part II, revision 1.3, which R495 names (PRESUMED, log 177). -/
def PmbusCommand.code (c : PmbusCommand) : Byte :=
  match c with
  | .page => 0x00
  | .operation => 0x01
  | .clearFaults => 0x03
  | .voutCommand => 0x21
  | .statusWord => 0x79
  | .readVout => 0x8B
  | .readIout => 0x8C
  | .readTemperature1 => 0x8D
  | .readPout => 0x96

/-- One bit of the PEC's division by x^8 + x^2 + x + 1. -/
def pecBit (c : Byte) : Byte := if c.getLsbD 7 then (c <<< 1) ^^^ 0x07 else c <<< 1

/-- R495: the PEC of a transaction's bytes (PRESUMED, log 177). -/
def pec (bs : List Byte) : Byte := bs.foldl (fun c b => (List.range 8).foldl (fun c _ => pecBit c) (c ^^^ b)) 0

/-- R495: a write to the regulator at an address, with its PEC. -/
def pmbusWrite (addr : Byte) (c : PmbusCommand) (data : List Byte) : List Byte :=
  let bs := (addr <<< 1) :: c.code :: data
  bs ++ [pec bs]

/-- R495: a read from the regulator at an address; the regulator sends the data and the PEC. -/
def pmbusRead (addr : Byte) (c : PmbusCommand) : List Byte := [addr <<< 1, c.code, (addr <<< 1) ||| 1]

/-- R581: the PMBus rails: address and page. -/
def pmbusRails : List (Byte × Nat) :=
  [(0x40, 0), (0x41, 0), (0x41, 1), (0x42, 0), (0x42, 1), (0x43, 0), (0x43, 1), (0x44, 0), (0x44, 1)]

/-- R495: a page selected, and a quantity of it read. -/
def pmbusReadOf (c : PmbusCommand) (r : Byte × Nat) : List Output :=
  [.pmbus (pmbusWrite r.1 .page (leBytes 1 r.2)), .pmbus (pmbusRead r.1 c)]

/-- R496, R583: the status of every rail read. -/
def statusReads : List Output := .avs .statusRead :: pmbusRails.flatMap (pmbusReadOf .statusWord)

/-- R499: the readings of the draw: the voltage and current of VCORE, and the power of each PMBus rail. -/
def drawReads : List Output := [.avs .voltageRead, .avs .currentRead] ++ pmbusRails.flatMap (pmbusReadOf .readPout)

/-- R494 to R496: what asks a rail for a voltage, and reads whether it is there. -/
def railOutputs (rail : Rail) (mv : Nat) : List Output :=
  match rail with
  | .vcore => [.avs (.voltageWrite mv), .avs .statusRead]
  | .pmbus a p =>
    [.pmbus (pmbusWrite a .page (leBytes 1 p)), .pmbus (pmbusWrite a .voutCommand (leBytes 2 (Config.voutWord mv).toNat)),
     .pmbus (pmbusRead a .statusWord)]

/-- Several outputs, in order. -/
def State.emitAll (s : State) (os : List Output) : State := { s with out := s.out ++ os }

/-- R494, R496: a request to a rail, issued when the rail has none outstanding. -/
def State.requestRail (s : State) (rail : Rail) (mv : Nat) : State :=
  if s.power.requests.any fun r => r.rail == rail then s
  else (s.mapPower fun p => { p with requests := p.requests ++ [⟨rail, mv, 1⟩] }).emitAll (railOutputs rail mv)

/-- R57, R422: VCORE asked to move to its target. -/
def State.steerVcore (s : State) : State :=
  if s.targetMv == s.power.vcoreMv then s else s.requestRail .vcore s.targetMv

/-! ### Power events -/

/-- R418: the code of a power state. -/
def PowerState.code (p : PowerState) : Nat :=
  match p with
  | .run => 0
  | .idle => 1
  | .sleep => 2
  | .deepSleep => 3
  | .off => 4

/-- R419: EVENT_POWER. -/
def State.powerEvent (s : State) (reached fromState : PowerState) (cause : Nat) : State :=
  s.event .power .ok 0 0 (beBytes 1 reached.code ++ beBytes 1 fromState.code ++ beBytes 1 cause ++ zeros 1
    ++ beBytes 2 s.power.vcoreMv ++ beBytes 2 s.live.ceiling.toNat)

/-! ### Stopping and restarting (R477) -/

/-- R346, R477: a stream's RTP egress stops as a restart, keeping the samples buffered. -/
def Stream.haltEgress (t : Stream) : Stream :=
  if t.isRtp then { t with running := false, inGap := false } else t

/-- R477: what stops on an entry; on entry to Idle, inputs go on. -/
def State.stopForEntry (s : State) (idle : Bool) : State :=
  let stops := (List.range 32).filter fun c => (s.reed c).running && (16 ≤ c || !idle)
  let s1 := stops.foldl (fun s c => s.mapReed c ReedPort.stop) s
  let mask := fun (off : Nat) => BitVec.ofNat 16 (maskOf 16 fun i => stops.contains (off + i))
  { s1 with
    audio := { s1.audio with streams := s1.audio.streams.map Stream.haltEgress },
    power := { s1.power with stoppedIns := s1.power.stoppedIns ||| mask 0,
                             stoppedOuts := s1.power.stoppedOuts ||| mask 16 } }

/-- R477: egress restarts under R343 with marker 1, and the ports that stopped start as one PORT_START of all. -/
def State.restartAfter (s : State) : State :=
  let named := (List.range 32).filter fun c =>
    if c < 16 then s.power.stoppedIns.getLsbD c else s.power.stoppedOuts.getLsbD (c - 16)
  let s1 := s.startPorts named
  { s1 with
    audio := { s1.audio with streams := s1.audio.streams.map fun t => if t.isRtp then { t with marker := true } else t },
    power := { s1.power with stoppedIns := 0, stoppedOuts := 0 } }

/-- R227, R478: every Shuttle context is written to its save area and leaves its slot; frames and events that were on
their way are lost. -/
def State.loseForDeepSleep (s : State) : State :=
  let keep := fun (m : MasterState) => { m with events := [] }
  let s := s.wroteContexts (s.audio.streams.filter fun t => !t.absent)
  { s with
    audio := { s.audio with streams := s.audio.streams.map fun t =>
      { (if t.absent then t else t.write) with slot := none, absent := true, companionSlot := none } },
    proto := { s.proto with host := keep s.proto.host, mgmt := keep s.proto.mgmt,
                            replyQueue := s.proto.replyQueue.filter (·.isReply) } }

/-! ### Transitions -/

/-- R432: the entry of table 0x03 that enters a state. -/
def entryFor (p : PowerState) : Nat :=
  match p with
  | .run => 1
  | .idle => 0
  | .sleep => 2
  | .deepSleep => 4
  | .off => 6

/-- R432: the entry that returns from a state to Run. -/
def returnEntry (p : PowerState) : Nat :=
  match p with
  | .sleep => 3
  | .deepSleep => 5
  | _ => 1

/-- The number that stands for the acknowledgement of VCORE among the domains that a step awaits. -/
def awaitVcore : Nat := 1000

/-- R485: the domains on which a step of a transition acts. -/
def State.stepActsOn (s : State) (step : Nat × Nat) : List Nat :=
  (stepDomains step.1).filter fun d =>
    match step.2 with
    | 0 => s.domainOn d
    | 1 => s.power.wasOn.getLsbD d && !s.domainOn d && !(d < 68 && (s.loom d).failed)
        && !s.absentPhy d
        && !(100 ≤ d && d < 106 && !(s.port (d - 100)).coeffs)
    | 2 => padDomain d
    | _ => s.power.entryLatched.getLsbD d

/-- R485: an action on one domain, done when the domain reports. -/
def State.actOn (s : State) (d action : Nat) : State :=
  match action with
  | 0 => s.switchOff d
  | 1 => s.switchOn d
  | 2 => (s.latchPads d true).mapPower fun p => { p with entryLatched := setBit p.entryLatched d true }
  | _ => (s.latchPads d (s.power.hostLatched.getLsbD d)).mapPower fun p =>
      { p with entryLatched := setBit p.entryLatched d false }

/-- R485: the fixed action before a step: self-refresh before PHYs or quadrants are switched off, the Treadle's tables
before PD_112, VCORE at 550 mV before PD_128, the recorder's queues before PD_127 (R557). -/
def State.beforeStep (s : State) (doms : List Nat) (action : Nat) : State :=
  if action != 0 then s
  else
    let s := if doms.any fun d => 84 ≤ d && d < 100 then s.mapPower fun p => { p with extSelf := true } else s
    let s := if doms.any fun d => 122 ≤ d && d < 126 then s.mapPower fun p => { p with canopySelf := true } else s
    let s := if doms.contains 127 then s.mapRecorder Recorder.drain else s
    if doms.contains 128 && s.power.vcoreMv != 550 then s.requestRail .vcore 550 else s

/-- R14, R249, R372, R413: what takes its reset value on a wake from Deep sleep, and the channels' DQ training. -/
def State.wakeFields (s : State) : State :=
  let zero := fun (m : MasterState) =>
    { m with badHeader := 0, stale := 0, duplicates := 0, eventsDropped := 0, fragExpired := 0, notRoot := 0 }
  { s with
    proto := { s.proto with host := zero s.proto.host, mgmt := zero s.proto.mgmt },
    audio := { s.audio with wclks := List.replicate 4 .unlocked }, units := s.units.retrainDq }

/-- R475, R485: the state that a completed transition gives, with its EVENT_POWER. A wake that came during an entry
starts the return at once and replaces the entered state's event (R483). -/
def State.completeReturn (s : State) (t : Transition) : State :=
  let s := s.mapPower fun p =>
    { p with state := .run, transition := none, extSelf := false, canopySelf := false }
  let s := if t.source == .deepSleep then
      let s := s.wakeSettings.wakeFields
      let kept := s.bark.sealedGrants.filter fun g => s.recorder.minutes.toNat ≤ g.notAfter.toNat
      { s with
        power := { s.power with governedMv := s.policyMv },
        bark := { s.bark with grants := kept, sealedGrants := [] } }
    else s
  (s.restartAfter.powerEvent .run t.source t.cause.toNat).steerVcore

/-- R475, R478, R483: what the completion of an entry sets: its event, unless a wake came during it, and what the state
loses. Nothing follows a request for Off (R418). -/
def State.completeEntry (s : State) (t : Transition) : State :=
  let s := s.mapPower fun p =>
    { p with
      state := t.target, transition := none,
      extSelf := p.extSelf || t.target == .sleep, canopySelf := p.canopySelf || t.target == .sleep }
  let s := if t.wake || t.target == .off then s else s.powerEvent t.target t.source t.cause.toNat
  let s := if t.target == .deepSleep then s.loseForDeepSleep.linkLost else s
  if t.target == .off then
    ((s.mapPower fun p => { p with boot := .unpowered, extSelf := false, canopySelf := false }).emit (.railEn false))
  else s.steerVcore

/-- R485: run a transition on from its present step: steps without a domain to act on are passed over, a step with one
waits for it, and after the last step the transition completes. -/
def State.advance : Nat → State → State
  | 0, s => s
  | n + 1, s =>
    match s.power.transition with
    | none => s
    | some t =>
      let steps := powerSteps (nth s.live.table3 t.entry [])
      match steps[t.step]? with
      | some st =>
        let doms := s.stepActsOn st
        if doms.isEmpty then
          State.advance n (s.mapPower fun p => { p with transition := some { t with step := t.step + 1 } })
        else
          let s := s.beforeStep doms st.2
          let wait := if st.2 == 0 && doms.contains 128 && s.power.vcoreMv != 550 then [awaitVcore] else []
          s.mapPower fun p => { p with transition := some { t with awaiting := doms ++ wait } }
      | none =>
        if t.target == .run then
          match t.next with
          | none => s.completeReturn t
          | some target =>
            let t' : Transition :=
              { t with entry := entryFor target, target := target, next := none, step := 0, awaiting := [] }
            let s := (s.mapPower fun p =>
              { p with transition := some t', wasOn := p.powered, entryLatched := 0 }).stopForEntry false
            State.advance n s
        else
          let s := s.completeEntry t
          if t.wake && t.target == .off then s.mapPower fun p => { p with boot := .coldPending }
          else if t.wake then
            let back : Transition :=
              { entry := returnEntry t.target, source := t.target, target := .run, next := none, step := 0,
                awaiting := [], cause := 3, wake := false }
            State.advance n (s.mapPower fun p => { p with transition := some back })
          else s

/-- The longest run of `advance`: an entry, its return and the entry after it, of 60 steps each. -/
def advanceFuel : Nat := 256

/-- R522, R551: what the acceptance of an entry does at once: grants are sealed or lapse, and an entry to Off checkpoints
the clocks. -/
def State.acceptEntry (s : State) (target : PowerState) : State :=
  let s := s.sealGrants target
  if target == .off then s.checkpoint else s

/-- R475, R476, R477: an accepted entry begins: from Idle through entry 1, otherwise with what stops. -/
def State.beginEntry (s : State) : State :=
  match s.power.transition with
  | none => s
  | some t =>
    let s := if t.next.isSome then s
      else (s.mapPower fun p => { p with wasOn := p.powered, entryLatched := 0 }).stopForEntry (t.target == .idle)
    s.advance advanceFuel

/-- R475, R476, R503: an entry accepted; it begins at once, or once the devices that are named have replied. -/
def State.startEntry (s : State) (target : PowerState) (cause : Byte) (replies : List Nat) : State :=
  let s := s.acceptEntry target
  let direct : Transition :=
    { entry := entryFor target, source := s.power.state, target := target, next := none, step := 0, awaiting := [],
      cause := cause, wake := false, replies := replies }
  let t := if s.power.state == .idle then { direct with entry := 1, target := .run, next := some target } else direct
  let s := s.mapPower fun p => { p with transition := some t }
  if replies.isEmpty then s.beginEntry else s

/-- R503: the replies of devices to the POWER_STATE that a root is to act on, or the loss of their routes: with the last, the entry
begins. -/
def State.replied (s : State) (gone : Nat → Bool) : State :=
  match s.power.transition with
  | none => s
  | some t =>
    let rest := t.replies.filter fun d => !gone d
    if t.replies.isEmpty then s
    else
      let s := s.mapPower fun p => { p with transition := some { t with replies := rest } }
      if rest.isEmpty then s.beginEntry else s

/-- R480, R483: a wake: the return to Run starts, or a running entry returns when it is complete. In Off a wake starts a
cold boot (R479). -/
def State.wake (s : State) (cause : Byte) : State :=
  match s.power.transition with
  | some t => if t.target == .run && t.next.isNone then s
      else s.mapPower fun p => { p with transition := some { t with wake := true } }
  | none =>
    match s.power.state with
    | .run => s
    | .off => s.mapPower fun p => { p with boot := .coldPending }
    | st =>
      let t : Transition :=
        { entry := returnEntry st, source := st, target := .run, next := none, step := 0, awaiting := [],
          cause := cause, wake := false }
      (s.mapPower fun p => { p with transition := some t }).advance advanceFuel

/-- R485: a domain, or VCORE, reports to the running transition. -/
def State.reported (s : State) (d : Nat) : State :=
  match s.power.transition with
  | none => s
  | some t =>
    if !t.awaiting.contains d then s
    else
      let act := ((powerSteps (nth s.live.table3 t.entry []))[t.step]?).elim 3 (·.2)
      let s := if d == awaitVcore then s else s.actOn d act
      let rest := t.awaiting.erase d
      if rest.isEmpty then
        (s.mapPower fun p => { p with transition := some { t with step := t.step + 1, awaiting := [] } }).advance
          advanceFuel
      else s.mapPower fun p => { p with transition := some { t with awaiting := rest } }

end Sys2Proof.Machine
end

