-- ==== Sys2Proof/Machine/Protocol.lean ====
section
/-!
DEFINITION. The command protocol: what becomes of a received packet before its command's own checks (R349 to R364, R309,
R310, R370, R480, R484, R513, R564, R566).
-/
namespace Sys2Proof.Machine

open Sys2Proof

/-! ### Sequence numbers (R353) -/

/-- R353: the classes of a sequence number. -/
inductive SeqClass where
  | duplicate | stale | fresh
deriving DecidableEq, Repr

/-- R353: classify. -/
def MasterState.classify (ms : MasterState) (seq : Word) : SeqClass :=
  match ms.newest with
  | none => .fresh
  | some n =>
    let d := (n - seq).toNat
    if d < 64 then (if ms.seen.any fun e => e.seq == seq then .duplicate else .fresh)
    else if d < 2 ^ 31 then .stale else .fresh

/-- R353: a new sequence is recorded as pending; one ahead of the newest moves the window. -/
def MasterState.accept (ms : MasterState) (seq : Word) : MasterState :=
  let n := match ms.newest with
    | none => seq
    | some n => if (n - seq).toNat < 2 ^ 31 then n else seq
  { ms with newest := some n, seen := (ms.seen.filter fun e => (n - e.seq).toNat < 64) ++ [⟨seq, none⟩] }

/-- R353, R355: the reply of a recorded sequence is kept. -/
def MasterState.keepReply (ms : MasterState) (seq : Word) (p : OutPacket) : MasterState :=
  { ms with seen := ms.seen.map fun e => if e.seq == seq then { e with reply := some p } else e }

/-! ### Replies -/

/-- R349: the reply to a request. -/
def State.replyTo (s : State) (opcode : Nat) (h : Hdr) (status : Status) (context : Word) (rep : Bool)
    (params : List Byte) : OutPacket :=
  { iface := h.iface, dest := h.src, isReply := true, rep := rep, opcode := BitVec.ofNat 16 opcode, status := status,
    seq := h.seq, device := BitVec.ofNat 8 s.deviceNo, master := h.iface.master, context := context,
    hostTag := h.hostTag, params := params }

/-- A reply to a packet whose sequence is not recorded (R351, checks before SEQUENCE). -/
def State.rejectNow (s : State) (opcode : Nat) (h : Hdr) (status : Status) (params : List Byte) : State :=
  s.sendPacket (s.replyTo opcode h status h.context false params)

/-- R358: the command's one reply, sent and kept, and what follows it. -/
def State.finish (opcode : Nat) (h : Hdr) (a : Answer) : State :=
  let p := a.st.replyTo opcode h a.status (a.context.getD h.context) a.rep a.params
  a.post ((a.st.mapMaster h.iface.master fun ms => ms.keepReply h.seq p).sendPacket p)

/-- R357: the open assembly that a packet matches. -/
def MasterState.assembly? (ms : MasterState) (opcode : Nat) (h : Hdr) : Option Assembly :=
  ms.assemblies.find? fun a => a.opcode.toNat == opcode && a.context == h.context && a.hostTag == h.hostTag

/-! ### Conflicts (R361, R362) -/

/-- R361: the objects that a command names: kind, number, whether it changes it. -/
def objectsOf (opcode : Nat) (h : Hdr) (ps : List Byte) : List (Nat × Nat × Bool) :=
  let b := fun (i : Nat) => (ps.getD i 0).toNat
  let ctx := h.context.toNat
  match opcode with
  | 0x0005 => [(2, 0, true)]
  | 0x0101 | 0x0102 | 0x0103 => [(6, be ps (if opcode == 0x0101 then 4 else 0) 4, true)]
  | 0x0104 => [(8, 0, true)]
  | 0x0105 => [(8, 0, false)]
  | 0x0106 => (6, be ps 0 4, false) :: (List.range (b 16)).map fun i => (6, be ps (20 + 4 * i) 4, false)
  | 0x0107 => [(7, ctx, true)]
  | 0x0201 => if b 5 == 2 then [(9, be ps 20 4, true)] else []
  | 0x0202 | 0x0205 => [(9, ctx, true)]
  | 0x0203 | 0x0204 => [(9, ctx, false)]
  | 0x0206 => if b 0 ≤ 1 then [(10, b 1, b 0 == 0)] else [(11, 0, b 0 == 2)]
  | 0x0302 | 0x0303 | 0x0304 | 0x0305 | 0x0306 => [(12, ctx, true)]
  | 0x0307 => [(12, ctx, false)]
  | 0x0401 => [(13, b 0, b 1 == 0)]
  | 0x0402 | 0x0403 => (portsOf (be ps 0 4)).map fun c => (13, c, true)
  | 0x0404 => [(13, b 0, false)]
  | 0x0501 | 0x0502 | 0x0503 => [(14, 0, true)]
  | 0x0504 => [(14, 0, false)]
  | 0x0601 => [(1, 0, b 0 != 0xFF)]
  | 0x0602 => [(1, 0, b 0 != 2)]
  | 0x0603 => [(1, 0, true)]
  | 0x0604 => [(1, 0, b 0 != 1)]
  | 0x0605 => [(1, 0, be ps 0 2 != 0)]
  | 0x0701 => [(3, 0, false)]
  | 0x0702 | 0x0705 => [(3, 0, true)]
  | 0x0703 => [(3, 0, b 0 != 0xFF)]
  | 0x0704 => [(3, 0, b 0 != 3)]
  | 0x0801 | 0x0802 | 0x0803 | 0x0804 | 0x0805 => [(4, 0, true)]
  | 0x0A01 => [(5, b 0, true)]
  | 0x0A02 => [(5, b 0, false)]
  | 0x0A03 => (5, 0, true) :: (List.range 6).map fun t => (5, t + 1, false)
  | 0x0A04 => [(5, 0, false)]
  | 0x0B01 | 0x0B02 | 0x0B03 => [(15, 0, true)]
  | 0x0B04 => [(15, 0, (b 1 / 8) % 4 != 0)]
  | _ => []

/-- R361: the master that wins a conflict over a command's objects. -/
def winnerOf (opcode : Nat) : MasterId :=
  let g := opcode / 256
  if opcode == 5 || g == 6 || g == 7 || g == 8 || g == 10 then .mgmt else .host

/-- R361: whether a command only reads. DECK_LOAD reads its model and makes a deck. -/
def readsOnly (opcode : Nat) (h : Hdr) (ps : List Byte) : Bool :=
  opcode != 0x0106 && (objectsOf opcode h ps).all fun a => !a.2.2

/-- R361: two commands that do not only read name an object that one of them changes. -/
def sameObject (p q : Nat × Hdr × List Byte) : Bool :=
  !readsOnly p.1 p.2.1 p.2.2 && !readsOnly q.1 q.2.1 q.2.2
    && (objectsOf p.1 p.2.1 p.2.2).any fun a => (objectsOf q.1 q.2.1 q.2.2).any fun b =>
      a.1 == b.1 && a.2.1 == b.2.1 && (a.2.2 || b.2.2)

/-- R361: two commands of different masters conflict. -/
def conflicting (p q : Nat × Hdr × List Byte) : Bool :=
  p.2.1.iface.master != q.2.1.iface.master && !(p.1 == q.1 && p.2.2 == q.2.2) && sameObject p q

/-- R361: two commands of different masters are identical, and change what they name. -/
def identical (p q : Nat × Hdr × List Byte) : Bool :=
  p.2.1.iface.master != q.2.1.iface.master && p.1 == q.1 && p.2.2 == q.2.2 && p.2.1.context == q.2.1.context && sameObject p q

/-- R353, R352: whether a waiting command would be accepted now. -/
def State.acceptable (s : State) (p : Nat × Hdr × List Byte) : Bool :=
  let ms := s.master p.2.1.iface.master
  ms.session && (ms.classify p.2.1.seq == .fresh || s.proto.held.contains (p.2.1.iface.master, p.2.1.seq))
    && !(s.proto.doomed.any fun d => d.master == p.2.1.iface.master && d.seq == p.2.1.seq)

/-- R356, R357: a command with its joined parameters: those of its open assembly before its own. -/
def State.joined (s : State) (p : Nat × Hdr × List Byte) : Nat × Hdr × List Byte :=
  match (s.master p.2.1.iface.master).assembly? p.1 p.2.1 with
  | some a => (p.1, p.2.1, a.data ++ p.2.2)
  | none => p

/-- R310, R361: whether a packet is for this device. -/
def State.forHere (s : State) (h : Hdr) : Bool :=
  h.device == 0xFF || h.device.toNat == (if h.iface == .hostLink then 0 else s.deviceNo)

/-- R361: the commands that are pending on this device beside one. -/
def State.others (s : State) : List (Nat × Hdr × List Byte) :=
  (((s.pending ++ s.proto.fwQueue).filterMap packetOf).map s.joined).filter fun q => s.forHere q.2.1 && s.acceptable q

/-- R361: the commands that are pending beside one and conflict with it. -/
def State.rivals (s : State) (p : Nat × Hdr × List Byte) : List (Nat × Hdr × List Byte) :=
  s.others.filter fun q => conflicting p q

/-- R360: the parameters of a SUPERSEDED reply. -/
def supersededParams (winner : MasterId) (opcode : Nat) (seq : Word) : List Byte :=
  beBytes 1 winner.code ++ zeros 1 ++ beBytes 2 opcode ++ beBytes 4 seq.toNat

/-- R362: the answer of a command that loses to the controller's POWER_STATE whose transition still runs. -/
def State.entryWins (s : State) (p : Nat × Hdr × List Byte) : Option (List Byte) :=
  match s.power.transition.bind (·.asked) with
  | some (m, seq, ps) =>
    if m == .mgmt && p.2.1.iface.master == .host && (objectsOf p.1 p.2.1 p.2.2).contains (1, 0, true)
        && !(p.1 == 0x0601 && p.2.2 == ps) then
      some (supersededParams .mgmt 0x0601 seq)
    else none
  | none => none

/-- R362: the conflict check: SUPERSEDED for a loser, none for a winner, whose losers are withdrawn. -/
def State.conflictCheck (s : State) (p : Nat × Hdr × List Byte) : Except Answer State :=
  let m := p.2.1.iface.master
  match s.proto.doomed.find? fun d => d.master == m && d.seq == p.2.1.seq with
  | some d =>
    let rest := s.proto.doomed.filter fun e => !(e.master == m && e.seq == p.2.1.seq)
    .error (answer .superseded (supersededParams d.winner d.winOpcode.toNat d.winSeq)
      { s with proto := { s.proto with doomed := rest } })
  | none =>
    match s.entryWins p with
    | some params => .error (answer .superseded params s)
    | none =>
      match s.rivals p with
      | [] => .ok s
      | q :: qs =>
        if winnerOf p.1 == m then
          let lost := (q :: qs).map fun r =>
            { master := r.2.1.iface.master, seq := r.2.1.seq, status := .superseded, winner := m,
              winOpcode := BitVec.ofNat 16 p.1, winSeq := p.2.1.seq : Doomed }
          .ok { s with proto := { s.proto with doomed := s.proto.doomed ++ lost } }
        else .error (answer .superseded (supersededParams q.2.1.iface.master q.1 q.2.1.seq) s)

/-- R361: an identical command's answer, when the other master's has run. -/
def State.twin? (s : State) (h : Hdr) : Option Twin :=
  s.proto.twins.find? fun t => t.master == h.iface.master && t.seq == h.seq

/-- R361: a command that has run leaves its answer for the identical commands that wait, which have no further effect. -/
def Answer.leftFor (a : Answer) (qs : List (Nat × Hdr × List Byte)) : Answer :=
  if qs.isEmpty || !(a.status == .ok || a.status == .accepted) then a
  else
    let new := qs.map fun q =>
      { master := q.2.1.iface.master, seq := q.2.1.seq, status := a.status, params := a.params, context := a.context : Twin }
    { a with st := { a.st with proto := { a.st.proto with twins := a.st.proto.twins ++ new } } }

/-! ### Device numbers (R310, R370, R513) -/

/-- R310: what becomes of a packet by its DEVICE. -/
inductive Verdict where
  | execute | broadcast | forward (d : Nat) | bad | unreachable
deriving DecidableEq, Repr

/-- R325: whether a device has a live route. -/
def State.routed (s : State) (d : Nat) : Bool := ((s.links.routes[d]?).join).isSome

/-- R310, R370: DEVICE of a packet. -/
def State.deviceVerdict (s : State) (h : Hdr) : Verdict :=
  let d := h.device.toNat
  match h.iface with
  | .hostLink =>
    if !s.links.isRoot then (if d == 0 || d == 0xFF then .execute else .bad)
    else if d == 0 then .execute
    else if d == 0xFF then .broadcast
    else if s.links.devices ≤ d then .bad
    else if s.routed d then .forward d else .unreachable
  | _ => if d == s.deviceNo || d == 0xFF then .execute else .bad

/-- R402: the commands that name device 0 only. -/
def rootOnly (opcode : Nat) : Bool := opcode == 0x0B01 || opcode == 0x0B02 || opcode == 0x0B03

/-- R310, R402: what becomes of a packet by its DEVICE and OPCODE. -/
def State.verdict (s : State) (opcode : Nat) (h : Hdr) : Verdict :=
  if h.iface == .hostLink && rootOnly opcode && h.device != 0 then .bad else s.deviceVerdict h

/-! ### Fragments (R356, R357) -/

/-- R357: an assembly ends and is discarded. -/
def MasterState.endAssembly (ms : MasterState) (opcode : Nat) (h : Hdr) : MasterState :=
  { ms with assemblies := ms.assemblies.filter fun a =>
      !(a.opcode.toNat == opcode && a.context == h.context && a.hostTag == h.hostTag) }

/-- R357: a discarded assembly of a master. -/
def State.endAssembly (s : State) (opcode : Nat) (h : Hdr) : State :=
  s.mapMaster h.iface.master fun ms => ms.endAssembly opcode h

/-- R357: the assembly with one more fragment. -/
def Assembly.join (a : Assembly) (seq : Word) (ps : List Byte) (ms : Nat) : Assembly :=
  { a with lastSeq := seq, frags := a.frags + 1, data := a.data ++ ps, lastMs := ms }

/-- R357: a fragment stored, or its failure; the last fragment gives the joined parameters to the command. -/
def State.assemble (s : State) (opcode : Nat) (h : Hdr) (ps : List Byte) (more : Bool)
    (run : List Byte → State → Answer) : Answer :=
  let m := h.iface.master
  let ended := s.endAssembly opcode h
  match (s.master m).assembly? opcode h with
  | none =>
    if !more then run ps s
    else if ps.isEmpty then badLength s
    else if 4 ≤ (s.master m).assemblies.length then failWith .busy s
    else
      let a : Assembly := ⟨BitVec.ofNat 16 opcode, h.context, h.hostTag, h.device, h.seq, 1, ps, s.recorder.windows⟩
      ok [] (s.mapMaster m fun ms => { ms with assemblies := ms.assemblies ++ [a] })
  | some a =>
    if ps.isEmpty then badLength ended
    else if 256 ≤ a.frags then badParam wholeOffset ended
    else if a.device != h.device then badParam wholeOffset ended
    else if more then
      ok [] (ended.mapMaster m fun ms =>
        { ms with assemblies := ms.assemblies ++ [a.join h.seq ps s.recorder.windows] })
    else run (a.data ++ ps) ended

/-! ### The checks from DEVICE on -/

/-- R513: the opcodes of the provisioning UART. -/
def uartOpcode (opcode : Nat) : Bool := opcode / 256 == 0 || opcode / 256 == 7 || opcode == 0x0801 || opcode == 0x0802

/-- R351: an opcode of the groups 0x00 to 0x0B, on the interface that it came by. -/
def opcodeKnown (h : Hdr) (opcode : Nat) : Bool :=
  (instrOf opcode h []).isSome && (h.iface != .uart || uartOpcode opcode)

/-- R566: the commands that the Seed ROM answers in network boot. -/
def networkBootOpcode (opcode : Nat) : Bool := [1, 2, 3, 5, 0x0704].contains opcode

/-- R351, R361: the checks from the conflict on, and the command's own; an identical command of the other master that has run
answers for it. A fragment with MORE is no command yet, and conflicts with none. -/
def State.judged (s : State) (opcode : Nat) (h : Hdr) (ps : List Byte) (more : Bool)
    (run : List Byte → State → Answer) : Answer :=
  let p := s.joined (opcode, h, ps)
  match (if more then none else s.twin? h) with
  | some t =>
    let rest := s.proto.twins.filter fun t => !(t.master == h.iface.master && t.seq == h.seq)
    { status := t.status, params := t.params, context := t.context, rep := false,
      st := { s with proto := { s.proto with twins := rest } }.endAssembly opcode h, post := id }
  | none =>
    match (if more then .ok s else s.conflictCheck p) with
    | .error a => { a with st := a.st.endAssembly opcode h }
    | .ok s => (s.assemble opcode h ps more run).leftFor (if more then [] else s.others.filter fun q => identical p q)

/-- R351: the checks from OPCODE on, once the sequence is recorded; a failing fragment ends its assembly (R357). -/
def State.checked (s : State) (opcode : Nat) (h : Hdr) (ps : List Byte) (more : Bool)
    (run : List Byte → State → Answer) : Answer :=
  let ended := s.endAssembly opcode h
  if !opcodeKnown h opcode then failWith .badOpcode ended
  else if !(s.master h.iface.master).session && !(1 ≤ opcode && opcode ≤ 4) then failWith .wrongState ended
  else if s.power.boot == .networkBoot && !networkBootOpcode opcode then failWith .busy ended
  else s.judged opcode h ps more run

/-- R355: a duplicate gets the stored reply with REPEAT 1, or is counted while its original is pending. -/
def State.duplicate (s : State) (h : Hdr) : State :=
  let m := h.iface.master
  match (((s.master m).seen.find? fun e => e.seq == h.seq).bind (·.reply)) with
  | some p => s.sendPacket { p with rep := true, iface := h.iface, dest := h.src }
  | none => s.mapMaster m fun ms => { ms with duplicates := satAdd ms.duplicates 1 }

/-- The packet that a waiting command or fragment is. -/
def queuedPacket (i : Instr) : Option (Nat × Hdr × List Byte) :=
  match i with
  | .fragmentReceived op h ps => some (op.toNat, h, ps)
  | i => packetOf i

/-- Whether a packet's sequence was recorded on its arrival, its checks up to OPCODE having passed. -/
def State.isHeld (s : State) (h : Hdr) : Bool := s.proto.held.contains (h.iface.master, h.seq)

/-- R357: a packet and a waiting command are fragments of one command. -/
def alike (opcode : Nat) (h : Hdr) (i : Instr) : Bool :=
  (queuedPacket i).any fun q =>
    q.1 == opcode && q.2.1.iface.master == h.iface.master && q.2.1.context == h.context && q.2.1.hostTag == h.hostTag

/-- R357: the sequence of the last fragment accepted of the command that a packet belongs to, whether it is stored or waits. -/
def State.lastFragment (s : State) (opcode : Nat) (h : Hdr) : Option Word :=
  let taken := (s.pending.filter fun i => (queuedPacket i).any fun q => s.isHeld q.2.1) ++ s.proto.fwQueue
  match (taken.filter (alike opcode h)).getLast? with
  | some (.fragmentReceived _ g _) => some g.seq
  | some _ => none
  | none => ((s.master h.iface.master).assembly? opcode h).map (·.lastSeq)

/-- R351 to R353, R355, R357: the check of SEQUENCE: a duplicate, a stale packet and a fragment out of order end here, and a new
packet is recorded. HELLO is no stale packet (R352, log 175). -/
def State.sequenced (s : State) (opcode : Nat) (h : Hdr) (k : State → State) : State :=
  let m := h.iface.master
  match (s.master m).classify h.seq with
  | .duplicate => s.duplicate h
  | .stale =>
    if opcode == 1 then k (s.mapMaster m fun ms => ms.accept h.seq)
    else (s.endAssembly opcode h).mapMaster m fun ms => { ms with stale := satAdd ms.stale 1 }
  | .fresh =>
    if (s.lastFragment opcode h).any fun last => h.seq != last + 1 then s
    else k (s.mapMaster m fun ms => ms.accept h.seq)

/-- R351, R358: a packet that this device executes, from SEQUENCE on: its checks and its one reply. -/
def State.execute (s : State) (opcode : Nat) (h : Hdr) (ps : List Byte) (more : Bool)
    (run : List Byte → State → Answer) : State :=
  s.sequenced opcode h fun s => State.finish opcode h (s.checked opcode h ps more run)

/-- R310: a packet forwarded on class 0, byte for byte as R349 lays it out. -/
def State.forwardTo (s : State) (opcode : Nat) (h : Hdr) (ps : List Byte) (more : Bool) (d : Nat) : State :=
  s.sendMessage none false d 1 0 0 0 0
    (packetBytes opcode (if more then 4 else 0) 0 h.seq h.device 0 h.context h.hostTag ps)

/-- R309, R310: a packet by the device it names; `here` is what this device does with one of its own. -/
def State.route (s : State) (opcode : Nat) (h : Hdr) (ps : List Byte) (more : Bool) (here : State → State) : State :=
  if h.iface == .hostLink && s.links.device.isSome && !s.links.isRoot && opcode != 0x0B01 then
    s.mapMaster .host fun ms => { ms with notRoot := satAdd ms.notRoot 1 }
  else
    match s.verdict opcode h with
    | .execute => here s
    | .broadcast =>
      let ds := (List.range s.links.devices).filter fun d => d != 0 && s.routed d
      here (ds.foldl (fun s d => s.forwardTo opcode h ps more d) s)
    | .forward d => s.forwardTo opcode h ps more d
    | .bad => (s.endAssembly opcode h).rejectNow opcode h .badParam (beBytes 4 wholeOffset)
    | .unreachable => (s.endAssembly opcode h).rejectNow opcode h .linkDown []

/-- R309, R310, R351: a packet from DEVICE on, executed where it is for this device. -/
def State.dispatch (s : State) (opcode : Nat) (h : Hdr) (ps : List Byte) (more : Bool)
    (run : List Byte → State → Answer) : State :=
  s.route opcode h ps more fun s => s.execute opcode h ps more run

/-! ### Power states and boot (R371, R480, R484, R564) -/

/-- Whether the interface takes packets at all now. -/
def State.listens (s : State) (i : Iface) : Bool :=
  (s.power.boot == .ready || s.power.boot == .networkBoot) &&
  match i with
  | .hostLink => s.hostLinkUp && s.padsOpen 106
  | .wakeBus => s.proto.replyQueue.length < 16
  | .uart => s.bark.lifecycle.toNat < 2
  | .selvage => s.links.device.isSome

/-- What a power state or a transition does with a packet. -/
inductive Gate where
  | run | hold | busy | discard
deriving DecidableEq, Repr

/-- R476, R480: the packets that Idle answers without leaving it: those of R480, and the POWER_STATE requests that R476
takes from Idle by entry 1. -/
def idleOpcode (opcode : Nat) (ps : List Byte) : Bool :=
  opcode == 2 || opcode == 3 || opcode == 4 || opcode == 6
    || (opcode == 0x0601 && (ps.getD 0 0 == 0xFF || (2 ≤ (ps.getD 0 0).toNat && (ps.getD 0 0).toNat ≤ 4)))

/-- R371, R475, R480, R484: what becomes of a packet in the present power state. -/
def State.gate (s : State) (opcode : Nat) (h : Hdr) (ps : List Byte) : Gate :=
  let wakeBus := h.iface == .wakeBus
  match s.power.transition with
  | none =>
    match s.power.state with
    | .run => .run
    | .idle => if h.iface == .uart then .discard else if idleOpcode opcode ps then .run else .hold
    | .sleep => if wakeBus || h.iface == .uart then .discard else .hold
    | .deepSleep | .off => .discard
  | some t =>
    match t.next.getD t.target with
    | .run => if (wakeBus && t.source != .idle) || h.iface == .uart then .discard else .hold
    | .idle => if h.iface == .uart then .discard else if opcode == 0x0601 then .busy else .hold
    | .sleep => if wakeBus || h.iface == .uart then .discard else if opcode == 0x0601 then .busy else .hold
    | .deepSleep | .off => .discard

/-- R371, R480, R484: whether a wake-bus frame is acknowledged and discarded, and wakes the part: in Sleep and Deep sleep,
from the acceptance of their entry until Run is reached. -/
def State.busWakes (s : State) : Bool :=
  let low := fun (p : PowerState) => p == .sleep || p == .deepSleep
  match s.power.transition with
  | none => low s.power.state
  | some t => low (t.next.getD t.target) || (t.target == .run && t.next.isNone && low t.source)

/-- R480, R484: whether a packet of the firmware queue is the Treadle's to interpret now. -/
def State.interprets (s : State) (i : Instr) : Bool :=
  (s.power.boot == .ready || s.power.boot == .networkBoot) &&
  match queuedPacket i with
  | some (op, h, ps) => s.gate op h ps == .run || s.gate op h ps == .busy
  | none => true

/-- R364: the commands that the hardware decoder takes, when they are not fragmented. -/
def streamOpcode (opcode : Nat) : Bool := opcode == 0x0302 || opcode == 0x0303

/-- R364: whether a waiting packet is a stream command of the hardware decoder. -/
def streamPacket (i : Instr) : Bool := (packetOf i).any fun q => streamOpcode q.1

/-- R364: whether a packet waits behind one that was accepted before it: a stream command behind firmware commands of its master
and CONTEXT, any other behind every firmware command. -/
def waitsBehind (opcode : Nat) (h : Hdr) (more : Bool) (i : Instr) : Bool :=
  !streamPacket i && (queuedPacket i).any fun q =>
    !(streamOpcode opcode && !more) || q.2.1.iface.master == h.iface.master && q.2.1.context == h.context

/-- R364: whether a packet has to wait for packets of the firmware queue. -/
def State.mustWait (s : State) (opcode : Nat) (h : Hdr) (more : Bool) : Bool :=
  s.proto.fwQueue.any fun i => s.interprets i && waitsBehind opcode h more i

/-- R364: the firmware queue is full. -/
def State.queueFull (s : State) : Bool := 256 ≤ (s.proto.fwQueue.filter fun i => !streamPacket i).length

/-- R351, R364, R480: what the hardware decoder does with a packet that waits: its checks up to OPCODE, the refusal of a loser
(R362), BUSY when the firmware queue that it needs is full; otherwise it is recorded and queued. -/
def State.enqueue (s : State) (i : Instr) (opcode : Nat) (h : Hdr) (ps : List Byte) (more : Bool) : State :=
  s.route opcode h ps more fun s =>
    s.sequenced opcode h fun s =>
      if !opcodeKnown h opcode then State.finish opcode h (failWith .badOpcode (s.endAssembly opcode h))
      else
        match (if more then none else s.entryWins (s.joined (opcode, h, ps))) with
        | some params => State.finish opcode h (answer .superseded params (s.endAssembly opcode h))
        | none =>
          if s.queueFull && !(streamOpcode opcode && !more) then State.finish opcode h (failWith .busy s)
          else
            { s with proto := { s.proto with
                fwQueue := s.proto.fwQueue ++ [i], held := s.proto.held ++ [(h.iface.master, h.seq)] } }

/-- R364: a packet of the firmware queue as its turn comes; one that the power state now holds goes back. -/
def State.runHeld (s : State) (i : Instr) (opcode : Nat) (h : Hdr) (ps : List Byte) (more : Bool)
    (run : List Byte → State → Answer) : State :=
  let taken := { s with proto := { s.proto with held := s.proto.held.erase (h.iface.master, h.seq) } }
  match s.gate opcode h ps with
  | .run => State.finish opcode h (taken.checked opcode h ps more run)
  | .busy => State.finish opcode h (taken.checked opcode h ps more fun _ s => failWith .busy s)
  | .hold | .discard => { s with proto := { s.proto with fwQueue := s.proto.fwQueue ++ [i] } }

/-- R333, R334: a packet on a host link that must be secured and is not is discarded and counted. -/
def State.unheard (s : State) (i : Iface) : State :=
  if i == .hostLink && (s.power.boot == .ready || s.power.boot == .networkBoot) && s.net.rate != 0 && s.padsOpen 106 then
    { s with net := { s.net with rxDiscard := satAdd s.net.rxDiscard 1 } }
  else s

/-- A command packet from the DEVICE check on. `i` is the packet as a waiting command, and `run` the command's own
part over its joined parameters. -/
def State.command (s : State) (i : Instr) (opcode : Nat) (h : Hdr) (ps : List Byte) (more : Bool)
    (run : List Byte → State → Answer) : State :=
  if s.isHeld h then s.runHeld i opcode h ps more run
  else if h.iface == .wakeBus && s.power.boot == .ready && s.busWakes then s.wake 1
  else if !s.listens h.iface then s.unheard h.iface
  else
    match s.gate opcode h ps with
    | .run => if s.mustWait opcode h more then s.enqueue i opcode h ps more else s.dispatch opcode h ps more run
    | .discard => s
    | .busy => s.dispatch opcode h ps more fun _ s => failWith .busy s
    | .hold => (s.enqueue i opcode h ps more).wake 0

/-- A packet of an opcode that is no command: answered BAD_OPCODE once recorded (R351). -/
def State.unknownOpcode (s : State) (opcode : Nat) (h : Hdr) (ps : List Byte) (more : Bool) : State :=
  s.dispatch opcode h ps more fun _ s => failWith .badOpcode s

/-! ### Raw packets (R349 to R351, R370) -/

/-- R349: the header of a raw packet. -/
def rawHdr (iface : Iface) (src : Endpoint) (b : List Byte) : Hdr :=
  { iface := iface, src := src, seq := BitVec.ofNat 32 (be b 8 4), device := b.getD 12 0,
    context := BitVec.ofNat 32 (be b 16 4), hostTag := BitVec.ofNat 32 (be b 20 4) }

/-- R349: a raw packet's OPCODE. -/
def rawOpcode (b : List Byte) : Nat := be b 4 2

/-- R349: a raw packet's parameters. -/
def rawParams (b : List Byte) : List Byte := slice b 32 (be b 14 2)

/-- R350: MORE of a raw packet. -/
def rawMore (b : List Byte) : Bool := (b.getD 3 0).getLsbD 2

/-- R351: the first two checks. -/
def rawHeaderOk (b : List Byte) : Bool :=
  32 ≤ b.length && be b 0 2 == 0x594C && be b 28 4 == (crc32c (b.take 28)).toNat && fld (b.getD 3 0) 1 0 == 0

/-- R351: the checks from PARAM_LEN to the agreement of MASTER and MGMT with the interface; none when all pass. -/
def rawFault (iface : Iface) (b : List Byte) : Option (Status × List Byte) :=
  let len := be b 14 2
  let bad := some (Status.badParam, beBytes 4 wholeOffset)
  if 8960 < len || b.length != 36 + len then some (.badLength, beBytes 4 wholeOffset)
  else if be b (32 + len) 4 != (if len == 0 then 0 else (crc32c (rawParams b)).toNat) then some (.badCrc, [])
  else if b.getD 2 0 != 1 || be b 6 2 != 0 || be b 24 4 != 0 || fld (b.getD 3 0) 7 5 != 0 then bad
  else if (b.getD 13 0).toNat != iface.master.code || (b.getD 3 0).getLsbD 4 != (iface.master == .mgmt) then bad
  else none

/-- A well-formed packet as a waiting command; none for an opcode that is no command. -/
def rawInstr (iface : Iface) (src : Endpoint) (b : List Byte) : Option Instr :=
  let h := rawHdr iface src b
  if (instrOf (rawOpcode b) h []).isNone then none
  else if rawMore b then some (.fragmentReceived (BitVec.ofNat 16 (rawOpcode b)) h (rawParams b))
  else instrOf (rawOpcode b) h (rawParams b)

/-- R349, R350: MASTER and MGMT of a raw packet, which its reply copies where they do not agree with its interface. -/
def rawCopied (iface : Iface) (b : List Byte) : Option (Byte × Bool) :=
  let m := b.getD 13 0; let g := (b.getD 3 0).getLsbD 4
  if m.toNat == iface.master.code && g == (iface.master == .mgmt) then none else some (m, g)

/-- R351: the reply to a raw packet that fails a check before DEVICE. -/
def State.rejectRaw (s : State) (iface : Iface) (src : Endpoint) (b : List Byte) (st : Status) (ps : List Byte) : State :=
  let h := rawHdr iface src b
  (s.endAssembly (rawOpcode b) h).sendPacket
    { s.replyTo (rawOpcode b) h st h.context false ps with copied := rawCopied iface b }

/-- R513: a command of the UART is pending. -/
def State.uartBusy (s : State) : Bool :=
  (s.proto.fwQueue ++ s.pending).any fun i => (queuedPacket i).any fun p => p.2.1.iface == .uart && s.isHeld p.2.1

/-- R351, R364: a raw packet: its faults, and otherwise its way to the firmware queue or to another device. -/
def State.receiveRaw (s : State) (iface : Iface) (src : Endpoint) (b : List Byte) : State :=
  let h := rawHdr iface src b
  let op := rawOpcode b
  if !s.listens iface then s.unheard iface
  else if iface == .uart && s.uartBusy then s
  else if !rawHeaderOk b then
    s.mapMaster iface.master fun ms => { ms with badHeader := satAdd ms.badHeader 1 }
  else if iface == .hostLink && s.links.device.isSome && !s.links.isRoot && op != 0x0B01 then
    s.mapMaster .host fun ms => { ms with notRoot := satAdd ms.notRoot 1 }
  else
    match rawFault iface b with
    | some (st, ps) => s.rejectRaw iface src b st ps
    | none =>
      match rawInstr iface src b with
      | none => s.unknownOpcode op h (rawParams b) (rawMore b)
      | some i =>
        match s.gate op h (rawParams b) with
        | .discard => s
        | .busy => s.dispatch op h (rawParams b) (rawMore b) fun _ s => failWith .busy s
        | .hold => (s.enqueue i op h (rawParams b) (rawMore b)).wake 0
        | .run => s.enqueue i op h (rawParams b) (rawMore b)

end Sys2Proof.Machine
end

