-- ==== Sys2Proof/Machine/Session.lean ====
section
/-!
DEFINITION. The commands of group 0x00 (R374 to R376).
-/
namespace Sys2Proof.Machine

open Sys2Proof

/-! ### HELLO (R352, R374) -/

/-- R352: what HELLO leaves of a master's state: its own sequence alone, no event sent yet, no assembly. -/
def MasterState.opened (ms : MasterState) (h : Hdr) (mask : Nat) : MasterState :=
  { ms with
    session := true, eventMask := BitVec.ofNat 16 mask, dest := h.src, iface := h.iface, newest := some h.seq,
    seen := [⟨h.seq, none⟩], eventSeq := 0, assemblies := [] }

/-- R374: HELLO. -/
def helloBody (h : Hdr) (ps : List Byte) (s : State) : Answer :=
  if ps.length != 4 then badLength s
  else
    match firstBad [(0, be ps 0 2 < 64), (2, zeroAt ps 2 2)] with
    | some off => badParam off s
    | none =>
      let s := s.mapMaster h.iface.master fun ms => ms.opened h (be ps 0 2)
      ok (beBytes 2 8960 ++ zeros 2 ++ beBytes 4 s.bark.fwVersion.toNat) s

/-- HELLO. -/
def execHello (h : Hdr) (ps : List Byte) (s : State) : Host.Outcome State Fault Refusal :=
  .next (s.command (.hello h ps) 0x0001 h ps false (helloBody h))

/-! ### IDENTIFY (R375) -/

/-- R375: DEGRADED. -/
def State.degraded (s : State) : Nat :=
  (if s.mappedDents < 64 then 1 else 0)
    + (if s.units.populated &&& ~~~ s.units.present == 0 then 0 else 2)
    + (if s.units.clusters.any fun c => c.spare.isNone then 4 else 0)
    + (if s.units.looms.any fun l => l.lanes != 0xFFFF then 8 else 0)

/-- R38: the active positions of a cluster. -/
def Cluster.active (c : Cluster) : List Nat :=
  (List.range 17).filter fun p => c.spare != some p && !((c.shuttles[p]?).elim true (·.failed))

/-- R375: ACTIVE_SHUTTLES. -/
def State.activeShuttles (s : State) : Nat := (s.units.clusters.map fun c => c.active.length).foldl (· + ·) 0

/-- R320: this device's phase. -/
def State.phase (s : State) : Nat :=
  match s.links.device with
  | none => 0
  | some d => (nth s.links.phases d 0).toNat

/-- R375: the identity record. -/
def State.identity (s : State) : List Byte :=
  beBytes 8 Config.serial.toNat ++ [if Config.variantE then 1 else 0, 0xB1, s.bark.lifecycle, 0]
    ++ beBytes 4 s.bark.fwVersion.toNat ++ beBytes 6 Config.mac.toNat
    ++ beBytes 1 s.mappedDents ++ beBytes 1 s.degraded ++ beBytes 2 s.activeShuttles
    ++ beBytes 2 s.units.present.toNat ++ beBytes 1 (s.links.device.getD 0xFF) ++ beBytes 1 s.links.devices
    ++ beBytes 1 s.phase ++ zeros 1

/-- R375: IDENTIFY. -/
def identifyBody (ps : List Byte) (s : State) : Answer := if ps.isEmpty then ok s.identity s else badLength s

/-- IDENTIFY. -/
def execIdentify (h : Hdr) (ps : List Byte) (s : State) : Host.Outcome State Fault Refusal :=
  .next (s.command (.identify h ps) 0x0002 h ps false identifyBody)

/-! ### PING -/

/-- R374: PING. -/
def pingBody (ps : List Byte) (s : State) : Answer := if ps.length ≤ 8960 then ok ps s else badLength s

/-- PING. -/
def execPing (h : Hdr) (ps : List Byte) (s : State) : Host.Outcome State Fault Refusal :=
  .next (s.command (.ping h ps) 0x0003 h ps false pingBody)

/-! ### STATUS (R372, R376) -/

/-- R372: PROTO_COUNTS. -/
def MasterState.counts (ms : MasterState) : List Byte :=
  beBytes 2 ms.badHeader.toNat ++ beBytes 2 ms.stale.toNat ++ beBytes 4 ms.duplicates.toNat
    ++ beBytes 4 ms.eventsDropped.toNat ++ beBytes 2 ms.fragExpired.toNat ++ beBytes 2 ms.notRoot.toNat

/-- R376: FAILED_LOOMS. -/
def State.failedLooms (s : State) : Nat := maskOf 68 fun n => (s.loom n).failed

/-- R376: the status record. -/
def State.statusRecord (s : State) : List Byte :=
  beBytes 1 s.power.state.code ++ beBytes 1 s.degraded ++ beBytes 1 s.mappedDents ++ zeros 1
    ++ beBytes 2 s.sched.jobs.length ++ beBytes 2 s.audio.streams.length ++ beBytes 4 s.sysFree
    ++ beBytes 16 s.failedLooms ++ zeros 4 ++ s.proto.host.counts ++ s.proto.mgmt.counts
    ++ (s.memory.vaultCorr.flatMap fun c => beBytes 4 c.toNat) ++ (s.memory.chCorr.flatMap fun c => beBytes 4 c.toNat)

/-- R376: STATUS. -/
def statusBody (ps : List Byte) (s : State) : Answer := if ps.isEmpty then ok s.statusRecord s else badLength s

/-- STATUS. -/
def execStatus (h : Hdr) (ps : List Byte) (s : State) : Host.Outcome State Fault Refusal :=
  .next (s.command (.status h ps) 0x0004 h ps false statusBody)

/-! ### RESET -/

/-- R374, R572, R563: RESET answers and its reset follows. -/
def resetBody (ps : List Byte) (s : State) : Answer :=
  if ps.length != 4 then badLength s
  else
    match firstBad [(0, be ps 0 1 ≤ 1), (1, zeroAt ps 1 3)] with
    | some off => badParam off s
    | none => ok [] (s.mapPower fun p => { p with boot := if be ps 0 1 == 0 then .warmPending else .coldPending })

/-- RESET. -/
def execReset (h : Hdr) (ps : List Byte) (s : State) : Host.Outcome State Fault Refusal :=
  .next (s.command (.reset h ps) 0x0005 h ps false resetBody)

/-! ### PACE_READ (R51, R374) -/

/-- R51: a pace record. -/
def PaceCounter.record (c : PaceCounter) : List Byte :=
  beBytes 8 c.waves.toNat ++ beBytes 1 c.kind ++ beBytes 1 c.index
    ++ beBytes 6 (c.minRate.toNat * 2 ^ 22 + (if c.valid then 2 ^ 21 else 0) + c.rate.toNat)

/-- R374: the units of a kind. -/
def paceUnits (kind : Nat) : Nat := if kind == 0 then 68 else if kind == 1 then 16 else 1

/-- R374: whether a PACE_READ names a counter. -/
def paceNamed (kind first count : Nat) (c : PaceCounter) : Bool :=
  kind == 0xFF || (c.kind == kind && first ≤ c.index && c.index < first + count)

/-- R374: PACE_READ. -/
def paceReadBody (ps : List Byte) (s : State) : Answer :=
  if ps.length != 4 then badLength s
  else
    let kind := be ps 0 1; let first := be ps 1 1; let count := be ps 2 1
    match firstBad [(0, kind ≤ 2 || kind == 0xFF), (1, kind == 0xFF || first + count ≤ paceUnits kind),
        (2, kind == 0xFF || count != 0), (3, be ps 3 1 ≤ 1)] with
    | some off => badParam off s
    | none =>
      let read := fun (c : PaceCounter) => paceNamed kind first count c && s.domainOn c.domain
      let records := (s.pace.counters.filter read).flatMap PaceCounter.record
      let cleared := s.pace.counters.map fun c => if read c then { c with minRate := 0, cleared := true } else c
      if be ps 3 1 == 0 then ok records s else ok records { s with pace := { s.pace with counters := cleared } }

/-- PACE_READ. -/
def execPaceRead (h : Hdr) (ps : List Byte) (s : State) : Host.Outcome State Fault Refusal :=
  .next (s.command (.paceRead h ps) 0x0006 h ps false paceReadBody)

end Sys2Proof.Machine
end

