-- ==== Sys2Proof/Machine/Transfers.lean ====
section
/-!
DEFINITION. Transfers of the fetch engine: issue, pieces and completion (R101, R103, R125, R130, R173 to R176, R257, R263,
R265).
-/
namespace Sys2Proof.Machine

open Sys2Proof

/-! ### Bytes of a transfer -/

/-- Scratch lines of a row of a transfer. -/
def Transfer.rowLinesOf (t : Transfer) : Nat := fld t.card 38 27 + 1

/-- Device address of a byte of row r. -/
def Transfer.at_ (t : Transfer) (r off : Nat) : Nat := t.addr + 64 * t.stride * r + off

/-- Change a context's scratch or stripe buffer. -/
def Ctx.mapLines (c : Ctx) (stripe : Bool) (f : Mem → Mem) : Ctx :=
  if stripe then { c with stripe := f c.stripe } else { c with scratch := f c.scratch }

/-- A context's scratch or stripe buffer. -/
def Ctx.lines (c : Ctx) (stripe : Bool) : Mem := if stripe then c.stripe else c.scratch

/-- Bytes of row r that a store sends, from offset `off`. -/
def Transfer.source (t : Transfer) (c : Ctx) (r off len : Nat) : List Byte :=
  if t.kind == .storeC then t.data.read (t.rowBytes * r + off) len
  else (c.lines t.isStripe).read (64 * (t.line + r * t.rowLinesOf) + off) len

/-- R130: the row of a store whose byte prevails at offset `o` past row 0. -/
def Transfer.lastRow (t : Transfer) (o : Nat) : Nat :=
  if t.stride == 0 then t.rows - 1 else min (t.rows - 1) (o / (64 * t.stride))

/-- R130: the bytes of a piece of a store; where rows overlap, those of the higher-numbered row. -/
def Transfer.pieceBytes (t : Transfer) (c : Ctx) (p : Piece) : List Byte :=
  if 64 * t.stride < t.rowBytes && 1 < t.rows then
    (List.range p.len).flatMap fun i =>
      let o := 64 * t.stride * p.row + p.off + i
      let r := t.lastRow o
      t.source c r (o - 64 * t.stride * r) 1
  else t.source c p.row p.off p.len

/-! ### Completion -/

/-- R101: a context's completed transfers leave in order, and add the tokens of their SIG flags. -/
def State.flushTransfers (s : State) (job : Word) (pos : Nat) : State :=
  let mine := s.sched.transfers.filter fun t => t.job == job && t.position == pos
  let done := mine.takeWhile fun t => !t.outstanding
  let s1 := done.foldl (fun s t =>
    if sigOf t.card then s.mapCtx job pos fun c => { c with arch := c.arch.mapTokens (bobbinOf t.card) (· ++ [0]) }
    else s) s
  let rest := s.sched.transfers.zipIdx.filter fun p =>
    !(p.1.job == job && p.1.position == pos
      && ((s.sched.transfers.take (p.2 + 1)).filter fun t => t.job == job && t.position == pos).length ≤ done.length)
  { s1 with sched := { s1.sched with transfers := rest.map (·.1) } }

/-- R176: a LOAD_C whose bytes are all there: its rows decoded into scratch. -/
def Transfer.decoded (t : Transfer) (c : Ctx) : Ctx :=
  let fmt := codecFmt t.card
  let rows := (List.range t.rows).map fun r =>
    decodeRow t.card c.arch.fetchKey t.step.toNat r (t.data.read (t.rowBytes * r) t.rowBytes)
  let bytes := rows.flatMap fun row => packRow fmt.container (row.map (·.1))
  let c := c.mapLines t.isStripe fun m => m.write (64 * t.line) bytes
  { c with arch := { c.arch with arithFlags := raiseAll c.arch.arithFlags (rows.flatMap fun row => row.map (·.2)) } }

/-- R87, R176: what a completed transfer does to its context: a LOAD_C is decoded, a STORE_C's flags are joined. -/
def Transfer.settled (t : Transfer) (c : Ctx) : Ctx :=
  match t.kind with
  | .loadC => t.decoded c
  | .storeC => { c with arch := { c.arch with arithFlags := mergeFlags c.arch.arithFlags t.flags } }
  | _ => c

/-- R87, R101, R132, R178: a transfer has completed: its context is settled, its waves are charged, its token is added. -/
def State.completeTransfer (s : State) (t : Transfer) : State :=
  let s := s.mapCtx t.job t.position t.settled
  let s := (s.charge t.job t.position [.fetch] t.waves 0).flushTransfers t.job t.position
  (s.settleJob t.job).refresh t.loom

/-- The transfer that carries a tag of a Loom, with the piece. -/
def State.tagged (s : State) (loom tag : Nat) : Option (Transfer × Piece) :=
  s.sched.transfers.findSome? fun t =>
    if t.loom == loom then (t.pieces.find? fun p => p.tag == some tag).map fun p => (t, p) else none

/-- Replace the transfer that carries a tag. -/
def State.mapTagged (s : State) (loom tag : Nat) (f : Transfer → Transfer) : State :=
  let ts := modifyFirst s.sched.transfers (fun t => t.loom == loom && t.pieces.any fun p => p.tag == some tag) f
  { s with sched := { s.sched with transfers := ts } }

/-- R263, R265: a piece is done and its tag is free; the transfer completes with its last piece. -/
def State.donePiece (s : State) (loom tag : Nat) : State :=
  match s.tagged loom tag with
  | none => s
  | some (t, _) =>
    let left := t.pieces.filter fun p => p.tag != some tag
    let s := s.mapTagged loom tag fun t => { t with pieces := left }
    if left.isEmpty then s.completeTransfer t else s

/-! ### Pieces -/

/-- R265: a piece tag of a Loom that is free. -/
def State.freeTag (s : State) (loom : Nat) : Option Nat :=
  let used := (s.sched.transfers.filter fun t => t.loom == loom).flatMap fun t => t.pieces.filterMap (·.tag)
  (List.range 64).find? fun i => !used.contains i

/-- A piece issued with a tag: the first that has none. -/
def issueFirst (tag : Nat) : List Piece → List Piece
  | [] => []
  | p :: ps => if p.tag.isNone then { p with tag := some tag } :: ps else p :: issueFirst tag ps

/-- R265: the oldest transfer's next piece issues. -/
def State.issuePiece (s : State) (loom : Nat) : State :=
  let waits := fun (t : Transfer) => t.loom == loom && t.pieces.any fun p => p.tag.isNone
  match s.freeTag loom with
  | none => s
  | some tag =>
    let ts := modifyFirst s.sched.transfers waits fun t => { t with pieces := issueFirst tag t.pieces }
    { s with sched := { s.sched with transfers := ts } }

/-- R255: the dent that runs a context. -/
def State.dentOfCtx (s : State) (job : Word) (pos : Nat) : Option Nat := (s.ctx? job pos).map (·.dent)

/-- R130, R176, R253: a piece of a load delivers its bytes: a LOAD into its lines, a LOAD_C into the transfer. -/
def State.deliver (s : State) (t : Transfer) (p : Piece) (a : Alternative) : State :=
  let addr := t.at_ p.row p.off
  let bs := match s.locate a (s.dentOfCtx t.job t.position) addr with
    | some l => s.readLoc l p.len
    | none => zeros p.len
  if t.kind == .loadC then
    let gather := fun (u : Transfer) => { u with data := u.data.write (t.rowBytes * p.row + p.off) bs }
    { s with sched := { s.sched with transfers := modifyFirst s.sched.transfers (fun u => u == t) gather } }
  else
    s.mapCtx t.job t.position fun c =>
      c.mapLines t.isStripe fun m => m.write (64 * (t.line + p.row * t.rowLinesOf) + p.off) bs

/-- R213, R257: a complete record reaches a port, and its piece waits there. -/
def State.arriveAtPort (s : State) (t : Transfer) (p : Piece) (tag : Nat) (l : Loc) : State :=
  match s.ctx? t.job t.position with
  | none => s
  | some c =>
    let r : PortRecord := ⟨t.loom, tag, t.source c p.row p.off p.len⟩
    let add := fun (inbox : List PortRecord) => if inbox.any fun q => q.loom == t.loom && q.tag == tag then inbox else inbox ++ [r]
    match l with
    | .frame k _ =>
      match s.audio.streams.find? fun st => st.port == k with
      | some st => s.mapStream st.id fun st => { st with inbox := add st.inbox }
      | none => s.donePiece t.loom tag
    | .token _ _ => s.mapJob t.job fun j => { j with tokenInbox := add j.tokenInbox }
    | _ => s

/-- R24: where a piece goes: its vault, channel, frame port or token port. -/
def Loc.target (l : Loc) : Nat × Nat :=
  match l with
  | .vault k => (0, k / 2 ^ 30)
  | .chan k => (1, k / 2 ^ 35)
  | .frame k _ => (2, k)
  | .token k _ => (3, k)

/-- Where a piece of a transfer reads or writes. -/
def State.pieceLoc (s : State) (t : Transfer) (p : Piece) : Option Loc :=
  ((s.job? t.job).bind Job.alt).bind fun a => s.locate a (s.dentOfCtx t.job t.position) (t.at_ p.row p.off)

/-- R24: the target of a piece of a transfer. -/
def State.targetOf (s : State) (t : Transfer) (p : Piece) : Option (Nat × Nat) := (s.pieceLoc t p).map Loc.target

/-- R24, R45, R102: the pieces that a Loom has issued, in order of issue, up to the one that carries a tag. -/
def State.issuedBefore (s : State) (loom tag : Nat) : List (Transfer × Piece) :=
  let issued := (s.sched.transfers.filter fun t => t.loom == loom).flatMap fun t =>
    (t.pieces.filter fun p => p.tag.isSome).map fun p => (t, p)
  issued.takeWhile fun q => q.2.tag != some tag

/-- R24: no earlier piece of the Loom to the same target is on its way (log 156, DEDUCED). -/
def State.inOrder (s : State) (loom tag : Nat) (t : Transfer) (p : Piece) : Bool :=
  !((s.issuedBefore loom tag).any fun q => s.targetOf q.1 q.2 == s.targetOf t p)

/-- R24, R263: a piece has finished its path. One that an earlier piece of its Loom to its target precedes has not. -/
def State.finishPiece (s : State) (loom tag : Nat) : State :=
  match s.tagged loom tag with
  | none => s
  | some (t, p) =>
    if !s.inOrder loom tag t p then s
    else match (s.job? t.job).bind Job.alt, s.ctx? t.job t.position with
    | some a, some c =>
      match t.kind with
      | .load | .loadC => (s.deliver t p a).donePiece loom tag
      | .store | .storeC =>
        match s.locate a (some c.dent) (t.at_ p.row p.off) with
        | some (.frame k o) => s.arriveAtPort t p tag (.frame k o)
        | some (.token k o) => s.arriveAtPort t p tag (.token k o)
        | some l => (s.writeLoc l (t.pieceBytes c p)).donePiece loom tag
        | none => s.donePiece loom tag
    | _, _ => s

/-- PIECE_ISSUE. -/
def execPieceIssue (loom : Nat) (s : State) : Host.Outcome State Fault Refusal :=
  .next (if s.computing && !(s.loom loom).failed then s.issuePiece loom else s)

/-- R244, R250: the corrected words that a piece of a load reads. -/
def State.pieceCorrected (s : State) (loom tag n : Nat) : State :=
  match s.tagged loom tag with
  | none => s
  | some (t, p) =>
    if t.kind == .store || t.kind == .storeC || !s.inOrder loom tag t p then s
    else match s.targetOf t p with
      | some (0, v) => s.countCorrected true v n
      | some (1, c) => s.countCorrected false c n
      | _ => s

/-- PIECE_COMPLETE. -/
def execPieceComplete (loom : Nat) (e : PieceEnd) (s : State) : Host.Outcome State Fault Refusal :=
  .next (if s.computing then (s.pieceCorrected loom e.tag e.corrected).finishPiece loom e.tag else s)

/-! ### Saves (R119, R125) -/

/-- R125: a transfer that a save abandons: the last card that its context issued on the fetch engine, with pieces that have
not issued and none on its way. -/
def Transfer.abandonable (t : Transfer) (c : Ctx) : Bool :=
  t.outstanding && t.pieces.all (·.tag.isNone) && t.cardIdx + 1 == c.arch.fetch.card

/-- R119, R125: a save can be taken: no transfer is outstanding, but for one that it abandons. -/
def State.savable (s : State) (c : Ctx) : Bool :=
  match s.outstandingOf c with
  | [] => true
  | [t] => t.abandonable c
  | _ => false

/-- R233: a LOAD_C or STORE_C that draws. -/
def drawsFetch (card : Card) : Bool := (opOf card == 3 || opOf card == 4) && roundOf card == 2

/-- R125: the QSTAT or NARROW that a context has in progress is abandoned: it leaves its Scale unit, and its run is charged. -/
def State.abandonScale (s : State) (c : Ctx) : State :=
  if !(s.sched.scale.any fun q => q.2 == (c.job, c.position)) then s
  else
    let s := s.leaveScale c.job c.position
    match s.nextCard c .execute with
    | none => s
    | some card => s.charge c.job c.position [.execute] (cardWaves s.live.table1 16 0 card) 0

/-- R119, R125: a save: an abandoned transfer is charged in full, and issues again after the restore, with its step. A QSTAT or
NARROW in progress is abandoned, its run is charged, and it issues again (log 158). -/
def State.saveCtx (s : State) (c : Ctx) : State :=
  let s := s.abandonScale c
  match s.outstandingOf c with
  | [t] =>
    let s := s.charge c.job c.position [.fetch] t.waves 0
    let s1 := { s with sched := { s.sched with transfers := s.sched.transfers.filter fun u => u != t } }
    s1.mapCtx c.job c.position fun c =>
      let back : DWord := if drawsFetch t.card then 1 else 0
      { c with
        arch := { c.arch with
          fetch := { c.arch.fetch with card := t.cardIdx }, fetchStep := c.arch.fetchStep - back } }
  | _ => s

end Sys2Proof.Machine
end

