-- ==== Sys2Proof/Machine/Sched.lean ====
section
/-!
DEFINITION. Starting jobs (R268 to R271, R387, R397), residence and displacement (R91, R242, R275 to R284), and replay from a
knot slot (R120, R284, R532).
-/
namespace Sys2Proof.Machine

open Sys2Proof

/-! ### The start queue -/

/-- R268: the jobs that wait to start, in the order of the start queue. -/
def State.startQueue (s : State) : List Job :=
  let waits := s.sched.jobs.filter fun j => j.kind != .member && !j.started && !j.stopping
  sortDown s.shareOf (sortBy (·.order) waits)

/-- Two alternatives share a dent or a channel (R259). -/
def Alternative.meets (a b : Alternative) : Bool :=
  (a.vaultDents &&& b.vaultDents) != 0 || (a.channels &&& b.channels) != 0

/-- R259, R270: the alternatives that hold dents and channels against a job: those of started jobs, and another's reserved
one. -/
def State.heldAgainst (s : State) (j : Job) : List Alternative :=
  s.sched.jobs.filterMap fun k =>
    if k.id == j.id || k.ready then none
    else if k.started then k.alt
    else k.reserved.bind fun i => k.image.alts[i]?

/-- R269: matching and foreign of an alternative. -/
def State.scoreOf (s : State) (a : Alternative) : Nat × Nat :=
  let tags := (dentsOf a.vaultDents).filterMap fun d => (s.units.tags[d]?).join
  ((tags.filter fun t => a.affinity != 0 && t == a.affinity).length,
   (tags.filter fun t => a.affinity == 0 || t != a.affinity).length)

/-- R269: the highest-scoring of a job's usable alternatives that `free` admits. -/
def State.bestAlt (s : State) (j : Job) (free : Alternative → Bool) : Option Nat :=
  let usable := j.image.alts.zipIdx.filter fun p => s.altUsable p.1 && free p.1
  let key := fun (p : Alternative × Nat) => (s.scoreOf p.1).1 * 128 + (64 - (s.scoreOf p.1).2)
  ((sortDown key usable).head?).map (·.2)

/-- R268: the alternative under which a job can start now. -/
def State.startAlt (s : State) (j : Job) : Option Nat :=
  s.bestAlt j fun a => !((s.heldAgainst j).any fun b => a.meets b)

/-- R387: the alternative reaches the job's result range, or its step table. -/
def State.altReaches (s : State) (j : Job) (a : Alternative) : Bool :=
  (j.resultBytes == 0 || s.rowOk j a 1 false j.resultAddr j.resultBytes)
    && (j.kind != .batch || (j.stepTable + 64 ≤ s.jobRegion && (a.dents.head?).any fun d => a.vaultDents.getLsbD d))

/-- A context that has not been admitted yet (R92). -/
def Ctx.fresh (job : Word) (pos dent : Nat) (arch : Arch) : Ctx :=
  { job := job, position := pos, dent := dent, place := .waiting, ways := [], units := [], pendingWays := [],
    pendingUnits := [], blocks := [], knotBlocks := [], knotPlaced := false, knotBytes := 0, arch := arch, scratch := [],
    stripe := [], knot := none, passF := 0, passE := 0, blockedF := true, blockedE := true, sliceWaves := 0,
    residentWaves := 0, absorbed := 0, displacedAt := 0, replayTo := 0, sends := [], recvs := [] }

/-- R387: the starting state of a job's contexts: IX_14 its token port, IX_15 its frame port, in units of 64 bytes. -/
def State.startArch (s : State) (j : Job) : Arch :=
  Arch.initial (j.tokenPort.elim 0 fun k => tokenAddr k / 64)
    ((s.stream? j.frameSink).elim 0 fun t => frameAddr t.port / 64)

/-- R266: the contexts of a job under its alternative. -/
def State.placeContexts (s : State) (j : Job) (a : Alternative) : State :=
  let arch := s.startArch j
  let cs := (List.range j.image.positions.length).map fun p => Ctx.fresh j.id p (a.dents.getD p 0) arch
  { s with sched := { s.sched with ctxs := s.sched.ctxs ++ cs } }

/-- R397: the feed record of a phrase. -/
def feedRecord (p : Phrase) (firstSeq : Word) : List Byte :=
  leBytes 4 p.tokens.length ++ leBytes 4 (if p.last then 1 else 0) ++ leBytes 4 p.number.toNat ++ leBytes 4 firstSeq.toNat
    ++ p.tokens.flatMap fun w => leBytes 4 w.toNat

/-- R397: the feed record written at FEED_ADDR; none when the alternative does not reach it. -/
def State.writeFeed (s : State) (j : Job) (a : Alternative) (p : Phrase) : Option State :=
  (s.stream? j.frameSink).bind fun t =>
    let rec_ := feedRecord p (t.topSeq.elim 0 (· + 1))
    match windowOf t.feedAddr with
    | some (.dent, o) =>
      if a.vaultDents.getLsbD (o / 2 ^ 30) then
        (s.direct t.feedAddr rec_.length).map fun d => s.writeLoc d.2 rec_
      else none
    | _ => none

/-- R270: the reservation: for the oldest waiting job that 64 later jobs have passed, when none holds one. -/
def State.reserve (s : State) : State :=
  if s.sched.jobs.any fun j => j.reserved.isSome && !j.started && !j.ready then s
  else
    let waits := sortBy (·.order) (s.startQueue.filter fun j => 64 ≤ j.passedBy)
    match waits with
    | [] => s
    | j :: _ => s.mapJob j.id fun k => { k with reserved := s.bestAlt j fun _ => true }

/-- R268 to R270, R387, R397: a job starts under an alternative, or ends with BAD_PARAM. -/
def State.startJob (s : State) (j : Job) (i : Nat) : State :=
  match j.image.alts[i]? with
  | none => s
  | some a =>
    if !s.altReaches j a then s.endJob j.id .badParam
    else
      let go := fun (s : State) =>
        let pass := fun (k : Job) =>
          if k.kind != .member && !k.started && !k.ready && k.order < j.order then { k with passedBy := k.passedBy + 1 } else k
        let s := { s with sched := { s.sched with jobs := s.sched.jobs.map pass } }
        let n := s.sched.nextStart
        let s := s.mapJob j.id fun k => { k with started := true, startedAt := n, alternative := some i, reserved := none }
        let s := { s with sched := { s.sched with nextStart := n + 1 } }
        (if j.kind == .plain then s.placeContexts j a else s).reserve
      match j.phrase with
      | none => go s
      | some p =>
        match s.writeFeed j a p with
        | some s => go s
        | none => s.endJob j.id .badParam

/-- R268, R270: the first job of the start queue that can start, starts. A reservation whose job has started or ended
passes on before it. -/
def State.startNext (s : State) : State :=
  let s := s.reserve
  match s.startQueue.findSome? fun j => (s.startAlt j).map fun i => (j, i) with
  | some (j, i) => s.startJob j i
  | none => s

/-- JOB_START. -/
def execJobStart (s : State) : Host.Outcome State Fault Refusal := .next (if s.computing then s.startNext else s)

/-! ### Ways and units -/

/-- Whether a context has ways on a Loom: resident there, or displaced from it. -/
def Ctx.onLoom (c : Ctx) (loom : Nat) : Bool :=
  match c.place with
  | .waiting => false
  | .resident l _ => l == loom
  | .displaced l => l == loom

/-- Physical ways or units of a context. -/
def Ctx.phys (c : Ctx) (unit : Bool) : List Nat := (if unit then c.units else c.ways).filterMap id

/-- A context's key. -/
def Ctx.key (c : Ctx) : Word × Nat := (c.job, c.position)

/-- R275: the ways or units that a context can take on a Loom, in order, each with the context that holds it. -/
def State.offers (s : State) (loom : Nat) (c : Ctx) (unit : Bool) (victims : List Ctx) (held : Bool) :
    List (Nat × Option (Word × Nat)) :=
  let here := s.sched.ctxs.filter fun x => x.onLoom loom
  let used := here.flatMap fun x => x.phys unit
  let free := (List.range 16).filter fun p => !used.contains p
  let displaced := here.filter fun x => x.place == .displaced loom && x.key != c.key
  let holders := sortBy s.ctxShare (sortBy (·.displacedAt) displaced)
  let of := fun (x : Ctx) => (sortBy id (x.phys unit)).map fun p => (p, some x.key)
  free.map (fun p => (p, none)) ++ (if held then holders.flatMap of else []) ++ victims.flatMap of

/-- R91: bobbin depths of a context. -/
def State.depthOf (s : State) (c : Ctx) (b : Nat) : Nat :=
  (s.job? c.job).elim 0 fun j => (bobbinDecl j.image.bobbins b).1

/-- Ways or units that a context needs beyond those that it still holds on the Loom. -/
def State.needs (s : State) (loom : Nat) (c : Ctx) (unit : Bool) : Nat :=
  let all := (s.positionOf c).elim 0 fun p => if unit then p.units else p.ways
  all - (if c.onLoom loom then (c.phys unit).length else 0)

/-- R91, R275: a context fits once the victims have gone. -/
def State.fits (s : State) (loom : Nat) (c : Ctx) (held : Bool) (victims : List Ctx) : Bool :=
  let stay := ((s.residents loom).map (·.2)).filter fun x => !(victims.any fun v => v.key == x.key)
  stay.length < 16
    && (List.range 8).all (fun b => (stay.map fun x => s.depthOf x b).foldl (· + ·) (s.depthOf c b) ≤ 64)
    && s.needs loom c false ≤ (s.offers loom c false victims held).length
    && s.needs loom c true ≤ (s.offers loom c true victims held).length

/-- R276: victims taken whole, in order, until the context fits. -/
def pickVictims (fits : List Ctx → Bool) : List Ctx → List Ctx → Option (List Ctx)
  | [], chosen => if fits chosen then some chosen else none
  | v :: vs, chosen => if fits chosen then some chosen else pickVictims fits vs (chosen ++ [v])

/-- R284: contexts released in order until the context fits, all of them when it never does. -/
def pickAll (fits : List Ctx → Bool) : List Ctx → List Ctx → List Ctx
  | [], chosen => chosen
  | v :: vs, chosen => if fits chosen then chosen else pickAll fits vs (chosen ++ [v])

/-- R276: the contexts that a context may displace, in order; one whose slice has ended may go to an equal share (R277). -/
def State.victimsFor (s : State) (loom : Nat) (c : Ctx) (ended : Option Ctx) : List Ctx :=
  let share := s.ctxShare c
  let may := fun (x : Ctx) =>
    x.job != c.job && (s.ctxShare x < share || (ended.any fun e => e.key == x.key && s.ctxShare x ≤ share))
  let cand := ((s.residents loom).map (·.2)).reverse.filter may
  sortBy s.ctxShare (sortDown (·.residentWaves) cand)

/-- R275, R276: the victims with which a context fits on a Loom. -/
def State.victimPlan (s : State) (loom : Nat) (c : Ctx) (ended : Option Ctx) : Option (List Ctx) :=
  pickVictims (s.fits loom c true) (s.victimsFor loom c ended) []

/-! ### System space for admissions -/

/-- R242: bytes of a context's pair of knot slots. -/
def Position.knotPair (p : Position) : Nat :=
  2 * roundUp (64 + 2048 + (p.knots.map (·.liveBytes)).foldl max 0) blockBytes

/-- R242: the pair of knot slots reserved: in the home vault's system region, or in system space. -/
def State.placeKnots (s : State) (c : Ctx) : Option State :=
  if c.knotPlaced then some s
  else
    let size := (s.positionOf c).elim 0 Position.knotPair
    let beside := s.sched.ctxs.filter fun x =>
      x.knotPlaced && x.knotBlocks.isEmpty && s.homeOf x.dent == s.homeOf c.dent
    let used := (beside.map (·.knotBytes)).foldl (· + ·) 0
    let keep := fun (bs : List (Nat × Nat)) (s : State) =>
      s.mapCtx c.job c.position fun c => { c with knotPlaced := true, knotBytes := size, knotBlocks := bs }
    if used + size ≤ 16 * 2 ^ 20 then some (keep [] s)
    else (State.allocBlocks (size / blockBytes) 4 s).map fun r => keep r.1 r.2

/-- R260, R261: blocks that an admission needs, for each context that gives up ways: its record when it is displaced now,
and the ways and units that it spills. -/
def spillBlocks (victims : List Ctx) (ways units : List (Nat × Option (Word × Nat))) : List ((Word × Nat) × Nat) :=
  let holders := (victims.map Ctx.key ++ ways.filterMap (·.2) ++ units.filterMap (·.2)).eraseDups
  holders.map fun k =>
    let rec_ := if victims.any fun v => v.key == k then 2048 else 0
    let n := fun (l : List (Nat × Option (Word × Nat))) => (l.filter fun p => p.2 == some k).length
    (k, ceilDiv (rec_ + 262144 * n ways + 16384 * n units) blockBytes)

/-- R261, R283: `n` blocks, from general use, and from the reserve pool for a job that may borrow. -/
def State.takeBlocks : Nat → Bool → State → Option (List (Nat × Nat) × State)
  | 0, _, s => some ([], s)
  | n + 1, borrow, s =>
    match (s.allocBlock 0).orElse fun _ => if borrow then s.borrowBlock 0 else none with
    | none => none
    | some (b, s) => (State.takeBlocks n borrow s).map fun r => (b :: r.1, r.2)

/-- The Loom of a waiting or displaced context (R281). -/
def State.loomFor (s : State) (c : Ctx) : Option Nat :=
  match c.place with
  | .resident _ _ => none
  | _ => s.loomOf c.dent

/-- The ways and units that a context takes with given victims. -/
def State.takes (s : State) (loom : Nat) (c : Ctx) (unit : Bool) (victims : List Ctx) (held : Bool) :
    List (Nat × Option (Word × Nat)) :=
  (s.offers loom c unit victims held).take (s.needs loom c unit)

/-- R276, R277: the victims for which a context waits on a Loom: those of R276, or those with a resident context whose slice has
ended. -/
def State.planFor (s : State) (loom : Nat) (c : Ctx) : Option (List Ctx) :=
  (s.victimPlan loom c none).orElse fun _ =>
    ((s.residents loom).map (·.2)).findSome? fun x =>
      if x.sliceWaves < s.sliceOf x then none
      else (s.victimPlan loom c (some x)).filter fun vs => vs.any fun v => v.key == x.key

/-- The blocks that a waiting context's admission needs now. -/
def State.blockNeed (s : State) (c : Ctx) : Option Nat :=
  (s.loomFor c).bind fun loom => (s.planFor loom c).map fun vs =>
    ((spillBlocks vs (s.takes loom c false vs true) (s.takes loom c true vs true)).map (·.2)).foldl (· + ·) 0

/-- R283: the oldest job that has a context waiting for blocks. -/
def State.oldestWaiting (s : State) : Option Nat :=
  let free := s.sysFree
  least ((s.sched.ctxs.filter fun c => ((s.job? c.job).any fun j => !j.stopping) && (s.blockNeed c).any fun n => free < n).map
    s.ctxOrder)

/-! ### Admission and displacement -/

/-- R119, R275, R278: a victim is saved and displaced; its record is written, and it keeps its ways. -/
def State.displace (s : State) (loom : Nat) (v : Ctx) : State :=
  let s := s.saveCtx v
  let s := s.rewrote ((s.ctx? v.job v.position).elim [] (·.blocks)) 0 loomRecordBytes
  let n := s.sched.nextDisplaced
  let s := s.mapCtx v.job v.position fun c => { c with place := .displaced loom, displacedAt := n, pendingWays := [], pendingUnits := [] }
  let s := { s with sched := { s.sched with nextDisplaced := n + 1 } }
  s.mapJob v.job fun j => { j with preempts := satAdd j.preempts 1 }

/-- A way or unit taken from the context that holds it. -/
def State.giveUp (s : State) (unit : Bool) (t : Nat × Option (Word × Nat)) : State :=
  match t.2 with
  | none => s
  | some (job, pos) =>
    let drop := fun (l : List (Option Nat)) => l.map fun p => if p == some t.1 then none else p
    s.mapCtx job pos fun c => if unit then { c with units := drop c.units } else { c with ways := drop c.ways }

/-- The empty places of a logical list filled in ascending order. -/
def fillPlaces : List (Option Nat) → List Nat → List (Option Nat)
  | [], _ => []
  | some p :: ls, ps => some p :: fillPlaces ls ps
  | none :: ls, p :: ps => some p :: fillPlaces ls ps
  | none :: ls, [] => none :: fillPlaces ls []

/-- R97, R278: the logical ways or units of an arriving context after it takes `ts`: a first start, or a restart from a
knot, lays its ways in ascending physical order; one that was displaced fills the places whose contents were spilled. -/
def arrivingPlaces (old : List (Option Nat)) (ts : List (Nat × Option (Word × Nat))) : List (Option Nat) :=
  if old.isEmpty then (sortBy id (ts.map (·.1))).map some else fillPlaces old (sortBy id (ts.map (·.1)))

/-- R279: the logical numbers that are pending: of a first start those whose way has still to be zeroed, of a displaced
context those to be read back. -/
def pendingPlaces (old new : List (Option Nat)) (ts : List (Nat × Option (Word × Nat))) : List Nat :=
  if old.isEmpty then
    (List.range new.length).filter fun i => ts.any fun t => t.2.isSome && some t.1 == nth new i none
  else (List.range old.length).filter fun i => nth old i none == none

/-- R278 steps 3 and 5: the save port's steps: spills of ways and units in ascending physical number, then read-backs in
ascending logical number. -/
def portSteps (loom : Nat) (c : Ctx) (unit : Bool) (new : List (Option Nat)) (ts : List (Nat × Option (Word × Nat))) :
    List SaveStep :=
  (sortBy (·.1) (ts.filter fun t => t.2.isSome)).map fun t =>
    { loom := loom, victim := t.2, arriving := c.key, isUnit := unit, phys := t.1,
      logical := (new.findIdx? fun p => p == some t.1).getD 0, readBack := false }

/-- R278 step 5: read-backs of a displaced context. -/
def readBacks (loom : Nat) (c : Ctx) (unit : Bool) (old new : List (Option Nat)) : List SaveStep :=
  if old.isEmpty then []
  else ((List.range old.length).filter fun i => nth old i none == none).map fun i =>
    { loom := loom, victim := none, arriving := c.key, isUnit := unit, phys := (nth new i none).getD 0, logical := i,
      readBack := true }

/-- R120, R278: a context whose ways are all in place: its blocks are free again. -/
def State.settleRestore (s : State) (c : Ctx) : State :=
  if c.pendingWays.isEmpty && c.pendingUnits.isEmpty then
    (s.freeBlocks c.blocks).mapCtx c.job c.position fun c => { c with blocks := [] }
  else s

/-- R120: the architectural state that a context resumes with: of a displaced one as its record holds it; none when the CRC of
that fails. -/
def State.storedArch (s : State) (c : Ctx) : Option Arch :=
  match c.place with
  | .displaced _ => if c.blocks.isEmpty then some c.arch else s.readArch c c.blocks 0 c.arch
  | _ => some c.arch

/-- R120, R242, R261, R275 to R279, R283: a context is admitted to a Loom over given victims; none when it cannot be now. The job
of one whose record fails its CRC ends. -/
def State.admitCtx (s : State) (loom : Nat) (c : Ctx) (victims : List Ctx) (held : Bool) : Option State :=
  let ways := s.takes loom c false victims held
  let units := s.takes loom c true victims held
  let blocks := spillBlocks victims ways units
  let newWays := arrivingPlaces c.ways ways; let newUnits := arrivingPlaces c.units units
  let steps := portSteps loom c false newWays ways ++ portSteps loom c true newUnits units
    ++ readBacks loom c false c.ways newWays ++ readBacks loom c true c.units newUnits
  let busy := s.sched.saves.any fun v => v.loom == loom
  let slot := (List.range 16).find? fun k =>
    match s.resident? loom k with
    | none => true
    | some x => victims.any fun v => v.key == x.key
  if (s.loom loom).failed || !s.domainOn loom then none
  else if (!victims.isEmpty || !steps.isEmpty) && busy then none
  else if !victims.isEmpty && (s.loom loom).halted then none
  else if !(victims.all s.savable) then none
  else match s.storedArch c with
  | none => some (s.endJob c.job .faultLost)
  | some arch =>
    slot.bind fun slot => (s.placeKnots c).bind fun s =>
      let borrow := s.oldestWaiting == some (s.ctxOrder c)
      let allocated := blocks.foldl (fun (acc : Option State) (b : (Word × Nat) × Nat) => acc.bind fun s =>
        (State.takeBlocks b.2 borrow s).map fun r =>
          r.2.mapCtx b.1.1 b.1.2 fun x => { x with blocks := x.blocks ++ r.1 }) (some s)
      allocated.map fun s =>
        let s := victims.foldl (fun s v => s.displace loom v) s
        let s := units.foldl (fun s t => s.giveUp true t) (ways.foldl (fun s t => s.giveUp false t) s)
        let arrive := fun (x : Ctx) =>
          let y := { x with
            arch := arch, place := .resident loom slot, ways := newWays, units := newUnits,
            pendingWays := pendingPlaces c.ways newWays ways, pendingUnits := pendingPlaces c.units newUnits units,
            residentWaves := 0, blockedF := true, blockedE := true }
          s.newSlice y
        let s := s.mapCtx c.job c.position arrive
        let s := { s with sched := { s.sched with saves := s.sched.saves ++ steps } }
        let s := s.raisePasses loom slot c
        ((s.ctx? c.job c.position).elim s s.settleRestore).refresh loom

/-- R276: the contexts that wait for a Loom, in the order in which they are served. -/
def State.waitingFor (s : State) (loom : Nat) : List Ctx :=
  let waits := s.sched.ctxs.filter fun c => s.loomFor c == some loom && (s.job? c.job).any fun j => !j.stopping
  sortDown s.ctxShare (sortBy s.ctxOrder (sortBy (·.position) waits))

/-- R275, R276, R278: the first waiting context that can be admitted. -/
def State.admitNext (s : State) (loom : Nat) : State :=
  ((s.waitingFor loom).findSome? fun c => (s.victimPlan loom c none).bind fun vs => s.admitCtx loom c vs true).getD s

/-- CONTEXT_ADMIT. -/
def execContextAdmit (loom : Nat) (s : State) : Host.Outcome State Fault Refusal :=
  .next (if s.computing then s.admitNext loom else s)

/-- R278, R279: the save port finishes its oldest step on a Loom. -/
def State.portStep (s : State) (loom : Nat) : State :=
  match s.sched.saves.find? fun v => v.loom == loom with
  | none => s
  | some v =>
    let rest := s.sched.saves.eraseP fun w => w.loom == loom
    let s := { s with sched := { s.sched with saves := rest } }
    let more := rest.any fun w => w.arriving == v.arriving && w.isUnit == v.isUnit && w.logical == v.logical
    if more then s
    else
      let s := s.mapCtx v.arriving.1 v.arriving.2 fun c =>
        if v.isUnit then { c with pendingUnits := c.pendingUnits.filter fun u => u != v.logical }
        else { c with pendingWays := c.pendingWays.filter fun w => w != v.logical }
      ((s.ctx? v.arriving.1 v.arriving.2).elim s s.settleRestore).refresh loom

/-- WAY_SPILLED. -/
def execWaySpilled (loom : Nat) (s : State) : Host.Outcome State Fault Refusal :=
  .next (if s.computing then s.portStep loom else s)

/-! ### Slices (R277) -/

/-- R277: a waiting context of equal or higher share that cannot fit without the one whose slice has ended: its plan under R276
takes that one, or it has none and one with that one fits. -/
def State.sliceTaker (s : State) (loom : Nat) (x : Ctx) : Option (Ctx × List Ctx) :=
  (s.waitingFor loom).findSome? fun c =>
    if c.job == x.job || s.ctxShare c < s.ctxShare x then none
    else
      let plan := (s.victimPlan loom c none).orElse fun _ => s.victimPlan loom c (some x)
      (plan.filter fun vs => vs.any fun v => v.key == x.key).map fun vs => (c, vs)

/-- R277: a slice that has ended: the context is displaced for a waiting one, or begins a new slice. -/
def State.endSlice (s : State) (loom slot : Nat) : State :=
  match s.resident? loom slot with
  | none => s
  | some x =>
    if x.sliceWaves < s.sliceOf x then s
    else
      match s.sliceTaker loom x with
      | some (c, vs) => (s.admitCtx loom c vs true).getD s
      | none => s.mapCtx x.job x.position s.newSlice

/-- SLICE_END. -/
def execSliceEnd (loom slot : Nat) (s : State) : Host.Outcome State Fault Refusal :=
  .next (if s.computing then s.endSlice loom slot else s)

/-! ### Restoring from a knot (R120, R284, R532) -/

/-- R92, R120, R284: a context set back to a knot slot as read, or to knot 0: it holds nothing and waits. -/
def State.setBack (s : State) (c : Ctx) (knot : Option KnotSlot) : State :=
  let s := s.freeBlocks c.blocks
  let again := fun (l : EndLog) => { l with since := 0 }
  let base := { c with
    place := .waiting, ways := [], units := [], pendingWays := [], pendingUnits := [], blocks := [],
    sends := c.sends.map again, recvs := c.recvs.map again }
  let back := match knot with
    | some k => { base with arch := k.arch, scratch := k.scratch, stripe := k.stripe }
    | none => { base with arch := (s.job? c.job).elim c.arch s.startArch, scratch := [], stripe := [] }
  let s := s.mapCtx c.job c.position fun _ => back
  { s with sched := { s.sched with
      saves := dropSaves (fun k => k == c.key) s.sched.saves,
      scale := s.sched.scale.filter fun q => q.2 != c.key,
      transfers := s.sched.transfers.filter fun t => !(t.job == c.job && t.position == c.position) } }

/-- R92, R120, R284: a context set back to its current knot slot, or to knot 0. The job of one whose slot's record fails its CRC
ends. -/
def State.backToKnot (s : State) (c : Ctx) : State :=
  match c.knot with
  | none => s.setBack c none
  | some k =>
    match s.readKnot c k with
    | none => s.endJob c.job .faultLost
    | some k => s.setBack c (some k)

/-- R284: the later jobs' contexts that are released, youngest job first, until the context fits, and every one when it never
does; none when no later job holds one. -/
def State.releasePlan (s : State) (loom : Nat) (c : Ctx) : Option (List Ctx) :=
  let later := ((s.residents loom).map (·.2)).reverse.filter fun x => s.ctxOrder c < s.ctxOrder x
  if later.isEmpty then none else some (pickAll (s.fits loom c false) (sortDown s.ctxOrder later) [])

/-- R284: the oldest waiting job needs a block that the reserve pool has not. -/
def State.releaseFor (s : State) (loom : Nat) : Option (List Ctx) :=
  (s.waitingFor loom).findSome? fun c =>
    if some (s.ctxOrder c) == s.oldestWaiting && (s.blockNeed c).any fun n => s.sysFree + s.poolLeft < n then
      s.releasePlan loom c
    else none

/-- R284: contexts released to their knots, without a save. -/
def State.release (s : State) (loom : Nat) : State :=
  match s.releaseFor loom with
  | none => s
  | some xs =>
    if xs.any fun x => !(s.outstandingOf x).isEmpty then s
    else
      (xs.foldl (fun s x => (s.backToKnot x).mapJob x.job fun j => { j with preempts := satAdd j.preempts 1 }) s).refresh loom

/-- RELEASE_TO_KNOT. -/
def execReleaseToKnot (loom : Nat) (s : State) : Host.Outcome State Fault Refusal :=
  .next (if s.computing then s.release loom else s)

end Sys2Proof.Machine
end

