-- ==== Sys2Proof/Machine/Jobs.lean ====
section
/-!
DEFINITION. The commands of group 0x02 (R386 to R393) and the Treadle's events on jobs: expiry (R369), batches (R293 to R296),
phrase jobs (R397) and token records (R257, R395).
-/
namespace Sys2Proof.Machine

open Sys2Proof

/-! ### Feeding streams (R41, R324, R395) -/

/-- R395: tokens of an internal feed join a stream's feed queue whole, or are discarded and counted. -/
def State.feedLocal (s : State) (id : Word) (tokens : List Word) : State :=
  s.mapStream id fun t =>
    if t.eos || 65536 < t.feed.length + tokens.length then { t with feedDrops := satAdd t.feedDrops tokens.length }
    else { t with feed := t.feed ++ tokens }

/-- R41, R324: a job's tokens fed to its token sink: here, or forwarded to the device that owns it. -/
def State.feedSink (s : State) (j : Job) (tokens : List Word) : State :=
  if j.tokenSink == 0 || tokens.isEmpty then s
  else if j.tokenDev == s.deviceNo then s.feedLocal j.tokenSink tokens
  else
    s.tell j.tokenDev (.tokens j.tokenSink tokens)

/-! ### JOB_SUBMIT -/

/-- A job id that is free: the next of the count, non-zero and in no job table entry (R386). -/
def State.freshJob (s : State) : Word :=
  (((List.range 4098).map fun i => s.sched.nextJob + BitVec.ofNat 32 i).find? fun id =>
    id != 0 && (s.job? id).isNone).getD s.sched.nextJob

/-- R257: the lowest free token port. -/
def State.freeTokenPort (s : State) : Option Nat :=
  (List.range 4096).find? fun k => !(s.sched.jobs.any fun j => j.tokenPort == some k)

/-- R290: the deck that runs in place of a deck, while the stream runs a fallback program through an entry that names it. -/
def State.substitute (s : State) (sink : Word) (d : Deck) : Option Deck :=
  ((s.stream? sink).bind (·.viaEntry)).bind fun e =>
    let row := nth s.live.table4 e []
    if slice row 0x10 16 == d.image.deckId && !zeroAt row 0x10 16 then
      s.sched.decks.find? fun f => f.image.deckId == slice row 0x20 16
    else none

/-- R386: a job as it enters the table. -/
def Job.entering (id : Word) (order : Nat) (kind : JobKind) : Job :=
  { id := id, hostTag := 0, order := order, deck := 0, image := .none, binds := [], client := 0,
    kind := kind, share := 0, holdMs := 60000, tokenSink := 0, tokenDev := 0, frameSink := 0, batch := 0, resultAddr := 0,
    resultBytes := 0, endToken := 0, tokenLimit := 0, gstream := 0, stepTable := 0, prompt := [], promptDone := 0,
    joined := false, produced := [], stepNo := 0, stepRuns := false, rows := [], ready := false,
    endStatus := .ok, cancelled := false, readyMs := 0, fetched := false, result := [], resultBlocks := [],
    alternative := none, started := false, startedAt := 0, passedBy := 0, reserved := none, tokenPort := none, tokenNext := 0,
    tokenHeld := [], tokenInbox := [], substituted := false, phrase := none, positions := [], preempts := 0,
    queueWait := 0, faultPos := 0xFFFF, faultEngine := 0, faultCard := 0 }

/-- A job with the deck that it runs (R290). -/
def Job.withDeck (j : Job) (d : Deck) (substituted : Bool) : Job :=
  { j with
    deck := d.number, image := d.image, binds := d.binds, substituted := substituted,
    positions := d.image.positions.map fun _ => ⟨none, none, 0, 0⟩ }

/-- R291, R386: a job enters the table and is counted. -/
def State.enterJob (s : State) (j : Job) : State :=
  let s := { s with sched := { s.sched with
      jobs := s.sched.jobs ++ [j], nextJob := j.id + 1, nextOrder := s.sched.nextOrder + 1 } }
  s.mapAccount j.client fun (a, b, c, d, e) => (satAdd a 1, b, c, d, e)

/-- R266: the job table has no room for a job of a client. -/
def State.jobLimit (s : State) (client : Nat) : Bool :=
  4096 ≤ s.sched.jobs.length
    || (nth s.live.shares client (0, 4096)).2.toNat ≤ (s.sched.jobs.filter fun j => j.client == client).length

/-- R386: the fields of a JOB_SUBMIT in their ranges. -/
def submitChecks (ps : List Byte) : List (Nat × Bool) :=
  let f := fun (o n : Nat) => be ps o n
  let kind := f 5 1
  let only := fun (ks : List Nat) (v : Nat) => ks.contains kind || v == 0
  [(0, kind != 2 || f 0 4 == 0), (5, kind ≤ 2), (8, f 8 4 == 0 || (1000 ≤ f 8 4 && f 8 4 ≤ 3600000)), (12, only [0, 2] (f 12 4)),
   (16, only [0, 1] (f 16 4)), (20, only [2] (f 20 4)), (24, f 12 4 != 0 || f 24 1 == 0), (25, zeroAt ps 25 7),
   (32, only [0, 1] (f 32 8)), (40, only [0, 1] (f 40 4) && f 40 4 ≤ 1048576), (44, only [2] (f 44 4)),
   (48, if kind == 2 then 1 ≤ f 48 4 && f 48 4 ≤ 262144 else f 48 4 == 0), (52, only [2] (f 52 4)),
   (56, only [1] (f 56 8) && f 56 8 % 64 == 0), (64, if kind == 2 then 1 ≤ f 64 4 else f 64 4 == 0), (68, zeroAt ps 68 4)]

/-- R386: TOKEN_DEV names a device of the system. -/
def State.tokenDevOk (s : State) (d : Nat) : Bool := d == 0 || d < s.links.devices

/-- R386: the fields of a JOB_SUBMIT, TOKEN_DEV among the system's devices. -/
def State.jobChecks (s : State) (ps : List Byte) : List (Nat × Bool) :=
  (submitChecks ps).map fun c => if c.1 == 24 then (24, c.2 && s.tokenDevOk (be ps 24 1)) else c

/-- R386: the object that a JOB_SUBMIT names and that is not there. -/
def State.submitMissing (s : State) (kind : Nat) (deck : Option Deck) (sink batch : Word) : Bool :=
  if kind == 2 then !((s.job? batch).any fun j => j.kind == .batch)
  else deck.isNone || (sink != 0 && (s.stream? sink).isNone)

/-- R386: JOB_SUBMIT. -/
def jobSubmitBody (h : Hdr) (ps : List Byte) (s : State) : Answer :=
  let f := fun (o n : Nat) => be ps o n
  let kind := f 5 1
  if ps.length < 72 || ps.length != 72 + 4 * f 64 4 then badLength s
  else
    match firstBad (s.jobChecks ps) with
    | some off => badParam off s
    | none =>
      let dev := f 24 1; let client := f 4 1
      let tokenSink : Word := BitVec.ofNat 32 (f 12 4); let frameSink : Word := BitVec.ofNat 32 (f 16 4)
      let batch : Word := BitVec.ofNat 32 (f 20 4)
      let deck := s.deck? (f 0 4)
      let port := if kind == 0 && tokenSink != 0 then s.freeTokenPort else none
      let bytes := if kind == 2 then 4 * f 48 4 else f 40 4
      if dev != 0 && dev != s.deviceNo && !s.routed dev then failWith .linkDown s
      else if s.submitMissing kind deck frameSink batch then failWith .noContext s
      else if (kind == 2 && (s.job? batch).any (·.ready)) || (s.stream? frameSink).any (·.eos) then failWith .wrongState s
      else if s.jobLimit client || (kind == 0 && tokenSink != 0 && port.isNone) then failWith .limit s
      else
        match State.allocBlocks (ceilDiv bytes blockBytes) 3 s with
        | none => failWith .noSpace s
        | some (blocks, s) =>
          let id := s.freshJob
          let base := Job.entering id s.sched.nextOrder (if kind == 0 then .plain else if kind == 1 then .batch else .member)
          let j := { base with
            hostTag := h.hostTag, client := client, share := f 6 2,
            holdMs := if f 8 4 == 0 then 60000 else f 8 4, tokenSink := tokenSink, tokenDev := dev, frameSink := frameSink,
            batch := batch, resultAddr := f 32 8, resultBytes := f 40 4, endToken := BitVec.ofNat 32 (f 44 4),
            tokenLimit := f 48 4, gstream := BitVec.ofNat 32 (f 52 4), stepTable := f 56 8,
            prompt := (List.range (f 64 4)).map fun i => BitVec.ofNat 32 (f (72 + 4 * i) 4),
            resultBlocks := blocks, tokenPort := port }
          let j := match deck with
            | some d => if kind == 2 then j else (s.substitute frameSink d).elim (j.withDeck d false) fun e => j.withDeck e true
            | none => j
          { answer .accepted [] (s.enterJob j) with context := some id }

/-- JOB_SUBMIT. -/
def execJobSubmit (h : Hdr) (ps : List Byte) (s : State) : Host.Outcome State Fault Refusal :=
  .next (s.command (.jobSubmit h ps) 0x0201 h ps false (jobSubmitBody h))

/-! ### JOB_CANCEL -/

/-- R388, R389, R296: a job that is Not ready is cancelled: a plain job at its card boundaries, a batch job after its step, a
member at the step boundary. -/
def State.cancelJob (s : State) (id : Word) : State :=
  match s.job? id with
  | none => s
  | some j =>
    match j.kind with
    | .plain => s.stopJob id .superseded
    | .batch => if j.stepRuns then s.mapJob id fun j => { j with cancelled := true } else s.endJob id .superseded
    | .member =>
      if (s.job? j.batch).any fun b => b.stepRuns && b.rows.any fun r => r.1 == id then
        s.mapJob id fun j => { j with cancelled := true }
      else s.endJob id .superseded

/-- R389: JOB_CANCEL. -/
def jobCancelBody (h : Hdr) (ps : List Byte) (s : State) : Answer :=
  if !ps.isEmpty then badLength s
  else
    match s.job? h.context with
    | none => failWith .resultGone s
    | some j => if j.ready then ok [] s else { answer .accepted [] s with post := fun s => s.cancelJob h.context }

/-- JOB_CANCEL. -/
def execJobCancel (h : Hdr) (ps : List Byte) (s : State) : Host.Outcome State Fault Refusal :=
  .next (s.command (.jobCancel h ps) 0x0202 h ps false (jobCancelBody h))

/-! ### JOB_STATUS, RESULT_FETCH, RESULT_RELEASE -/

/-- R292, R367: a position of a job that waits for residence or is displaced. -/
def State.waitsForResidence (s : State) (id : Word) : Bool :=
  s.sched.ctxs.any fun c => c.job == id && match c.place with
    | .resident _ _ => !c.admitted
    | _ => true

/-- R367: PHASE of a job that is Not ready. -/
def State.jobPhase (s : State) (j : Job) : Nat :=
  if j.kind == .member then (if j.joined then 1 else 0)
  else if !j.started then 0
  else if s.waitsForResidence j.id then 2 else 1

/-- R366: STATUS codes of the kinds (R386). -/
def JobKind.code (k : JobKind) : Nat :=
  match k with
  | .plain => 0
  | .batch => 1
  | .member => 2

/-- R112: positions that have finished. -/
def Job.positionsDone (j : Job) : Nat := (j.positions.filter fun p => p.fetchHalt.isSome && p.execHalt.isSome).length

/-- R390: the flags of a job over its positions, those of its contexts included. -/
def State.jobFlags (s : State) (j : Job) : Word :=
  let live := (s.sched.ctxs.filter fun c => c.job == j.id).map (·.arch.arithFlags)
  (j.positions.map (·.arith) ++ live).foldl mergeFlags 0

/-- R367: the progress record. -/
def State.progressRecord (s : State) (j : Job) : List Byte :=
  beBytes 8 j.wavesDone ++ beBytes 8 j.image.waves.toNat ++ beBytes 2 j.positionsDone ++ beBytes 2 j.positions.length
    ++ beBytes 1 (s.jobPhase j) ++ zeros 3 ++ beBytes 4 j.produced.length ++ beBytes 4 j.tokenLimit

/-- R390: JOB_STATUS's record. -/
def State.jobRecord (s : State) (j : Job) : List Byte :=
  beBytes 1 (if j.ready then 1 else 0) ++ beBytes 1 (if j.ready then 3 else s.jobPhase j) ++ beBytes 1 j.kind.code
    ++ beBytes 1 ((if j.substituted then 1 else 0) + (if j.phrase.isSome then 2 else 0))
    ++ beBytes 2 (if j.ready then j.endStatus.code else 0) ++ beBytes 2 (j.alternative.getD 0xFFFF)
    ++ padTo 16 j.image.deckId ++ beBytes 8 j.wavesDone ++ beBytes 4 (s.jobFlags j).toNat ++ beBytes 4 j.preempts.toNat
    ++ beBytes 4 j.queueWait.toNat ++ beBytes 2 j.faultPos.toNat ++ [j.faultEngine] ++ zeros 1
    ++ beBytes 8 j.faultCard.toNat ++ beBytes 2 j.positions.length ++ zeros 6
    ++ j.positions.flatMap fun p => beBytes 4 (p.fetchHalt.getD 0).toNat ++ beBytes 4 (p.execHalt.getD 0).toNat

/-- R390: JOB_STATUS. -/
def jobStatusBody (h : Hdr) (ps : List Byte) (s : State) : Answer :=
  if !ps.isEmpty then badLength s
  else
    match s.job? h.context with
    | none => failWith .resultGone s
    | some j => ok (s.jobRecord j) s

/-- JOB_STATUS. -/
def execJobStatus (h : Hdr) (ps : List Byte) (s : State) : Host.Outcome State Fault Refusal :=
  .next (s.command (.jobStatus h ps) 0x0203 h ps false (jobStatusBody h))

/-- R366, R368, R391: RESULT_FETCH. -/
def resultFetchBody (h : Hdr) (ps : List Byte) (s : State) : Answer :=
  if ps.length != 8 then badLength s
  else
    let off := be ps 0 4; let len := be ps 4 4
    if !(1 ≤ len && len ≤ 8944) then badParam 4 s
    else
      match s.job? h.context with
      | none => failWith .resultGone s
      | some j =>
        if !j.ready then answer .notReady (s.progressRecord j) s
        else if j.result.length < off then badParam 0 s
        else
          let head := beBytes 2 j.endStatus.code ++ zeros 2 ++ beBytes 4 j.result.length ++ beBytes 4 off ++ zeros 4
          { ok (head ++ slice j.result off len) (s.mapJob j.id fun j => { j with fetched := true }) with rep := j.fetched }

/-- RESULT_FETCH. -/
def execResultFetch (h : Hdr) (ps : List Byte) (s : State) : Host.Outcome State Fault Refusal :=
  .next (s.command (.resultFetch h ps) 0x0204 h ps false (resultFetchBody h))

/-- R366, R369: a Ready job becomes Gone: its entry and its result blocks are free. -/
def State.forgetJob (s : State) (j : Job) : State :=
  let s := s.freeBlocks j.resultBlocks
  { s with sched := { s.sched with jobs := s.sched.jobs.filter fun k => k.id != j.id } }

/-- R366: RESULT_RELEASE. -/
def resultReleaseBody (h : Hdr) (ps : List Byte) (s : State) : Answer :=
  if !ps.isEmpty then badLength s
  else
    match s.job? h.context with
    | none => failWith .resultGone s
    | some j => if j.ready then ok [] (s.forgetJob j) else failWith .wrongState s

/-- RESULT_RELEASE. -/
def execResultRelease (h : Hdr) (ps : List Byte) (s : State) : Host.Outcome State Fault Refusal :=
  .next (s.command (.resultRelease h ps) 0x0205 h ps false (resultReleaseBody h))

/-- R369: a RESULT_FETCH of the firmware queue for a job. -/
def fetchFor (id : Word) (i : Instr) : Option (Hdr × List Byte) :=
  match i with
  | .resultFetch h ps => if h.context == id then some (h, ps) else none
  | _ => none

/-- R369: the fetches of a job that were accepted before its expiry, served from the buffer. -/
def State.serveFetches (s : State) (id : Word) : State :=
  let queued := s.proto.fwQueue.filterMap (fetchFor id)
  let rest := { s with proto := { s.proto with
    fwQueue := s.proto.fwQueue.filter fun i => (fetchFor id i).isNone,
    held := s.proto.held.filter fun k => !queued.any fun q => (q.1.iface.master, q.1.seq) == k } }
  queued.foldl (fun s q => State.finish 0x0204 q.1 (s.checked 0x0204 q.1 q.2 false (resultFetchBody q.1))) rest

/-- R369: a result whose hold time has passed expires. -/
def State.expireResult (s : State) (id : Word) : State :=
  match s.job? id with
  | none => s
  | some j => if j.ready && j.holdMs < s.recorder.windows - j.readyMs then (s.serveFetches id).forgetJob j else s

/-- RESULT_EXPIRY. -/
def execResultExpiry (job : Word) (s : State) : Host.Outcome State Fault Refusal := .next (s.expireResult job)

/-! ### SHARES_SET, ACCOUNT_READ -/

/-- R392: the values in force, for the reply. -/
def State.sharesReply (s : State) (op client : Nat) : List Byte :=
  let (share, most) := nth s.live.shares client (0, 4096)
  beBytes 1 op ++ beBytes 1 client ++ beBytes 2 share.toNat ++ beBytes 2 most.toNat ++ zeros 2
    ++ beBytes 8 s.live.schedConfig.toNat

/-- R272, R392: SHARES_SET. -/
def sharesSetBody (ps : List Byte) (s : State) : Answer :=
  if ps.length != 16 then badLength s
  else
    let op := be ps 0 1; let client := be ps 1 1; let share := be ps 2 2; let most := be ps 4 2
    let config : DWord := BitVec.ofNat 64 (be ps 8 8)
    match firstBad [(0, op ≤ 3), (4, op != 0 || maxJobsOk most), (6, zeroAt ps 6 2), (8, op != 2 || schedConfigOk config)] with
    | some off => badParam off s
    | none =>
      let live := s.live
      let s := match op with
        | 0 => { s with live := { live with shares := live.shares.set client (BitVec.ofNat 16 share, BitVec.ofNat 16 most) } }
        | 2 => { s with live := { live with schedConfig := config } }
        | _ => s
      ok (s.sharesReply op client) s

/-- SHARES_SET of a client. -/
def execSharesSetClient (h : Hdr) (ps : List Byte) (s : State) : Host.Outcome State Fault Refusal :=
  .next (s.command (.sharesSetClient h ps) 0x0206 h ps false sharesSetBody)

/-- SHARES_SET reading a client. -/
def execSharesReadClient (h : Hdr) (ps : List Byte) (s : State) : Host.Outcome State Fault Refusal :=
  .next (s.command (.sharesReadClient h ps) 0x0206 h ps false sharesSetBody)

/-- SHARES_SET writing SCHED_CONFIG. -/
def execSchedConfigWrite (h : Hdr) (ps : List Byte) (s : State) : Host.Outcome State Fault Refusal :=
  .next (s.command (.schedConfigWrite h ps) 0x0206 h ps false sharesSetBody)

/-- SHARES_SET reading SCHED_CONFIG. -/
def execSchedConfigRead (h : Hdr) (ps : List Byte) (s : State) : Host.Outcome State Fault Refusal :=
  .next (s.command (.schedConfigRead h ps) 0x0206 h ps false sharesSetBody)

/-- R393: one client's counts. -/
def State.accountRecord (s : State) (client : Nat) : List Byte :=
  let (a, b, c, d, e) := s.accountOf client
  [a, b, c, d, e].flatMap fun w => beBytes 4 w.toNat

/-- R291, R393: ACCOUNT_READ. -/
def accountReadBody (ps : List Byte) (s : State) : Answer :=
  if ps.length != 4 then badLength s
  else
    let first := be ps 0 1; let count := be ps 1 2; let flags := be ps 3 1
    match firstBad [(1, 1 ≤ count && first + count ≤ 256), (3, flags ≤ 1)] with
    | some off => badParam off s
    | none =>
      let reply := ((List.range count).map (first + ·)).flatMap s.accountRecord
      let kept := s.sched.accounts.filter fun a => !(first ≤ a.1 && a.1 < first + count)
      ok reply (if flags == 1 then { s with sched := { s.sched with accounts := kept } } else s)

/-- ACCOUNT_READ. -/
def execAccountRead (h : Hdr) (ps : List Byte) (s : State) : Host.Outcome State Fault Refusal :=
  .next (s.command (.accountRead h ps) 0x0207 h ps false accountReadBody)

/-! ### Token records (R257) -/

/-- R257: COUNT, the reserved field and the bytes after the last token are legal. -/
def tokenRecordOk (b : List Byte) : Bool :=
  let n := le b 4 2
  1 ≤ n && n ≤ 14 && zeroAt b 6 2 && zeroAt b (8 + 4 * n) (56 - 4 * n)

/-- R257: the tokens of a record. -/
def recordTokens (b : List Byte) : List Word := (List.range (le b 4 2)).map fun i => le32 b (8 + 4 * i)

/-- R257: held records taken in TOKEN_SEQ order and fed. -/
def State.takeTokens : Nat → Word → State → State
  | 0, _, s => s
  | n + 1, id, s =>
    match s.job? id with
    | none => s
    | some j =>
      match j.tokenHeld.find? fun r => r.seq == j.tokenNext with
      | none => s
      | some r =>
        let s := s.mapJob id fun j =>
          { j with tokenHeld := j.tokenHeld.filter fun q => q.seq != r.seq, tokenNext := j.tokenNext + 1 }
        State.takeTokens n id (s.feedSink j r.tokens)

/-- R257: a record that is not under back-pressure. -/
def Job.tokenReady (j : Job) (r : PortRecord) : Bool :=
  let d := (le32 r.bytes 0 - j.tokenNext).toNat
  !tokenRecordOk r.bytes || 2 ^ 31 ≤ d || d ≤ 7

/-- R257: the first record at a job's token port that can be acted on. -/
def State.tokenRecord (s : State) (id : Word) : State :=
  match s.job? id with
  | none => s
  | some j =>
    match j.tokenInbox.find? j.tokenReady with
    | none => s
    | some r =>
      let writer := (s.tagged r.loom r.tag).bind fun p => (s.ctx? p.1.job p.1.position).map fun c => (c, p.1.cardIdx)
      let s := s.mapJob id fun j => { j with tokenInbox := j.tokenInbox.erase r }
      if !tokenRecordOk r.bytes then writer.elim s fun p => s.stopCard p.1 .fetch p.2 .badParam
      else
        let seq := le32 r.bytes 0
        let repeated := decide (2 ^ 31 ≤ (seq - j.tokenNext).toNat) || j.tokenHeld.any fun q => q.seq == seq
        let s := if repeated then s
          else s.mapJob id fun j => { j with tokenHeld := j.tokenHeld ++ [⟨seq, recordTokens r.bytes⟩] }
        (State.takeTokens 9 id s).donePiece r.loom r.tag

/-- TOKEN_RECORD. -/
def execTokenRecord (job : Word) (s : State) : Host.Outcome State Fault Refusal :=
  .next (if s.computing then s.tokenRecord job else s)

/-! ### Phrase jobs (R397) -/

/-- R397: a phrase job for the oldest closed phrase of a stream that has none. -/
def State.startPhrase (s : State) (id : Word) : State :=
  match s.stream? id with
  | none => s
  | some t =>
    match t.phrases, s.deck? t.deck with
    | p :: rest, some d =>
      if t.runningPhrase.isSome || s.jobLimit t.client then s
      else
        let base := Job.entering s.freshJob s.sched.nextOrder .plain
        let j := { base with client := t.client, share := t.share, frameSink := id, phrase := some p }
        let j := (s.substitute id d).elim (j.withDeck d false) fun e => j.withDeck e true
        (s.enterJob j).mapStream id fun t => { t with phrases := rest, runningPhrase := some j.id }
    | _, _ => s

/-- PHRASE_JOB_START. -/
def execPhraseJobStart (stream : Word) (s : State) : Host.Outcome State Fault Refusal :=
  .next (if s.starting then s.startPhrase stream else s)

/-! ### Batches (R293 to R296) -/

/-- R272, R295: whether batching is chunked. -/
def State.chunked (s : State) : Bool :=
  match fld s.live.schedConfig 39 38 with
  | 0 => 16 ≤ s.links.devices
  | 1 => false
  | _ => true

/-- A row of a step (R293): the member, its first token's sequence position, its tokens, whether it is a prompt row, the last
part of it, and whether it samples. -/
structure StepRow where
  job    : Job
  pos    : Nat
  tokens : List Word
  prompt : Bool
  last   : Bool
  sample : Bool

/-- R294: the generation row of a member whose prompt is complete. -/
def Job.genRow (j : Job) : StepRow :=
  { job := j, pos := j.prompt.length + j.produced.length - 1,
    tokens := [j.produced.getLast?.getD (j.prompt.getLast?.getD 0)], prompt := false, last := false, sample := true }

/-- R295: a prompt row of at most `room` tokens. -/
def Job.promptRow (j : Job) (room : Nat) : StepRow :=
  let part := (j.prompt.drop j.promptDone).take (min room 65535)
  let last := j.promptDone + part.length == j.prompt.length
  { job := j, pos := j.promptDone, tokens := part, prompt := true, last := last, sample := last }

/-- R295: the prompt rows of a step, for members in order of joining, within the allowance and the rows left. -/
def promptRows : List Job → Nat → Nat → List StepRow
  | [], _, _ => []
  | j :: js, room, rows =>
    if rows == 0 || room == 0 then []
    else
      let r := j.promptRow room
      r :: promptRows js (room - r.tokens.length) (rows - 1)

/-- R294, R295: the rows of a batch job's next step. -/
def State.stepRows (s : State) (id : Word) : List StepRow :=
  let members := sortBy (·.order) (s.sched.jobs.filter fun j => j.kind == .member && j.batch == id && !j.ready)
  let complete := fun (j : Job) => j.joined && j.promptDone == j.prompt.length
  let gen := (members.filter complete).map Job.genRow
  let waiting := members.filter fun j => !complete j
  let inOrder := (waiting.filter (·.joined)) ++ waiting.filter fun j => !j.joined
  let room := if s.chunked then 64 * fld s.live.schedConfig 47 40 else 65535 * 257
  let each := if s.chunked then promptRows inOrder room (256 - gen.length)
    else (inOrder.take (256 - gen.length)).map fun j => j.promptRow room
  gen ++ each

/-- R293: the step table. -/
def stepTable (stepNo : Nat) (rows : List StepRow) : List Byte :=
  let starts := rows.foldl (fun (acc : List Nat × Nat) r => (acc.1 ++ [acc.2], acc.2 + r.tokens.length)) ([], 0)
  let record := fun (p : StepRow × Nat) =>
    let r := p.1
    let flags := (if r.prompt then 1 else 0) + (if r.last then 2 else 0) + (if r.sample then 4 else 0)
    leBytes 4 r.job.id.toNat ++ leBytes 4 r.job.gstream.toNat ++ leBytes 8 r.pos ++ leBytes 2 r.tokens.length
      ++ leBytes 2 flags ++ leBytes 4 p.2 ++ zeros 8
  leBytes 8 stepNo ++ leBytes 4 rows.length ++ leBytes 4 starts.2 ++ zeros 48
    ++ (rows.zip starts.1).flatMap record ++ rows.flatMap fun r => r.tokens.flatMap fun w => leBytes 4 w.toNat

/-- R293: where a batch job's step table lies: the vault of the dent of position 0, and the key of its first byte. -/
def State.stepTableAt (s : State) (j : Job) (len : Nat) : Option Nat :=
  ((j.alt.bind fun a => a.dents.head?).bind s.homeOf).bind fun v =>
    if j.stepTable + len ≤ s.jobRegion then some (vaultKey v j.stepTable) else none

/-- R292, R295: a member joins its batch job's steps. -/
def State.joinMember (s : State) (id : Word) : State :=
  match s.job? id with
  | none => s
  | some j =>
    if j.joined then s
    else
      let n := s.sched.nextStart
      let s := s.mapJob id fun k => { k with joined := true, startedAt := n }
      { s with sched := { s.sched with nextStart := n + 1 } }

/-- R293: a step of a batch job starts: the table is written and every position starts. -/
def State.startStep (s : State) (id : Word) : State :=
  match s.job? id with
  | none => s
  | some j =>
    let rows := s.stepRows id
    if j.kind != .batch || !j.started || j.stepRuns || j.stopping || rows.isEmpty then s
    else
      let table := stepTable j.stepNo rows
      match s.stepTableAt j table.length, j.alt with
      | some key, some a =>
        let s := s.mapVault fun m => m.write key table
        let s := rows.foldl (fun s r => s.joinMember r.job.id) s
        let clear := fun (p : PosState) => { p with fetchHalt := none, execHalt := none }
        let s := s.mapJob id fun j =>
          { j with
            stepRuns := true, rows := rows.map fun r => (r.job.id, if r.prompt then r.tokens.length else 0, r.sample),
            positions := j.positions.map clear }
        s.placeContexts j a
      | _, _ => s.endJob id .badParam

/-- BATCH_STEP_START. -/
def execBatchStepStart (job : Word) (s : State) : Host.Outcome State Fault Refusal :=
  .next (if s.computing then s.startStep job else s)

/-- R296, R388: what a step leaves for one member: its prompt part is done, its OUT is its next token, fed to its sink, and it
leaves at its end token, its limit, or a cancellation. -/
def State.memberStep (s : State) (row : Word × Nat × Bool) (out : Word) : State :=
  match s.job? row.1 with
  | none => s
  | some m =>
    if m.ready then s
    else
      let s := s.mapJob m.id fun m => { m with promptDone := m.promptDone + row.2.1 }
      let s := if row.2.2 then (s.mapJob m.id fun m => { m with produced := m.produced ++ [out] }).feedSink m [out] else s
      let full := row.2.2 && (out == m.endToken || m.tokenLimit ≤ m.produced.length + 1)
      if full then s.endJob m.id .ok else if m.cancelled then s.endJob m.id .superseded else s

/-- R293, R296: a step has ended on every position: the Treadle reads each row's OUT. -/
def State.endStep (s : State) (id : Word) : State :=
  match s.job? id with
  | none => s
  | some j =>
    if !j.stepRuns || !(j.positions.all fun p => p.fetchHalt.isSome && p.execHalt.isSome) then s
    else
      let key := (s.stepTableAt j 64).getD 0
      let outs := j.rows.zipIdx.map fun p => (p.1, le32 (s.memory.vault.read (key + 64 + 32 * p.2 + 24) 4) 0)
      let s := s.mapJob id fun j => { j with stepRuns := false, stepNo := j.stepNo + 1, rows := [] }
      let s := outs.foldl (fun s p => s.memberStep p.1 p.2) s
      if j.cancelled then s.endJob id .superseded else s

/-- BATCH_STEP_END. -/
def execBatchStepEnd (job : Word) (s : State) : Host.Outcome State Fault Refusal :=
  .next (if s.computing then s.endStep job else s)

end Sys2Proof.Machine
end

