-- ==== Sys2Proof/Machine/Models.lean ====
section
/-!
DEFINITION. The commands of group 0x01: models, memory and decks (R377 to R385).
-/
namespace Sys2Proof.Machine

open Sys2Proof

/-! ### Shared parts -/

/-- R377: bytes of a segment. -/
def segmentBytes : Nat := 2097152

/-- R377: SEGMENTS of a model. -/
def segmentsOf (bytes : Nat) : Nat := ceilDiv bytes segmentBytes

/-- R377: bytes of segment i. -/
def Model.segmentLen (m : Model) (i : Nat) : Nat := min segmentBytes (m.bytes - segmentBytes * i)

/-- R379: whether a segment is present. -/
def Model.has (m : Model) (i : Nat) : Bool := m.segments.any fun p => p.1 == i

/-- R378: the missing segments. -/
def Model.missing (m : Model) : List Nat := (List.range (segmentsOf m.bytes)).filter fun i => !m.has i

/-- R378, R379: FIRST_MISSING and MISSING. -/
def Model.progress (m : Model) : List Byte :=
  beBytes 4 (m.missing.headD 0xFFFFFFFF) ++ beBytes 4 m.missing.length

/-- R378: bytes of model space that a model takes: its data and a digest for each segment, on 8 KiB boundaries. -/
def modelRange (bytes : Nat) : Nat := roundUp (bytes + 32 * segmentsOf bytes) 8192

/-- R378: the lowest free range of model space. -/
def State.modelPlace (s : State) (bytes : Nat) : Option Nat :=
  let size := modelRange bytes
  let ranges := s.sched.models.map fun m => (m.base, m.base + modelRange m.bytes)
  let starts := (0 :: ranges.map (·.2)).filter fun b =>
    b + size ≤ s.modelCapacity && ranges.all fun r => b + size ≤ r.1 || r.2 ≤ b
  match starts with
  | [] => none
  | b :: bs => some (bs.foldl min b)

/-- R506, R517: the model key installed under a KEY_ID. -/
def State.modelKey? (s : State) (id : Word) : Option (List Byte) :=
  (s.bark.modelKeys.find? fun k => k.1 == id).map (·.2)

/-- The step programs of a model: PROGRAM_ID and model-space offset. -/
def State.programsOf (s : State) (m : Model) : List (Word × Nat) :=
  m.programs.map fun o => (le32 (s.modelRead (m.base + o) 128) 8, m.base + o)

/-- R380: a program of a Committed model, by its id: its model and model-space offset. -/
def State.program? (s : State) (id : Word) : Option (Model × Nat) :=
  (s.sched.models.filter (·.committed)).findSome? fun m =>
    ((s.programsOf m).find? fun p => p.1 == id).map fun p => (m, p.2)

/-- R382: the programs that a stream runs, or opened with; on a rerun also the one that takes effect again. -/
def Stream.programs (t : Stream) : List Word :=
  [t.openProgram, t.ctx.program] ++ (t.companion.map (·.program)).toList ++ (t.again.map (·.program)).toList

/-! ### MODEL_LOAD -/

/-- R378: OPEN. -/
def modelOpen (ps : List Byte) (s : State) : Answer :=
  if ps.length != 24 then badLength s
  else
    let flags := be ps 1 1; let id : Word := BitVec.ofNat 32 (be ps 4 4); let bytes := be ps 8 8
    let enc := bitOf flags 1; let key : Word := BitVec.ofNat 32 (be ps 16 4)
    match firstBad [(1, flags < 4), (2, zeroAt ps 2 2), (4, id != 0), (8, 1 ≤ bytes && bytes ≤ 2 ^ 41 - 2 ^ 21),
        (16, enc || key == 0), (20, zeroAt ps 20 4)] with
    | some off => badParam off s
    | none =>
      let reply := fun (m : Model) (s : State) =>
        ok (beBytes 8 m.base ++ beBytes 4 (segmentsOf m.bytes) ++ m.progress) s
      if bitOf flags 0 then
        match (s.model? id).filter fun m => !m.committed with
        | none => failWith .wrongState s
        | some m =>
          match firstBad [(1, m.encrypted == enc), (8, m.bytes == bytes), (16, m.keyId == key)] with
          | some off => badParam off s
          | none => if enc && (s.modelKey? key).isNone then failWith .locked s else reply m s
      else if (s.model? id).isSome then failWith .busy s
      else
        match s.modelPlace bytes with
        | none => failWith .noSpace s
        | some base =>
          if 64 ≤ s.sched.models.length then failWith .limit s
          else if enc && (s.modelKey? key).isNone then failWith .locked s
          else
            let m : Model :=
              { id := id, bytes := bytes, base := base, encrypted := enc, keyId := key, committed := false,
                segments := [], plain := [], hot := [], programs := [] }
            reply m { s with sched := { s.sched with models := s.sched.models ++ [m] } }

/-- R379: a digest kept with a present segment, in ascending index. -/
def insertSegment (i : Nat) (d : List Byte) : List (Nat × List Byte) → List (Nat × List Byte)
  | [] => [(i, d)]
  | p :: ps => if i < p.1 then (i, d) :: p :: ps else p :: insertSegment i d ps

/-- R518: the plain bytes of a segment; none when its tag fails. -/
def openSegment (m : Model) (key : List Byte) (index : Nat) (tag data : List Byte) : Option (List Byte) :=
  Crypto.gcmOpen key (beBytes 4 m.id.toNat ++ beBytes 4 index ++ beBytes 4 m.keyId.toNat)
    (beBytes 8 m.bytes ++ beBytes 4 data.length) data tag

/-- R379: SEGMENT. -/
def modelSegment (ps : List Byte) (s : State) : Answer :=
  let len := be ps 12 4
  if ps.length < 64 || ps.length != 64 + len then badLength s
  else if !zeroAt ps 1 3 then badParam 1 s
  else
    let id : Word := BitVec.ofNat 32 (be ps 4 4); let index := be ps 8 4
    match (s.model? id).filter fun m => !m.committed with
    | none => failWith .wrongState s
    | some m =>
      let data := ps.drop 64
      if segmentsOf m.bytes ≤ index then badParam 8 s
      else if len != m.segmentLen index then badLengthAt 12 s
      else if Crypto.digest data != slice ps 16 32 then badParam 16 s
      else if !m.encrypted && !zeroAt ps 48 16 then badParam 48 s
      else
        let plain := if !m.encrypted then some data
          else (s.modelKey? m.keyId).bind fun k => openSegment m k index (slice ps 48 16) data
        match plain with
        | none => failWith (if (s.modelKey? m.keyId).isNone then .locked else .authFail) s
        | some bytes =>
          if m.has index then ok m.progress s
          else
            let kept := insertSegment index (slice ps 16 32) m.segments
            let plain := if m.encrypted then insertSegment index (Crypto.digest bytes) m.plain else m.plain
            let s := (s.modelWrite (m.base + segmentBytes * index) bytes).mapModel id fun m =>
              { m with segments := kept, plain := plain }
            ok (Model.progress { m with segments := kept }) s

/-- R377: the hot entries of a COMMIT. -/
def hotEntries (ps : List Byte) (n : Nat) : List HotRange :=
  (List.range n).map fun i =>
    ⟨be ps (16 + 24 * i) 8, be ps (24 + 24 * i) 8, BitVec.ofNat 64 (be ps (32 + 24 * i) 8), []⟩

/-- R380: the hot bytes that name a dent. -/
def hotBytes (hs : List HotRange) (d : Nat) : Nat :=
  ((hs.filter fun h => h.dents.getLsbD d).map (·.length)).foldl (· + ·) 0

/-- R255, R380: a model becomes Committed, and its hot copies are written. -/
def State.commitModel (s : State) (m : Model) : State :=
  let bare := s.mapModel m.id fun _ => { m with hot := [] }
  m.hot.foldl (fun s h =>
    let (h, s) := s.writeHot m h
    s.mapModel m.id fun m => { m with hot := m.hot ++ [h] }) bare

/-- R380: COMMIT. -/
def modelCommit (ps : List Byte) (s : State) : Answer :=
  let hc := be ps 8 2; let pc := be ps 10 2
  if ps.length < 16 || ps.length != 16 + 24 * hc + 8 * pc then badLength s
  else
    match firstBad [(1, zeroAt ps 1 3), (8, hc ≤ 64), (10, pc ≤ 256), (12, zeroAt ps 12 4)] with
    | some off => badParam off s
    | none =>
      let id : Word := BitVec.ofNat 32 (be ps 4 4)
      match (s.model? id).filter fun m => !m.committed && m.missing.isEmpty with
      | none => failWith .wrongState s
      | some m =>
        let hots := hotEntries ps hc
        let progs := (List.range pc).map fun i => be ps (16 + 24 * hc + 8 * i) 8
        let hotOk := hots.zipIdx.map fun (h, i) =>
          (16 + 24 * i, h.offset % 8192 == 0 && h.length % 8192 == 0 && decide (h.offset + h.length ≤ m.bytes))
        let progAt := progs.zipIdx.map fun (o, i) => (16 + 24 * hc + 8 * i, o)
        match firstBad (hotOk ++ progAt.map fun p => (p.1, p.2 % 512 == 0 && decide (p.2 + 128 ≤ m.bytes))) with
        | some off => badParam off s
        | none =>
          match firstBad (progAt.map fun p => (p.1, s.programOk (m.base + p.2) (m.bytes - p.2))) with
          | some off => badParam off s
          | none =>
            let m' := { m with committed := true, hot := hots, programs := progs }
            let mine := (s.programsOf m').map (·.1)
            let others := ((s.sched.models.filter fun o => o.id != id).flatMap s.programsOf).map (·.1)
            let allHot := hots ++ (s.sched.models.filter fun o => o.id != id).flatMap (·.hot)
            if mine.any fun p => others.contains p || mine.count p != 1 then failWith .busy s
            else if (List.range 64).any fun d => hotBytes hots d != 0
                && 64 * 2 ^ 20 * fld s.units.layout 3 0 < hotBytes allHot d then
              failWith .noSpace s
            else ok (beBytes 8 m.base) (s.commitModel m')

/-- R377: MODEL_LOAD. -/
def modelLoadBody (ps : List Byte) (s : State) : Answer :=
  if ps.isEmpty then badLength s
  else match be ps 0 1 with
    | 0 => modelOpen ps s
    | 1 => modelSegment ps s
    | 2 => modelCommit ps s
    | _ => badParam 0 s

/-- MODEL_LOAD OPEN. -/
def execModelLoadOpen (h : Hdr) (ps : List Byte) (s : State) : Host.Outcome State Fault Refusal :=
  .next (s.command (.modelLoadOpen h ps) 0x0101 h ps false modelLoadBody)

/-- MODEL_LOAD SEGMENT. -/
def execModelLoadSegment (h : Hdr) (ps : List Byte) (s : State) : Host.Outcome State Fault Refusal :=
  .next (s.command (.modelLoadSegment h ps) 0x0101 h ps false modelLoadBody)

/-- MODEL_LOAD COMMIT. -/
def execModelLoadCommit (h : Hdr) (ps : List Byte) (s : State) : Host.Outcome State Fault Refusal :=
  .next (s.command (.modelLoadCommit h ps) 0x0101 h ps false modelLoadBody)

/-! ### MODEL_VERIFY, MODEL_UNLOAD -/

/-- R381: the digest that a segment's bytes must have: the kept one, or of an encrypted model that of its plain bytes
(log 162). -/
def Model.digestOf (m : Model) (i : Nat) (kept : List Byte) : List Byte := (m.plain.lookup i).getD kept

/-- R381: the segments of a range whose digest differs from the kept one. -/
def State.badSegments (s : State) (m : Model) (first count : Nat) : List Nat :=
  (m.segments.filter fun p => first ≤ p.1 && p.1 < first + count
    && Crypto.digest (s.modelRead (m.base + segmentBytes * p.1) (m.segmentLen p.1)) != m.digestOf p.1 p.2).map (·.1)

/-- R381: MODEL_VERIFY. -/
def modelVerifyBody (ps : List Byte) (s : State) : Answer :=
  if ps.length != 12 then badLength s
  else
    let id : Word := BitVec.ofNat 32 (be ps 0 4); let first := be ps 4 4; let count := be ps 8 4
    if !(1 ≤ count && count ≤ 4096) then badParam 8 s
    else
      match s.model? id with
      | none => failWith .noContext s
      | some m =>
        if segmentsOf m.bytes < first + count then badParam 4 s
        else
          let bad := s.badSegments m first count
          let reply := beBytes 4 bad.length ++ beBytes 4 (bad.headD 0xFFFFFFFF)
          if bad.isEmpty then ok reply s
          else
            let s1 := s.mapModel id fun m =>
              { m with
                segments := m.segments.filter (fun p => !bad.contains p.1),
                plain := m.plain.filter (fun p => !bad.contains p.1), committed := false }
            let decks := if m.committed then s1.sched.decks.filter fun d => d.model != id else s1.sched.decks
            ok reply { s1 with sched := { s1.sched with decks := decks } }

/-- MODEL_VERIFY. -/
def execModelVerify (h : Hdr) (ps : List Byte) (s : State) : Host.Outcome State Fault Refusal :=
  .next (s.command (.modelVerify h ps) 0x0102 h ps false modelVerifyBody)

/-- R382: a model is in use by a deck or a stream. -/
def State.modelBusy (s : State) (m : Model) : Bool :=
  s.sched.decks.any (fun d => d.model == m.id || d.binds.contains m.id)
    || (s.programsOf m).any fun p => s.audio.streams.any fun t => t.programs.contains p.1

/-- R382: MODEL_UNLOAD. -/
def modelUnloadBody (ps : List Byte) (s : State) : Answer :=
  if ps.length != 4 then badLength s
  else
    let id : Word := BitVec.ofNat 32 (be ps 0 4)
    match s.model? id with
    | none => failWith .noContext s
    | some m =>
      if s.modelBusy m then failWith .busy s
      else ok [] { s with sched := { s.sched with models := s.sched.models.filter fun m => m.id != id } }

/-- MODEL_UNLOAD. -/
def execModelUnload (h : Hdr) (ps : List Byte) (s : State) : Host.Outcome State Fault Refusal :=
  .next (s.command (.modelUnload h ps) 0x0103 h ps false modelUnloadBody)

/-! ### MEM_WRITE, MEM_READ -/

/-- R243: MEM_LAYOUT as MEM_READ returns it: the layout in use and the live retained fields. -/
def State.memLayout (s : State) : DWord :=
  BitVec.ofNat 64 (s.units.present.toNat * 2 ^ 48 + s.units.density.toNat * 2 ^ 44 + s.units.speedNow.toNat * 2 ^ 40)
    ||| memLayoutRetained s.live.memLayout

/-- R259: the chosen alternatives of the running jobs. -/
def State.runningAlts (s : State) : List Alternative :=
  (s.sched.jobs.filter fun j => !j.ready).filterMap fun j =>
    j.alternative.bind fun a => j.image.alts[a]?

/-- R258: a running job's alternative names a dent or channel. -/
def State.memBusy (s : State) (which : Bool × Nat) : Bool :=
  s.runningAlts.any fun a => if which.1 then a.channels.getLsbD which.2 else a.vaultDents.getLsbD which.2

/-- R383: MEM_WRITE; a write into a dent's slot clears the dent's tag (R269). -/
def memWriteBody (ps : List Byte) (s : State) : Answer :=
  let len := be ps 12 4
  if ps.length < 16 || ps.length != 16 + len then badLength s
  else
    let target := be ps 0 1; let addr := be ps 4 8
    match firstBad [(0, target ≤ 1), (1, zeroAt ps 1 3)] with
    | some off => badParam off s
    | none =>
      let data := ps.drop 16
      if target == 1 then
        let v : DWord := BitVec.ofNat 64 (beNat data)
        match firstBad [(4, addr == 0), (12, len == 8), (16, memLayoutOk v)] with
        | some off => badParam off s
        | none => ok [] { s with live := { s.live with memLayout := memLayoutRetained v } }
      else if !(1 ≤ len && len ≤ 2097152) then badParam 12 s
      else
        match s.direct addr len with
        | none => badParam 4 s
        | some (which, loc) =>
          if s.memBusy which then failWith .busy s
          else
            let s1 := s.writeLoc loc data
            let tags := if which.1 then s.units.tags else s.units.tags.set which.2 none
            ok [] { s1 with units := { s1.units with tags := tags } }

/-- MEM_WRITE of device memory. -/
def execMemWrite (h : Hdr) (ps : List Byte) (s : State) : Host.Outcome State Fault Refusal :=
  .next (s.command (.memWrite h ps) 0x0104 h ps false memWriteBody)

/-- MEM_WRITE of MEM_LAYOUT. -/
def execMemLayoutWrite (h : Hdr) (ps : List Byte) (s : State) : Host.Outcome State Fault Refusal :=
  .next (s.command (.memLayoutWrite h ps) 0x0104 h ps false memWriteBody)

/-- R383: MEM_READ. -/
def memReadBody (ps : List Byte) (s : State) : Answer :=
  if ps.length != 16 then badLength s
  else
    let target := be ps 0 1; let addr := be ps 4 8; let len := be ps 12 4
    match firstBad [(0, target ≤ 1), (1, zeroAt ps 1 3), (4, target == 0 || addr == 0),
        (12, if target == 1 then len == 8 else 1 ≤ len && len ≤ 8960)] with
    | some off => badParam off s
    | none =>
      if target == 1 then ok (beBytes 8 s.memLayout.toNat) s
      else
        match s.direct addr len with
        | none => badParam 4 s
        | some (which, loc) => if s.memBusy which then failWith .busy s else ok (s.readLoc loc len) s

/-- MEM_READ. -/
def execMemRead (h : Hdr) (ps : List Byte) (s : State) : Host.Outcome State Fault Refusal :=
  .next (s.command (.memRead h ps) 0x0105 h ps false memReadBody)

/-! ### DECK_LOAD, DECK_UNLOAD -/

/-- R384: NO_CONTEXT or WRONG_STATE for a model that is not loaded or not Committed. -/
def State.modelFault (s : State) (id : Word) : Option Status :=
  match s.model? id with
  | none => some .noContext
  | some m => if m.committed then none else some .wrongState

/-- R384: the failure of the bound models: first those that are not loaded, then those that are not Committed. -/
def State.bindFault (s : State) (ids : List Word) : Option Status :=
  let fs := ids.filterMap s.modelFault
  if fs.contains .noContext then some .noContext else fs.head?

/-- R384: the lowest free deck number. -/
def State.freeDeck (s : State) : Option Nat :=
  ((List.range 256).map (· + 1)).find? fun n => (s.deck? n).isNone

/-- R384: DECK_LOAD. A fault inside the image is reported at OFFSET, one of DECK_SIZE at LENGTH (log 14). -/
def deckLoadBody (ps : List Byte) (s : State) : Answer :=
  let binds := be ps 16 1
  if ps.length < 20 || ps.length != 20 + 4 * binds then badLength s
  else
    match firstBad [(16, binds ≤ 8), (17, zeroAt ps 17 3)] with
    | some off => badParam off s
    | none =>
      let id : Word := BitVec.ofNat 32 (be ps 0 4); let off := be ps 4 8; let len := be ps 12 4
      let ids : List Word := (List.range binds).map fun i => BitVec.ofNat 32 (be ps (20 + 4 * i) 4)
      match s.modelFault id, s.model? id with
      | some st, _ => failWith st s
      | none, none => failWith .noContext s
      | none, some m =>
        if off % 16 != 0 || m.bytes < off + len then badParam 4 s
        else
          let b := s.modelRead (m.base + off) len
          match s.deckFault b len with
          | some .badLength => badLengthAt 12 s
          | some .badParam => badParam 4 s
          | some st => failWith st s
          | none =>
            match s.bindFault ids with
            | some st => failWith st s
            | none =>
              let image := deckImage b
              if s.sched.decks.any fun d => d.image.deckId == image.deckId then failWith .busy s
              else
                match s.freeDeck with
                | none => failWith .limit s
                | some n =>
                  let d : Deck := { number := n, model := id, offset := off, length := len, binds := ids, image := image }
                  let s := { s with sched := { s.sched with decks := s.sched.decks ++ [d] } }
                  { ok [] s with context := some (BitVec.ofNat 32 n) }

/-- DECK_LOAD. -/
def execDeckLoad (h : Hdr) (ps : List Byte) (s : State) : Host.Outcome State Fault Refusal :=
  .next (s.command (.deckLoad h ps) 0x0106 h ps false deckLoadBody)

/-- R385: DECK_UNLOAD. -/
def deckUnloadBody (h : Hdr) (ps : List Byte) (s : State) : Answer :=
  if !ps.isEmpty then badLength s
  else
    let n := h.context.toNat
    if (s.deck? n).isNone then failWith .noContext s
    else if s.sched.jobs.any (fun j => j.deck == n && !j.ready) || s.audio.streams.any fun t => t.deck == n then
      failWith .busy s
    else ok [] { s with sched := { s.sched with decks := s.sched.decks.filter fun d => d.number != n } }

/-- DECK_UNLOAD. -/
def execDeckUnload (h : Hdr) (ps : List Byte) (s : State) : Host.Outcome State Fault Refusal :=
  .next (s.command (.deckUnload h ps) 0x0107 h ps false (deckUnloadBody h))

end Sys2Proof.Machine
end

