-- ==== Sys2Proof/Machine/Shuttles.lean ====
section
/-!
DEFINITION. Shuttles (spec/09): frame ports (R211 to R214, R539), batches and micro-steps (R200 to R205, R216 to R221),
capacity and placement (R38, R40, R222, R224), moves (R225 to R227), writes of contexts (R218, R538).
-/
namespace Sys2Proof.Machine

open Sys2Proof

/-! ### Programs and capacity -/

/-- A loaded step program by its id. -/
def State.programOf (s : State) (id : Word) : Option Program := (s.program? id).map fun p => s.programAt p.2

/-- R48: pace at 70 °C in waves per second, interpolated between its rows. -/
def paceAt70 (mv : Nat) : Rat :=
  let rows : List (Nat × Nat) := [(550, 450), (620, 660), (700, 900), (800, 1200), (850, 1320)]
  let (i, f) := gridPos (rows.map fun r => (r.1 : Int)) (mv : Rat)
  let at_ := fun (k : Nat) => ((nth rows k (0, 0)).2 * 1000000 : Nat)
  (at_ i : Rat) + ((at_ (i + 1) : Rat) - (at_ i : Rat)) * f

/-- R222: the budget of a Shuttle in waves per second, at the lowest VCORE that the voltage policy allows. -/
def State.budget (s : State) : Rat := paceAt70 (fld s.live.voltagePolicy 63 54) * (mkRat 576 1000 : Rat)

/-- R222: the load of a stream at a rate under a program. -/
def State.loadOf (s : State) (rate : Nat) (program : Word) : Nat := rate * ((s.programOf program).elim 0 (·.stepWaves))

/-- R222: whether a stream counts on a Shuttle: served there, or on its way there. -/
def Stream.countsOn (t : Stream) (c p : Nat) : Bool := t.moveTo == some (c, p) || (t.cluster == c && t.pos == p)

/-- A program that a stream of a cluster uses, or is to use there. -/
def Stream.usesIn (t : Stream) (c : Nat) : List Word :=
  if t.cluster == c || t.moveTo.any (fun m => m.1 == c) then
    [t.ctx.program] ++ (t.companion.map (·.program)).toList ++ (t.change.map (·.program)).toList
      ++ (t.again.map (·.program)).toList
  else []

/-- R224: the programs that the streams of a cluster use. -/
def State.usedPrograms (s : State) (c : Nat) : List Word := (s.audio.streams.flatMap fun t => t.usesIn c).eraseDups

/-- WEIGHT_BYTES of a list of programs. -/
def State.weightBytes (s : State) (ps : List Word) : Nat :=
  (ps.map fun p => (s.programOf p).elim 0 (·.weightBytes)).foldl (· + ·) 0

/-- R196: bytes of a cluster's weight store. -/
def weightStore : Nat := 4 * 2 ^ 20

/-- A cluster. -/
def State.cluster (s : State) (c : Nat) : Cluster := nth s.units.clusters c { Cluster.healthy with shuttles := [] }

/-- R222, R224: a cluster's weight store holds or can load a program. -/
def State.canHold (s : State) (c : Nat) (program : Word) : Bool :=
  (s.cluster c).programs.contains program
    || s.weightBytes ((s.usedPrograms c).filter (· != program) ++ [program]) ≤ weightStore

/-- R222: the further streams of a load that an active Shuttle could take; the stream `self` does not count. -/
def State.freeOn (s : State) (c p load : Nat) (program self : Word) : Nat :=
  let there := s.audio.streams.filter fun t => t.id != self && t.countsOn c p
  let used : Nat := (there.map fun t => s.loadOf t.rate t.ctx.program).foldl (· + ·) 0
  if !(s.cluster c).active.contains p || !s.domainOn (68 + c) || !s.canHold c program then 0
  else
    let left := s.budget - (used : Rat)
    let byLoad := if left < 0 then 0 else if load == 0 then 32 else (left / (load : Rat)).floor.toNat
    min (32 - there.length) byLoad

/-- R40: the Shuttle that a stream is assigned to, among those that `allowed` admits (R399). -/
def State.placeStream (s : State) (rate : Nat) (program self : Word) (allowed : Nat → Nat → Bool) : Option (Nat × Nat) :=
  let load := s.loadOf rate program
  let free := fun (c p : Nat) => if allowed c p then s.freeOn c p load program self else 0
  let total := fun (c : Nat) => ((List.range 17).map (free c)).foldl (· + ·) 0
  let holders := (List.range 16).filter fun c => (s.cluster c).programs.contains program
  let others := sortDown total ((List.range 16).filter fun c => !(s.cluster c).programs.contains program)
  (holders ++ others).findSome? fun c => ((List.range 17).find? fun p => free c p != 0).map fun p => (c, p)

/-- A program's initial state area (R210). -/
def Program.initial (p : Program) : List Word := p.init ++ List.replicate (1664 - p.init.length) 0

/-! ### Frame ports (R211 to R214, R539) -/

/-- R211: SAMPLES of a frame record. -/
def frameSamples (r : List Byte) : Nat := le r 4 2

/-- R211: FLAGS of a frame record. -/
def frameFlag (r : List Byte) (n : Nat) : Bool := bitOf (le r 7 1) n

/-- R211, R213: the record's own checks against a program. -/
def frameOk (r : List Byte) (p : Program) : Bool :=
  let size := if p.condFmt == 7 then 4 else 2
  le r 12 4 == (crc32c (r.take 12 ++ slice r 16 1008)).toNat && le r 6 1 == p.condFmt && le r 8 2 == p.condLen
    && 1 ≤ frameSamples r && frameSamples r ≤ 4096 && le r 7 1 < 8 && zeroAt r 10 2
    && zeroAt r (16 + size * p.condLen) (1008 - size * p.condLen)

/-- R213: what becomes of a complete record. -/
inductive FrameVerdict where
  | bad | repeated | held | waits
deriving DecidableEq, Repr

/-- R213, R539: the rows of the table, in order, over W of the context as last written. -/
def Stream.frameVerdict (t : Stream) (p : Program) (r : List Byte) : FrameVerdict :=
  let seq : Word := BitVec.ofNat 32 (le r 0 4)
  let d := (seq - t.saved.nextSeq).toNat
  if !frameOk r p then .bad
  else if 2 ^ 31 ≤ d || t.ring.any (fun e => e.1 == seq) then .repeated
  else if d < 32 then .held else .waits

/-- R213: a record held in the ring; the newest sequence number seen. -/
def Stream.hold1 (t : Stream) (r : List Byte) : Stream :=
  let seq : Word := BitVec.ofNat 32 (le r 0 4)
  let newer := t.topSeq.elim true fun n => 0 < (seq - n).toNat && (seq - n).toNat < 2 ^ 31
  { t with ring := t.ring ++ [(seq, r)], topSeq := if newer then some seq else t.topSeq }

/-- R209, R213: a counter of the context counts; that of an absent context stands in its save area. -/
def Stream.count (t : Stream) (f : ShuttleCtx → ShuttleCtx) : Stream :=
  { t with ctx := f t.ctx, saved := if t.absent then f t.saved else t.saved }

/-- FRAME_RECORD: the oldest record at the port that does not wait under back-pressure. -/
def State.frameRecord (s : State) (id : Word) : State :=
  match s.stream? id with
  | none => s
  | some t =>
    match s.programOf t.ctx.program with
    | none => s
    | some p =>
      match t.inbox.find? fun r => t.frameVerdict p r.bytes != .waits with
      | none => s
      | some r =>
        let rest := t.inbox.filter fun q => !(q.loom == r.loom && q.tag == r.tag)
        let s := s.mapStream id fun t =>
          let t := { t with inbox := rest }
          match t.frameVerdict p r.bytes with
          | .bad => t.count fun x => { x with badFrames := satAdd x.badFrames 1 }
          | .repeated => t.count fun x => { x with dupFrames := satAdd x.dupFrames 1 }
          | .held => t.hold1 r.bytes
          | .waits => t
        s.donePiece r.loom r.tag

/-- FRAME_RECORD. -/
def execFrameRecord (stream : Word) (s : State) : Host.Outcome State Fault Refusal :=
  .next (if s.computing then s.frameRecord stream else s)

/-- R213: the held record that the context waits for is committed. -/
def Stream.commit (t : Stream) : Stream :=
  if t.ring.any (fun e => e.1 == t.ctx.nextSeq) && !t.committed.contains t.ctx.nextSeq then
    { t with committed := t.committed ++ [t.ctx.nextSeq] }
  else t

/-- FRAME_COMMIT. -/
def execFrameCommit (stream : Word) (s : State) : Host.Outcome State Fault Refusal :=
  .next (if s.computing then s.mapStream stream Stream.commit else s)

/-! ### Due streams (R216, R217, R221) -/

/-- R216: the next frame, when it is committed. -/
def Stream.nextFrame (t : Stream) : Option (List Byte) :=
  if t.committed.contains t.ctx.nextSeq then (t.ring.find? fun e => e.1 == t.ctx.nextSeq).map (·.2) else none

/-- R216: the playout buffer can take one more sample, or holds that of the next step already (R540). -/
def Stream.hasRoom (t : Stream) : Bool :=
  t.samples.length < t.capacity || decide (t.ctx.step.toNat < t.taken + t.samples.length)

/-- R216, R221, R225: a stream's context is due. While a cross-fade runs, it waits for its companion. -/
def Stream.due (t : Stream) : Bool :=
  (t.slot.isSome || t.absent) && !t.moving && !t.ctx.ended && t.hasRoom && (t.ctx.inFrame || t.nextFrame.isSome)
    && t.companion.all (fun k => k.step == t.ctx.step)

/-- R221, R227: a companion is due: the old program has run the step that it has not. -/
def Stream.companionDue (t : Stream) : Bool :=
  (t.companionSlot.isSome || t.absent) && !t.moving && t.hasRoom
    && t.companion.any (fun k => !k.ended && decide (0 < (t.ctx.step - k.step).toNat))

/-- The context slots that the streams of a Shuttle use (R208). -/
def State.usedSlots (s : State) (c p : Nat) : List Nat :=
  (s.audio.streams.filter fun t => t.cluster == c && t.pos == p).flatMap fun t => t.slot.toList ++ t.companionSlot.toList

/-- R208, R221, R225: the lowest free slot of a Shuttle. -/
def State.freeSlot (s : State) (c p : Nat) : Option Nat :=
  let used := s.usedSlots c p
  (List.range 32).find? fun k => !used.contains k

/-- R216: a frame moved into a context. -/
def ShuttleCtx.takeFrame (x : ShuttleCtx) (r : List Byte) (init : List Word) : ShuttleCtx :=
  { x with frame := r, inFrame := true, done := 0, nextSeq := x.nextSeq + 1,
           words := if frameFlag r 2 then init else x.words }

/-- R540: the change that takes effect next: on a rerun the one that had taken effect. -/
def Stream.nextChange (t : Stream) : Option Change := if t.again.isSome then t.again else t.change

/-- R220, R289: a change falls due at a frame. -/
def Stream.changesAt (t : Stream) (r : List Byte) : Bool :=
  t.companion.isNone && t.nextChange.any fun c => !c.moving && (!c.atMark || frameFlag r 0)

/-- The programs' initial state images. -/
def State.initOf (s : State) (program : Word) : List Word := (s.programOf program).elim (List.replicate 1664 0) Program.initial

/-- R289: a change taken, with its table entry and the HOLD evaluations to pass. -/
def State.changed (s : State) (t : Stream) (c : Change) : Stream :=
  if t.again.isSome then { t with again := none, redo := some c }
  else { t with
    change := none, redo := some c, viaEntry := c.entry,
    hold := (c.entry.bind fun e => (s.live.table4[e]?).map fun r => (fallbackOf r).hold).getD 0 }

/-- R216, R220, R221, R289: the stream at the first step of its next frame, a change that falls due applied: over the
companion in a free slot, or without a cross-fade. A change to a program that is no longer loaded waits (log 165). -/
def State.frameUp (s : State) (t : Stream) (free : Option Nat) : Stream :=
  if t.ctx.inFrame then t
  else
    match t.nextFrame with
    | none => t
    | some r =>
      let moved := { t with ctx := t.ctx.takeFrame r (s.initOf t.ctx.program) }
      match t.nextChange with
      | none => moved
      | some c =>
        if !t.changesAt r || (s.programOf c.program).isNone then moved
        else
          let fresh := { moved.ctx with program := c.program, words := s.initOf c.program }
          let t' := { s.changed moved c with unfaded := false }
          if c.atMark then { t' with ctx := fresh }
          else
            match free with
            | some k => { t' with companion := some fresh, companionSlot := some k, fadeStep := 0, fadeOld := none }
            | none => { t' with ctx := fresh, unfaded := true }

/-- The companion at its next step: it takes the frame that the old program is in. -/
def State.companionUp (s : State) (t : Stream) : Stream :=
  { t with companion := t.companion.map fun k =>
      if k.inFrame then k
      else { k.takeFrame t.ctx.frame (s.initOf k.program) with nextSeq := t.ctx.nextSeq } }

/-- A context that could run in a batch: its stream, whether it is the companion, its program and order. -/
structure Candidate where
  stream    : Word
  companion : Bool
  program   : Word
  margin    : Nat
  slot      : Nat
deriving DecidableEq, Repr

/-- R217, R225: the due contexts of a Shuttle. -/
def State.candidates (s : State) (c p : Nat) : List Candidate :=
  let free := s.freeSlot c p
  (s.audio.streams.filter fun t => t.cluster == c && t.pos == p).flatMap fun t =>
    (if t.due then [⟨t.id, false, (s.frameUp t free).ctx.program, t.margin, t.slot.getD 32⟩] else [])
    ++ (t.companion.filter fun _ => t.companionDue).toList.map fun k =>
      ⟨t.id, true, k.program, t.margin, t.companionSlot.getD 32⟩

/-- R217: the program of the next batch: of the due context with the lowest margin, ties to the lower slot. -/
def State.nextProgram (s : State) (c p : Nat) : Option Word :=
  let cs := s.candidates c p
  (least (cs.map fun x => x.margin * 64 + x.slot)).bind fun m =>
    (cs.find? fun x => x.margin * 64 + x.slot == m).map (·.program)

/-- R38, R217: a Shuttle can start a batch. -/
def State.shuttleFree (s : State) (c p : Nat) : Bool :=
  s.computing && s.domainOn (68 + c) && (s.cluster c).active.contains p && (s.shuttle c p).batch.isNone

/-! ### Batches (R205, R217) -/

/-- R289, R406: EVENT_FALLBACK with outcome APPLIED, when the change that a stream awaited has taken effect. -/
def State.appliedEvent (s : State) (before after : Stream) : State :=
  match before.change with
  | some c =>
    if before.again.isNone && after.change.isNone && !c.record.isEmpty then s.event .fallback .ok after.id 0 (c.record.set 5 1) else s
  | none => s

/-- A context prepared for its step; none when it is not of the batch's program after all. -/
def State.prepare (s : State) (program : Word) (x : Candidate) : Option State :=
  match s.stream? x.stream with
  | none => none
  | some t =>
    if x.companion then some (s.mapStream x.stream fun t => s.companionUp t)
    else
      let t' := s.frameUp t (s.freeSlot t.cluster t.pos)
      if t'.ctx.program != program then none
      else some ((s.mapStream x.stream fun _ => t').appliedEvent t t')

/-- R217: a batch of every due context of the chosen program, in ascending slot order. -/
def State.startBatch (s : State) (c p : Nat) : State :=
  match s.nextProgram c p with
  | none => s
  | some program =>
    let chosen := (s.candidates c p).filter fun x => x.program == program
    let absent := chosen.filter fun x => x.slot == 32
    let room := (s.freeSlot c p).isSome
    if !(s.cluster c).programs.contains program || (room && !absent.isEmpty) then s
    else
      let runs := sortBy (·.slot) (chosen.filter fun x => x.slot != 32)
      let (s, ran) := runs.foldl (fun (s, ran) x =>
        match s.prepare program x with
        | some s' => (s', ran ++ [(x.stream, x.companion)])
        | none => (s, ran)) (s, [])
      if ran.isEmpty then s
      else
        let s := s.mapCluster c fun k => { k with programs := program :: k.programs.filter (· != program) }
        s.mapShuttle c p fun h => { h with batch := some ⟨program, ran, 0⟩ }

/-- BATCH_START. -/
def execBatchStart (cluster pos : Nat) (s : State) : Host.Outcome State Fault Refusal :=
  .next (if s.shuttleFree cluster pos then s.startBatch cluster pos else s)

/-! ### Micro-steps (R200 to R203) -/

/-- R200: word k past a source field of a micro-step. -/
def microWord (p : Program) (x : ShuttleCtx) (c : Card) (hi k : Nat) : Word :=
  let off := fld c (hi - 1) (hi - 12) + k
  if c.getLsbD hi then
    let f := fmtAt [] p.condFmt
    widen f (codeAt (Mem.write [] 0 (x.frame.drop 16)) 0 f.container off)
  else nth x.words off 0

/-- The words of a source. -/
def microWords (p : Program) (x : ShuttleCtx) (c : Card) (hi n : Nat) : List Word :=
  (List.range n).map (microWord p x c hi)

/-- Words written at DST onward. -/
def ShuttleCtx.put (x : ShuttleCtx) (c : Card) (ws : List Word) : ShuttleCtx :=
  let d := fld c 111 100
  { x with words := x.words.take d ++ ws ++ x.words.drop (d + ws.length) }

/-- R87, R204: flags set in the context. -/
def ShuttleCtx.flag (x : ShuttleCtx) (fs : List Fl) : ShuttleCtx := { x with arithFlags := raiseAll x.arithFlags fs }

/-- Results written with their flags. -/
def ShuttleCtx.putAll (x : ShuttleCtx) (c : Card) (rs : List FR) : ShuttleCtx :=
  (x.put c (rs.map (·.1))).flag (rs.map (·.2))

/-- The bytes of words, least significant first. -/
def wordBytes (ws : List Word) : List Byte := ws.flatMap fun w => leBytes 4 w.toNat

/-- R197, R198, R201: MV, over the weights of its program. -/
def microMv (t1 : List (List Byte)) (weights : Mem) (p : Program) (c : Card) (x : ShuttleCtx) : ShuttleCtx :=
  let fa := fld c 119 116; let fw := fld c 115 112
  let n := microN c; let k := microK c
  let shape := shuttleTile (operandClass t1 fa fw)
  let sa := microWord p x c 99 0
  let codes := Mem.write [] 0 (wordBytes ((List.range (codeWords t1 fa k)).map fun i => microWord p x c 99 (1 + i)))
  let sLine := tilesOf shape k n * tileLines t1 shape fw
  let sf := if c.getLsbD 26 then 5 else 0xC
  let aF := fmtAt t1 fa; let wF := fmtAt t1 fw
  x.putAll c ((List.range n).map fun col =>
    let pairs := (List.range k).map fun kk =>
      (value aF (codeAt codes 0 aF.container kk), value wF (weightAt t1 weights 0 shape fw k kk col))
    mmaElement (groupOf (fld c 28 27)) false pairs (fun g => elemAt t1 weights sLine sf n g col) sa
      (if c.getLsbD 25 then some (microWord p x c 86 col) else none))

/-- R201: EW. -/
def microEw (p : Program) (c : Card) (x : ShuttleCtx) : ShuttleCtx :=
  let unary := 6 ≤ fld c 36 31 && fld c 36 31 ≤ 9
  x.putAll c ((List.range (microN c)).map fun j =>
    let b := if unary then 0 else microWord p x c 86 (if c.getLsbD 25 then 0 else j)
    vop (fld c 36 31) (microWord p x c 99 j) b)

/-- R201: CRV. -/
def microCrv (t2 : List (List Byte)) (p : Program) (c : Card) (x : ShuttleCtx) : ShuttleCtx :=
  let cv := curveOf (nth t2 (fld c 36 31) [])
  x.putAll c ((microWords p x c 99 (microN c)).map (curveEval cv))

/-- R182, R202: qmax of a format. -/
def qmaxRat (f : Fmt) : Rat :=
  match f with
  | .int w => ((2 ^ (w - 1) - 1 : Nat) : Rat)
  | .flt e m bias sp => bodyMag m bias (maxBody e m sp)
  | .e8m0 => 1

/-- R202: the scale of CVT. -/
def cvtScale (fn : Nat) (f : Fmt) (v : List Word) : Word :=
  let mags := (v.filter finite32).map fun w => absRat (f32 w).rat
  let m := mags.foldl max 0
  if fn == 5 || fn == 6 then one32
  else if m == 0 then minNormal
  else atLeastNormal (fp32Up (m / qmaxRat f))

/-- R202: a value over a positive scale, exactly. -/
def overScale (x : FVal) (s : Rat) : FVal :=
  match x with
  | .fin n m => .fin n (m / s)
  | v => v

/-- R202: CVT. -/
def microCvt (t1 : List (List Byte)) (p : Program) (m : Nat) (id : Word) (c : Card) (x : ShuttleCtx) : ShuttleCtx :=
  let fn := fld c 119 116
  let f := fmtAt t1 fn
  let v := microWords p x c 99 (microN c)
  let sc := cvtScale fn f v
  let done := v.zipIdx.map fun (w, j) =>
    convert (overScale (f32 w) (f32 sc).rat) f (fld c 30 29) true
      (srDraw (fld c 30 29) x.key id.toNat x.step.toNat (0x100 + m) j)
  let bytes := packCodes f.container (done.map (·.1))
  let padded := padTo (4 * codeWords t1 fn (microN c)) bytes
  let words := (List.range (padded.length / 4)).map fun i => le32 padded (4 * i)
  (x.put c (sc :: words)).flag (done.map (·.2))

/-- R201: DRAW. -/
def microDraw (p : Program) (m : Nat) (id : Word) (c : Card) (x : ShuttleCtx) : ShuttleCtx :=
  let temp : Word := BitVec.ofNat 32 ((fld c 36 31 + 95) * 2 ^ 23)
  let r := gsampleRow (microWords p x c 99 (microN c)) ⟨id.toNat, 0, x.step.toNat, temp, one32⟩ x.key (0x100 + m)
  (x.put c [nat32 r.1]).flag [r.2]

/-- R203: out_sample, with its flags. -/
def outSample (w : Word) : BitVec 24 × Fl :=
  match f32 w with
  | .nan => (0, .setNv)
  | .inf neg => (if neg then 0x800000#24 else 0x7FFFFF#24, .setSat)
  | v =>
    let (code, fl) := satInt 24 (roundInt 0 0 (v.rat * ((2 ^ 23 : Nat) : Rat)))
    (BitVec.ofNat 24 code, fl)

/-- R203, R285, R343, R540: a sample written at its index: one that egress has taken changes nothing; the samples that steps
without OUT skipped stand as free values. -/
def Stream.writeSample (t : Stream) (index : Nat) (v : BitVec 24) (free : Nat) : Stream :=
  if index < t.taken then t
  else
    let i := index - t.taken
    let pad := (List.range (i - t.samples.length)).map fun n => (Config.freeWord (free + n)).setWidth 24
    let u := { t with samples := (t.samples ++ pad).take i ++ [v] ++ t.samples.drop (i + 1) }
    { u with atLevel := u.atLevel || (u.egress != .none && decide (u.level ≤ u.margin)) }

/-- R221: the mix of a fade step. -/
def fadeMix (i : Nat) (old new : Word) : FR :=
  let part := fun (n : Nat) => (fp32 (.fin false (mkRat n 64))).1
  lift2 fp32Add (fp32Mul old (part (63 - i))) (fp32Mul new (part (i + 1)))

/-- R203, R221: OUT of a context; `free` numbers the free values. -/
def Stream.runOut (t : Stream) (companion : Bool) (p : Program) (c : Card) (free : Nat) : Stream :=
  match companion, t.companion with
  | true, some k =>
    let y := fadeMix t.fadeStep (t.fadeOld.getD (Config.freeWord free)) (microWord p k c 99 0)
    let (v, fl) := outSample y.1
    { t.writeSample k.step.toNat v (free + 1) with companion := some (k.flag [y.2.join fl]) }
  | true, none => t
  | false, some _ => { t with fadeOld := some (microWord p t.ctx c 99 0) }
  | false, none =>
    let (v, fl) := outSample (microWord p t.ctx c 99 0)
    { t.writeSample t.ctx.step.toNat v free with ctx := t.ctx.flag [fl] }

/-- R201, R219: END: a step is done; the ended flag is set with the last step of a frame that ends the stream. -/
def ShuttleCtx.endStep (x : ShuttleCtx) : ShuttleCtx :=
  let last := frameSamples x.frame ≤ x.done + 1
  { x with step := x.step + 1, done := x.done + 1, inFrame := !last, ended := x.ended || (last && frameFlag x.frame 1) }

/-- R221: the companion's step is done; after fade step 63 it becomes the stream's context. -/
def Stream.endFadeStep (t : Stream) : Stream :=
  match t.companion with
  | none => t
  | some k =>
    if 63 ≤ t.fadeStep then
      { t with
        ctx := { k.endStep with badFrames := t.ctx.badFrames, dupFrames := t.ctx.dupFrames, moves := t.ctx.moves },
        slot := t.companionSlot, companion := none, companionSlot := none, fadeStep := 0, fadeOld := none }
    else { t with companion := some k.endStep, fadeStep := t.fadeStep + 1, fadeOld := none }

/-- A computing micro-step applied to one context of a stream. -/
def Stream.onCtx (t : Stream) (companion : Bool) (f : ShuttleCtx → ShuttleCtx) : Stream :=
  if companion then { t with companion := t.companion.map f } else { t with ctx := f t.ctx }

/-- One micro-step for one context. -/
def State.microOne (s : State) (p : Program) (weights : Mem) (m : Nat) (c : Card) (x : Word × Bool) : State :=
  let t1 := s.live.table1
  match microOp c with
  | 1 => s.mapStream x.1 fun t => t.onCtx x.2 (microMv t1 weights p c)
  | 2 => s.mapStream x.1 fun t => t.onCtx x.2 (microEw p c)
  | 3 => s.mapStream x.1 fun t => t.onCtx x.2 (microCrv s.live.table2 p c)
  | 4 => s.mapStream x.1 fun t => t.onCtx x.2 (microCvt t1 p m x.1 c)
  | 5 => { s.mapStream x.1 (fun t => t.runOut x.2 p c s.free) with free := s.free + 8193 }
  | 6 => s.mapStream x.1 fun t => t.onCtx x.2 (microDraw p m x.1 c)
  | _ => s.mapStream x.1 fun t => if x.2 then t.endFadeStep else { t with ctx := t.ctx.endStep }

/-- R196: the micro-steps and weights that a cluster holds of a program. -/
def State.held (s : State) (c : Nat) (program : Word) : List Card × Mem := ((s.cluster c).store.lookup program).getD ([], [])

/-- R205: the micro-step in progress of a Shuttle's batch, when it is the one named, for every stream of the batch. -/
def State.microStep (s : State) (c p op : Nat) : State :=
  match (s.shuttle c p).batch with
  | none => s
  | some b =>
    match s.programOf b.program with
    | none => s
    | some prog =>
      match (s.held c b.program).1[b.micro]? with
      | none => s
      | some card =>
        if microOp card != op || !s.computing then s
        else
          let weights := if op == 1 then
              Mem.write [] 0 ((s.held c b.program).2.read (512 * fld card 49 37) (microWeightBytes s.live.table1 card))
            else []
          (b.streams.foldl (fun s x => s.microOne prog weights b.micro card x) s).mapShuttle c p fun h =>
            { h with batch := some { b with micro := b.micro + 1 } }

/-- MICRO_MV. -/
def execMicroMv (cluster pos : Nat) (s : State) : Host.Outcome State Fault Refusal := .next (s.microStep cluster pos 0x01)

/-- MICRO_EW. -/
def execMicroEw (cluster pos : Nat) (s : State) : Host.Outcome State Fault Refusal := .next (s.microStep cluster pos 0x02)

/-- MICRO_CRV. -/
def execMicroCrv (cluster pos : Nat) (s : State) : Host.Outcome State Fault Refusal := .next (s.microStep cluster pos 0x03)

/-- MICRO_CVT. -/
def execMicroCvt (cluster pos : Nat) (s : State) : Host.Outcome State Fault Refusal := .next (s.microStep cluster pos 0x04)

/-- MICRO_OUT. -/
def execMicroOut (cluster pos : Nat) (s : State) : Host.Outcome State Fault Refusal := .next (s.microStep cluster pos 0x05)

/-- MICRO_DRAW. -/
def execMicroDraw (cluster pos : Nat) (s : State) : Host.Outcome State Fault Refusal := .next (s.microStep cluster pos 0x06)

/-- MICRO_END. -/
def execMicroEnd (cluster pos : Nat) (s : State) : Host.Outcome State Fault Refusal := .next (s.microStep cluster pos 0x0F)

/-! ### The end of a batch (R218, R538), moves (R225 to R227) -/

/-- R225 steps 2 and 3: the context is written, its slot is free, and the stream stands in its destination's run list. -/
def Stream.depart (t : Stream) : Stream :=
  match t.moveTo with
  | none => t
  | some (c, p) =>
    { t.write with cluster := c, pos := p, slot := none, moveTo := none, moving := false, absent := true,
                   companionSlot := none }

/-- R218: the last step of the frame of a stream of this batch has run. -/
def Batch.endsFrame (b : Batch) (t : Stream) : Bool :=
  (b.streams.contains (t.id, false) && !t.ctx.inFrame)
    || (b.streams.contains (t.id, true) && !((t.companion.getD t.ctx).inFrame))

/-- R205, R218, R225, R538: a batch ends. -/
def State.endBatch (s : State) (c p : Nat) : State :=
  match (s.shuttle c p).batch with
  | none => s
  | some b =>
    match s.programOf b.program with
    | none => s
    | some prog =>
      if b.micro < (s.held c b.program).1.length then s
      else
        let waves := (s.shuttle c p).wavesSinceWrite + prog.fillWaves
          + b.streams.length * (prog.stepWaves - prog.fillWaves)
        let all := decide (240000 < waves)
        let s := s.mapShuttle c p fun h => { h with batch := none, wavesSinceWrite := if all then 0 else waves }
        let here := fun (t : Stream) => t.cluster == c && t.pos == p && t.slot.isSome
        let writes := fun (t : Stream) => all || b.endsFrame t
        let s := s.wroteContexts (s.audio.streams.filter fun t => here t && (writes t || t.moving))
        { s with audio := { s.audio with streams := s.audio.streams.map fun t =>
            if (here t) then
              let t := if writes t then t.write else t
              if t.moving then t.depart else t
            else t } }

/-- BATCH_END. -/
def execBatchEnd (cluster pos : Nat) (s : State) : Host.Outcome State Fault Refusal :=
  .next (if s.computing then s.endBatch cluster pos else s)

/-- A stream that a batch of its Shuttle holds. -/
def State.inBatch (s : State) (t : Stream) : Bool :=
  (s.shuttle t.cluster t.pos).batch.any fun b => b.streams.any fun x => x.1 == t.id

/-- R225 step 1: a stream that is to move is marked moving, and leaves at once when no batch holds it. A cross-fade is left
to end first. -/
def State.startMove (s : State) (id : Word) : State :=
  match s.stream? id with
  | none => s
  | some t =>
    if t.moveTo.isNone || t.moving || t.slot.isNone || (t.companion.isSome && !t.ctx.ended) then s
    else
      let batch := s.inBatch t
      let s := if batch then s else s.wroteContexts [t]
      s.mapStream id fun t => let t := { t with moving := true }; if batch then t else t.depart

/-- CONTEXT_MOVE_START. -/
def execContextMoveStart (stream : Word) (s : State) : Host.Outcome State Fault Refusal :=
  .next (if s.starting then s.startMove stream else s)

/-- R399, R289: a move that a change needed is over. -/
def Change.arrived (c : Change) : Change := { c with moving := false }

/-- R453: a stream gone from the outputs' lists. -/
def ReedPort.forget (id : Word) (p : ReedPort) : ReedPort :=
  { p with awaited := p.awaited.filter (· != id), lacking := p.lacking.filter (· != id) }

/-- R398: a stream closes: egress stops, its feed and phrases go, its slot, save area and frame port are free, and the jobs
whose sink it is are cancelled, those of other devices too. Records that wait at its frame port are taken from their transfers. -/
def State.closeStream (s : State) (id : Word) : State :=
  match s.stream? id with
  | none => s
  | some t =>
    let s := t.inbox.foldl (fun s r => s.donePiece r.loom r.tag) s
    let s := s.freeBlock (t.saveVault, t.saveBlock)
    let s := s.mapShuttle t.cluster t.pos fun h =>
      { h with batch := h.batch.map fun b => { b with streams := b.streams.filter fun x => x.1 != id } }
    let s := { s with audio := { s.audio with
      streams := s.audio.streams.filter (fun x => x.id != id), outs := s.audio.outs.map (ReedPort.forget id) } }
    let sinks := s.sched.jobs.filter fun j =>
      !j.ready && (j.frameSink == id || (j.tokenSink == id && j.tokenDev == s.deviceNo))
    ((sinks.map (·.id)).foldl State.cancelJob s).tellAll (.sinkClosed s.deviceNo id)

/-- R221, R538: the companion as last written takes its place again. -/
def Stream.recallCompanion (t : Stream) : Stream :=
  { t with companion := t.savedCompanion.map (·.1), fadeStep := (t.savedCompanion.map (·.2.1)).getD 0,
           fadeOld := t.savedCompanion.bind (·.2.2) }

/-- R226: a stream whose context cannot be read back is closed. -/
def State.loseStream (s : State) (t : Stream) : State :=
  (s.faultEvent .faultLost (.shuttle t.cluster t.pos) 0 0 [t.id] []).closeStream t.id

/-- R225 steps 4 and 5, R226: the context is read into a free slot and checked; a stream whose check fails is closed. -/
def State.arrive (s : State) (t : Stream) (k : Nat) : State :=
  match s.readSaved t t.ctx.nextSeq with
  | none => s.loseStream t
  | some x =>
    let s := s.mapStream t.id fun t =>
      { t.recallCompanion with ctx := { x with moves := x.moves + 1 }, slot := some k, absent := false,
                               change := t.change.map Change.arrived }
    if t.savedCompanion.isSome then
      match s.freeSlot t.cluster t.pos with
      | some j => s.mapStream t.id fun t => { t with companionSlot := some j }
      | none => s.mapStream t.id fun t => { t with ctx := t.companion.getD t.ctx, companion := none, unfaded := true }
    else s

/-- R225 step 4: an absent stream whose program is chosen for the next batch. -/
def State.arriveIfChosen (s : State) (id : Word) : State :=
  match s.stream? id with
  | none => s
  | some t =>
    match s.nextProgram t.cluster t.pos, s.freeSlot t.cluster t.pos with
    | some program, some k =>
      let chosen := (s.candidates t.cluster t.pos).any fun x => x.stream == id && x.program == program
      if t.absent && chosen && s.shuttleFree t.cluster t.pos && (s.cluster t.cluster).programs.contains program then
        s.arrive t k
      else s
    | _, _ => s

/-- CONTEXT_MOVE_ARRIVE. -/
def execContextMoveArrive (stream : Word) (s : State) : Host.Outcome State Fault Refusal :=
  .next (s.arriveIfChosen stream)

/-! ### Weight stores (R224) -/

/-- R224: programs that no stream of the cluster uses leave, least recently used first, until one more fits. -/
def State.evictFor : Nat → State → Nat → List Word → Nat → List Word
  | 0, _, _, held, _ => held
  | n + 1, s, c, held, need =>
    if s.weightBytes held + need ≤ weightStore then held
    else
      match held.reverse.find? fun p => !(s.usedPrograms c).contains p with
      | none => held
      | some p => s.evictFor n c (held.filter (· != p)) need

/-- R196, R224, R255: a program's micro-steps, and its weights from the lowest-numbered hot copy. -/
def State.readProgram (s : State) (program : Word) : List Card × Mem :=
  (s.programOf program).elim ([], []) fun p => (p.steps, Mem.write [] 0 (s.modelReadBy p.weights p.weightBytes none 0))

/-- R540: the programs of a cluster's weight store reloaded. -/
def State.reloadStore (s : State) (c : Nat) : State :=
  s.mapCluster c fun k => { k with store := k.store.map fun e => (e.1, s.readProgram e.1) }

/-- R196, R224, R255: a cluster loads a program that a stream of it uses, when it can make room: its micro-steps and its weights. -/
def State.loadProgram (s : State) (c : Nat) (program : Word) : State :=
  let need := s.weightBytes [program]
  let held := s.evictFor 64 c (s.cluster c).programs need
  if !s.computing || !s.domainOn (68 + c) || (s.programOf program).isNone || (s.cluster c).programs.contains program
    || !(s.usedPrograms c).contains program || weightStore < s.weightBytes held + need then s
  else
    s.mapCluster c fun k => { k with
      programs := program :: held, store := (program, s.readProgram program) :: k.store.filter fun e => held.contains e.1 }

/-- PROGRAM_LOAD_CLUSTER. -/
def execProgramLoadCluster (cluster : Nat) (program : Word) (s : State) : Host.Outcome State Fault Refusal :=
  .next (s.loadProgram cluster program)

end Sys2Proof.Machine
end

