-- ==== Sys2Proof/Machine/Power.lean ====
section
/-!
DEFINITION. The commands of group 0x06 (R418 to R423) and the events of power, sensors, regulators and wake (R50, R53, R244,
R246, R249, R370, R371, R480 to R501, R593, R594).
-/
namespace Sys2Proof.Machine

open Sys2Proof

/-! ### POWER_STATE (R418, R475 to R480) -/

/-- R418: the state that a code names. -/
def powerStateOf (code : Nat) : PowerState :=
  match code with
  | 0 => .run
  | 1 => .idle
  | 2 => .sleep
  | 3 => .deepSleep
  | _ => .off

/-- R366, R418: whether a job is Not ready. -/
def State.jobsNotReady (s : State) : Bool := s.sched.jobs.any fun j => !j.ready

/-- R389, R418, R501: every job that is Not ready cancelled at once, no card being in progress. -/
def State.cancelAll (s : State) : State :=
  ((s.sched.jobs.filter fun j => !j.ready).map (·.id)).foldl (fun s id => s.endJob id .superseded) s

/-- R503: the devices whose replies to a packet the root awaits before it enters a state: of a broadcast, every other reachable
one. -/
def State.repliesTo (s : State) (h : Hdr) : List Nat :=
  if h.device == 0xFF && s.links.isRoot then (List.range s.links.devices).filter fun d => d != 0 && s.routed d else []

/-- R418, R503: what follows ACCEPTED. -/
def State.enterState (s : State) (target : PowerState) (replies : List Nat) : State :=
  if target == .run then s.wake 0 else s.cancelAll.startEntry target 0 replies

/-- R362: the transition under way, if it is not complete at once, is the command's. -/
def State.askedBy (s : State) (h : Hdr) (ps : List Byte) : State :=
  s.mapPower fun p =>
    { p with transition := p.transition.map fun t => { t with asked := some (h.iface.master, h.seq, ps) } }

/-- R418: POWER_STATE. -/
def powerStateBody (h : Hdr) (ps : List Byte) (s : State) : Answer :=
  if ps.length != 4 then badLength s
  else
    match firstBad [(0, be ps 0 1 ≤ 4 || be ps 0 1 == 0xFF), (1, be ps 1 1 ≤ 1), (2, zeroAt ps 2 2)] with
    | some off => badParam off s
    | none =>
      let target := powerStateOf (be ps 0 1)
      if be ps 0 1 == 0xFF || target == s.power.state then ok (beBytes 1 s.power.state.code ++ zeros 3) s
      else if target != .run && be ps 1 1 == 0 && s.jobsNotReady then failWith .busy s
      else { answer .accepted [] s with post := fun s => (s.enterState target (s.repliesTo h)).askedBy h ps }

/-- POWER_STATE, STATE 0 to 4. -/
def execPowerState (h : Hdr) (ps : List Byte) (s : State) : Host.Outcome State Fault Refusal :=
  .next (s.command (.powerState h ps) 0x0601 h ps false (powerStateBody h))

/-- POWER_STATE, STATE 0xFF. -/
def execPowerStateRead (h : Hdr) (ps : List Byte) (s : State) : Host.Outcome State Fault Refusal :=
  .next (s.command (.powerStateRead h ps) 0x0601 h ps false (powerStateBody h))

/-! ### DOMAIN_CTRL (R420, R26, R326) -/

/-- R22: the segment of a Loom. -/
def loomSegment (n : Nat) : Nat := 2 * (n / 17) + (if n % 17 < 9 then 0 else 1)

/-- R22, R27: the domains of the units attached to a segment. Its vaults are not counted among the units that R26 asks to be off
(log 168, DESIGN CHOICE): the domain of their quadrant is never off (R420). -/
def segmentDomains (k : Nat) : List Nat :=
  (List.range 68).filter (fun n => loomSegment n == k) ++ [68 + 2 * k, 69 + 2 * k, 84 + 2 * k, 85 + 2 * k]
    ++ (match k with
      | 0 => [100]
      | 1 => [106, 112, 113, 126]
      | 2 => [101]
      | 3 => [102]
      | 4 => [103]
      | 5 => [107, 108, 109, 110, 111]
      | 6 => [104]
      | _ => [105])

/-- R23: the segments that are linked to a segment. -/
def segmentLinks (k : Nat) : List Nat := [(k + 1) % 8, (k + 7) % 8, (k + 4) % 8]

/-- R23: the segments of a list that reach segment 1 over links between its members. -/
def reachOne : Nat → List Nat → List Nat → List Nat
  | 0, _, seen => seen
  | n + 1, on, seen => reachOne n on (on.filter fun k => seen.contains k || (segmentLinks k).any seen.contains)

/-- R26: whether a segment may be switched off. -/
def State.segmentMayStop (s : State) (k : Nat) : Bool :=
  let on := (List.range 8).filter fun j => s.domainOn (114 + j)
  let rest := on.filter (· != k)
  let reach := fun (l : List Nat) => reachOne 8 l (l.filter (· == 1))
  k != 1 && !((segmentDomains k).any s.domainOn) && (reach on).all fun j => j == k || (reach rest).contains j

/-- R326: whether a port carries a route or a binding. -/
def State.portInUse (s : State) (n : Nat) : Bool :=
  (s.links.routes.any fun r => r.any fun q => q.1 == n || q.2 == n)
    || s.links.bindings.any fun b => !b.ended &&
      ((b.send.device == s.deviceNo && b.send.port == n)
        || b.recvs.any fun e => e.live && e.device == s.deviceNo && e.port == n)

/-- R420: why a domain is not switched off; none when it is. -/
def State.offRefusal (s : State) (d : Nat) : Option Status :=
  let given := fun (good : Bool) (st : Status) => if good then none else some st
  if d < 68 then given ((s.dentOf d).isNone || (s.loom d).failed) .wrongState
  else if d < 84 then
    given (!s.audio.streams.any fun t => t.cluster == d - 68 || t.moveTo.any fun m => m.1 == d - 68) .busy
  else if d < 100 then given (!s.units.present.getLsbD (d - 84)) .wrongState
  else if d < 106 then given (!s.portInUse (d - 100)) .wrongState
  else if d == 106 then given (!s.links.isRoot && !s.audio.streams.any Stream.isRtp) .wrongState
  else if d < 111 then
    given (!(List.range 8).any fun i => (s.reed (8 * (d - 107) + i)).running) .busy
  else if d == 111 then given s.audio.ingress.isEmpty .busy
  else if 114 ≤ d && d < 122 then given (s.segmentMayStop (d - 114)) .wrongState
  else if d == 126 then given s.bark.grants.isEmpty .busy
  else some .wrongState

/-- R489: DOMAIN_CTRL latches a domain's pads, which outlive transitions, and switches it off. -/
def State.domainOff (s : State) (d : Nat) : State :=
  let s := s.latchPads d true
  let s := if padDomain d then s.mapPower fun p => { p with hostLatched := setBit p.hostLatched d true } else s
  if s.domainOn d then s.switchOff d else s

/-- R248, R420: a domain switched on; one that is on already stays as it is, and that of an absent channel stays off (log 167). -/
def State.domainOnNow (s : State) (d : Nat) : State := if s.domainOn d || s.absentPhy d then s else s.switchOn d

/-- R420: DOMAIN_CTRL. -/
def domainCtrlBody (ps : List Byte) (s : State) : Answer :=
  if ps.length != 4 then badLength s
  else
    let op := be ps 0 1; let d := be ps 2 2
    match firstBad [(0, op ≤ 2), (1, zeroAt ps 1 1), (2, op == 2 || d < 129)] with
    | some off => badParam off s
    | none =>
      match op with
      | 2 => ok (beBytes 17 s.power.powered.toNat ++ beBytes 17 s.power.latched.toNat) s
      | 1 => ok [] (s.domainOnNow d)
      | _ =>
        match s.offRefusal d with
        | some st => failWith st s
        | none => ok [] (s.domainOff d)

/-- DOMAIN_CTRL, OP 0. -/
def execDomainCtrlOff (h : Hdr) (ps : List Byte) (s : State) : Host.Outcome State Fault Refusal :=
  .next (s.command (.domainCtrlOff h ps) 0x0602 h ps false domainCtrlBody)

/-- DOMAIN_CTRL, OP 1. -/
def execDomainCtrlOn (h : Hdr) (ps : List Byte) (s : State) : Host.Outcome State Fault Refusal :=
  .next (s.command (.domainCtrlOn h ps) 0x0602 h ps false domainCtrlBody)

/-- DOMAIN_CTRL, OP 2. -/
def execDomainCtrlRead (h : Hdr) (ps : List Byte) (s : State) : Host.Outcome State Fault Refusal :=
  .next (s.command (.domainCtrlRead h ps) 0x0602 h ps false domainCtrlBody)

/-! ### PAD_RELEASE (R421) -/

/-- R421: the domains whose pads a PAD_RELEASE releases. -/
def State.padsNamed (s : State) (d : Nat) : List Nat :=
  (if d == 0xFFFF then (List.range 129).filter s.domainOn else [d]).filter fun i => s.power.latched.getLsbD i

/-- R421, R488: pads released. -/
def State.releasePads (s : State) (ds : List Nat) : State :=
  let keep := ~~~ BitVec.ofNat 129 (maskOf 129 fun i => ds.contains i)
  s.mapPower fun p => { p with latched := p.latched &&& keep, hostLatched := p.hostLatched &&& keep }

/-- R421: PAD_RELEASE. -/
def padReleaseBody (ps : List Byte) (s : State) : Answer :=
  if ps.length != 4 then badLength s
  else
    let d := be ps 0 2
    match firstBad [(0, d < 129 || d == 0xFFFF), (2, zeroAt ps 2 2)] with
    | some off => badParam off s
    | none =>
      if d != 0xFFFF && !s.domainOn d then failWith .wrongState s
      else ok (beBytes 2 (s.padsNamed d).length) (s.releasePads (s.padsNamed d))

/-- PAD_RELEASE. -/
def execPadRelease (h : Hdr) (ps : List Byte) (s : State) : Host.Outcome State Fault Refusal :=
  .next (s.command (.padRelease h ps) 0x0603 h ps false padReleaseBody)

/-! ### VOLTAGE_POLICY and POWER_CEILING (R422, R423) -/

/-- R422: VOLTAGE_POLICY. -/
def voltagePolicyBody (ps : List Byte) (s : State) : Answer :=
  let op := be ps 0 1
  if ps.length != (if op == 0 then 12 else 4) then badLength s
  else
    let v : DWord := BitVec.ofNat 64 (be ps 4 8)
    let v := if op == 0 then v else s.live.voltagePolicy
    match firstBad [(0, op ≤ 1), (1, zeroAt ps 1 3), (4, op == 1 || voltagePolicyOk v)] with
    | some off => badParam off s
    | none =>
      if op == 0 && fld v 43 42 == 1 && decide (paceAt (fld v 53 44) s.hottest < (fld v 41 21 : Rat)) then
        failWith .limit s
      else
        let s := if op == 0 then { s with live := { s.live with voltagePolicy := v } }.steerVcore else s
        ok (beBytes 8 v.toNat ++ beBytes 2 s.power.vcoreMv ++ zeros 2) s

/-- VOLTAGE_POLICY, OP 0. -/
def execVoltagePolicyWrite (h : Hdr) (ps : List Byte) (s : State) : Host.Outcome State Fault Refusal :=
  .next (s.command (.voltagePolicyWrite h ps) 0x0604 h ps false voltagePolicyBody)

/-- VOLTAGE_POLICY, OP 1. -/
def execVoltagePolicyRead (h : Hdr) (ps : List Byte) (s : State) : Host.Outcome State Fault Refusal :=
  .next (s.command (.voltagePolicyRead h ps) 0x0604 h ps false voltagePolicyBody)

/-- R423: POWER_CEILING. -/
def powerCeilingBody (ps : List Byte) (s : State) : Answer :=
  if ps.length != 4 then badLength s
  else
    let w := be ps 0 2
    match firstBad [(0, w == 0 || ceilingOk w), (2, zeroAt ps 2 2)] with
    | some off => badParam off s
    | none =>
      let s := if w == 0 then s else { s with live := { s.live with ceiling := BitVec.ofNat 16 w } }
      ok (beBytes 2 s.live.ceiling.toNat ++ beBytes 2 s.power.powerW.toNat) s

/-- POWER_CEILING, WATTS 120 to 560. -/
def execPowerCeilingSet (h : Hdr) (ps : List Byte) (s : State) : Host.Outcome State Fault Refusal :=
  .next (s.command (.powerCeilingSet h ps) 0x0605 h ps false powerCeilingBody)

/-- POWER_CEILING, WATTS 0. -/
def execPowerCeilingRead (h : Hdr) (ps : List Byte) (s : State) : Host.Outcome State Fault Refusal :=
  .next (s.command (.powerCeilingRead h ps) 0x0605 h ps false powerCeilingBody)

/-! ### Measuring windows (R50 to R53, R498 to R500) -/

/-- Whether the device has started: it is at READY, or serves the network boot (R566). -/
def State.started (s : State) : Bool := s.power.boot == .ready || s.power.boot == .networkBoot

/-- R50, R51: one window closed by a counter: the waves completed, and RATE from them, or from the ring of a unit that
stood idle. -/
def PaceCounter.close (c : PaceCounter) (waves ring : Nat) : PaceCounter :=
  let rate := BitVec.ofNat 21 (min (if waves == 0 then ring else waves) (2 ^ 21 - 1))
  let low := if c.cleared || rate.toNat < c.minRate.toNat then rate else c.minRate
  { c with waves := c.waves + BitVec.ofNat 64 waves, rate := rate, minRate := low, valid := true, cleared := false }

/-- R50: the counters of the powered units close a window. -/
def State.closeCounters (s : State) (w : Sys2Proof.Window) : State :=
  let close := fun (c : PaceCounter) =>
    match w.waves.find? fun e => e.1 == c.kind && e.2.1 == c.index with
    | some e => if s.domainOn c.domain then c.close e.2.2.1 e.2.2.2 else c
    | none => c
  { s with pace := { s.pace with counters := s.pace.counters.map close } }

/-- R53: the mapped Loom with the lowest RATE, and that RATE. -/
def State.lowestRate (s : State) : Option (Nat × Nat) :=
  let mapped := s.pace.counters.filter fun c => c.kind == 0 && c.valid && (s.dentOf c.index).isSome
  mapped.foldl (fun best c => match best with
    | some b => if c.rate.toNat < b.2 then some (c.index, c.rate.toNat) else some b
    | none => some (c.index, c.rate.toNat)) none

/-- R439: whole degrees of a temperature in quarter degrees. -/
def wholeDegrees (q : Int) : Int := if q % 4 == 0 then q / 4 else Config.wholeDegrees q

/-- A two's complement field of two bytes. -/
def int16 (i : Int) : List Byte := beBytes 2 (i % 65536).toNat

/-- R53, R439: EVENT_RATE_CHANGE at a window, when the lowest RATE has moved by more than 5 % and 100 windows have passed
since the last; the first window after READY gives the value to compare with. -/
def State.rateChange (s : State) : State :=
  let since := s.pace.sinceEvent.map (· + 1)
  match s.lowestRate, s.pace.reference with
  | none, _ => { s with pace := { s.pace with sinceEvent := since } }
  | some r, none => { s with pace := { s.pace with reference := some r.2, sinceEvent := since } }
  | some r, some p =>
    let apart := if r.2 < p then p - r.2 else r.2 - p
    if 5 * p < 100 * apart && since.all (100 ≤ ·) then
      let body := beBytes 4 r.2 ++ beBytes 4 p ++ beBytes 1 r.1 ++ zeros 1 ++ beBytes 2 s.power.vcoreMv
        ++ int16 (wholeDegrees s.hottest) ++ zeros 2
      { s.event .rateChange .ok 0 0 body with
        pace := { s.pace with reference := some r.2, sinceEvent := some 0 } }
    else { s with pace := { s.pace with sinceEvent := since } }

/-- R485: whether a transition waits for VCORE. -/
def State.awaitsVcore (s : State) : Bool := s.power.transition.any fun t => t.awaiting.contains awaitVcore

/-- R57, R485, R496, R499: VCORE asked to move: to 550 mV for a transition that waits for it, else to its target. -/
def State.retarget (s : State) : State :=
  if s.awaitsVcore then (if s.power.vcoreMv == 550 then s else s.requestRail .vcore 550) else s.steerVcore

/-- R500: EVENT_POWER of CAUSE 4 or 5, in Run. -/
def State.policyEvent (s : State) : State :=
  let below := decide (s.targetMv < fld s.live.voltagePolicy 63 54)
  if s.power.state == .run && below != s.power.belowMin then
    (s.mapPower fun p => { p with belowMin := below }).powerEvent .run .run (if below then 4 else 5)
  else s

/-- R498 to R500: the Treadle's part of a window, in Run and Idle: the draw, the governed voltage, VCORE, and the events. -/
def State.govern (s : State) (draw : Nat) : State :=
  let hot := s.power.hot || s.power.hotHeld
  let s1 := (s.emitAll drawReads).mapPower fun p =>
    { p with powerW := BitVec.ofNat 16 (min draw 0xFFFF),
             governedMv := nextG p.governedMv draw s.live.ceiling.toNat hot s.policyMv }
  s1.policyEvent.retarget.rateChange

/-- R50: whether CD_51 runs: in Run, Idle and Sleep (R475). -/
def State.windowsRun (s : State) : Bool :=
  s.started && (s.power.state == .run || s.power.state == .idle || s.power.state == .sleep)

/-- PACE_WINDOW. In Sleep the Treadle is halted: a window counts towards the spacing of R53, and the comparison follows in Run
(log 169, DEDUCED). -/
def execPaceWindow (w : Sys2Proof.Window) (s : State) : Host.Outcome State Fault Refusal :=
  if !s.windowsRun then .next s
  else
    let s1 := (s.mapRecorder fun r => { r with windows := r.windows + 1 }).closeCounters w
    let counted := { s1 with pace := { s1.pace with sinceEvent := s1.pace.sinceEvent.map (· + 1) } }
    .next (if s.power.boot != .ready then s1 else if s.power.state == .sleep then counted else s1.govern w.drawW)

/-! ### Sensors (R501, R593, R594) -/

/-- R501: the grade's maximum junction temperature in °C. -/
def maxJunction : Int := if Config.variantE then 105 else 95

/-- R22, R593: the sensors of a quadrant: its Looms', its base layer's, its segments'. -/
def quadrantSensors (q : Nat) : List Nat := (List.range 17).map (17 * q + ·) ++ [68 + q, 72 + 2 * q, 73 + 2 * q]

/-- R594: a sensor leaves use, with its lifetime record. -/
def State.excludeSensor (s : State) (n reason : Nat) : State :=
  (s.mapPower fun p => { p with excluded := p.excluded ++ [n] }).lifetime 0x0021 0xFF 0 0 (leBytes 1 n ++ leBytes 1 reason)

/-- R593, R594: one conversion. -/
def State.convert (s : State) (c : Conversion) : State :=
  if s.power.excluded.contains c.sensor || 80 ≤ c.sensor then s
  else if !c.refOk then s.excludeSensor c.sensor 0
  else if c.quarterC < -240 || 600 < c.quarterC then s.excludeSensor c.sensor 1
  else s.mapPower fun p => { p with sensors := p.sensors.set c.sensor c.quarterC }

/-- R594: hot is held once more than 8 sensors are excluded, or all of a quadrant. -/
def State.holdHot (s : State) : State :=
  let ex := s.power.excluded
  let held := 8 < ex.length || (List.range 4).any fun q => (quadrantSensors q).all ex.contains
  s.mapPower fun p => { p with hotHeld := p.hotHeld || held }

/-- R501: hot set at the maximum, cleared 3 °C below it, with EVENT_POWER of CAUSE 6 when it is set. -/
def State.setHot (s : State) : State :=
  let t := s.hottest
  let hot := s.power.hotHeld || (if s.power.hot then decide (4 * (maxJunction - 3) < t) else decide (4 * maxJunction ≤ t))
  let s1 := s.mapPower fun p => { p with hot := hot }
  if hot && !s.power.hot then s1.powerEvent s.power.state s.power.state 6 else s1

/-- Whether the sensors and the regulator interface run. -/
def State.senses (s : State) : Bool := s.windowsRun && s.domainOn 128

/-- THERMAL_SENSOR_CONVERSION. -/
def execThermalSensorConversion (cs : List Conversion) (s : State) : Host.Outcome State Fault Refusal :=
  .next (if s.senses then (cs.foldl State.convert s).holdHot.setHot else s)

/-- R501: entry 6 at once, in place of a transition that runs. -/
def State.tripOff (s : State) : State :=
  let t : Transition :=
    { entry := 6, source := s.power.state, target := .off, next := none, step := 0, awaiting := [], cause := 6,
      wake := false }
  (((s.acceptEntry .off).mapPower fun p =>
    { p with transition := some t, wasOn := p.powered, entryLatched := 0 }).stopForEntry false).advance advanceFuel

/-- R501: a trip: the lifetime record, the event, every job cancelled, and entry 6. -/
def State.trip (s : State) (sensor : Nat) (tempC : Int) : State :=
  let detail := leBytes 1 sensor ++ zeros 1 ++ leBytes 2 (tempC % 65536).toNat
  ((s.lifetime 0x0020 0xFF 0 0 detail).powerEvent .off s.power.state 6).cancelAll.tripOff

/-- THERMAL_TRIP. -/
def execThermalTrip (sensor : Nat) (tempC : Int) (s : State) : Host.Outcome State Fault Refusal :=
  let tripping := s.power.transition.any fun t => t.entry == 6
  .next (if s.senses && !tripping && !s.power.excluded.contains sensor && decide (maxJunction + 15 ≤ tempC) then
    s.trip sensor tempC else s)

/-- R557, R563: a cold reset that an event causes: the recorder's queues are written first. -/
def State.coldReset (s : State) : State :=
  (s.mapRecorder Recorder.drain).mapPower fun p => { p with boot := .coldPending }

/-- R497: the lifetime record of a supply fault; none for a VCORE that is not below 520 mV. -/
def State.supplyRecord (s : State) (f : SupplyFault) : Option State :=
  match f with
  | .vcore mv => if mv < 520 then some (s.lifetime 0x0010 0xFF 0 0 (leBytes 2 mv)) else none
  | .pmbus page w => some (s.lifetime 0x0011 0xFF 0 0 ([page] ++ zeros 1 ++ leBytes 2 w.toNat))

/-- VCORE_UNDERVOLTAGE. -/
def execVcoreUndervoltage (f : SupplyFault) (s : State) : Host.Outcome State Fault Refusal :=
  .next (if s.senses then (s.supplyRecord f).elim s State.coldReset else s)

/-! ### Transitions and regulators (R485, R496) -/

/-- R205: whether a Shuttle runs a batch. -/
def State.batchRuns (s : State) : Bool := s.units.clusters.any fun k => k.shuttles.any fun u => u.batch.isSome

/-- R485: entries 2, 4 and 6 wait for the Shuttle arrays to halt at batch boundaries. -/
def State.entryWaits (s : State) : Bool :=
  s.power.transition.any fun t => (t.entry == 2 || t.entry == 4 || t.entry == 6) && s.batchRuns

/-- R490, R493: whether a domain's report completes a return from Deep sleep. -/
def State.wakesNow (s : State) (domain : Nat) : Bool :=
  s.power.transition.any (fun t => t.source == .deepSleep && t.target == .run) && (s.reported domain).power.transition.isNone

/-- R490, R572: the retention SRAM's CRC fails: a lifetime record, and the wake or warm reset becomes a cold boot. -/
def State.retentionLost (s : State) : State := (s.lifetime 0x0013 0xFF 0 0 []).coldReset

/-- DOMAIN_POWER_GOOD. -/
def execDomainPowerGood (r : DomainReport) (s : State) : Host.Outcome State Fault Refusal :=
  .next (if s.entryWaits then s else if !r.retentionOk && s.wakesNow r.domain then s.retentionLost else s.reported r.domain)

/-- R496: the outstanding request of a rail. -/
def State.railAsked (s : State) (rail : Rail) : Option RailRequest := s.power.requests.find? fun r => r.rail == rail

/-- R496: a rail's request leaves. -/
def State.dropRequest (s : State) (rail : Rail) : State :=
  s.mapPower fun p => { p with requests := p.requests.filter fun r => r.rail != rail }

/-- R496: an acknowledged request: VCORE stands at its value, and a transition that waits for it goes on. -/
def State.acknowledged (s : State) (r : RailRequest) : State :=
  let s := s.dropRequest r.rail
  if r.rail == .vcore then
    let s := s.mapPower fun p => { p with vcoreMv := r.mv }
    if s.awaitsVcore && r.mv == 550 && !s.entryWaits then s.reported awaitVcore else s.retarget
  else s

/-- REGULATOR_ACK. -/
def execRegulatorAck (rail : Rail) (s : State) : Host.Outcome State Fault Refusal :=
  .next ((s.railAsked rail).elim s s.acknowledged)

/-- R558: DETAIL of a request that was not acknowledged: bus, rail, mV. -/
def railDetail (r : RailRequest) : List Byte :=
  match r.rail with
  | .vcore => leBytes 1 0 ++ leBytes 1 0 ++ leBytes 2 r.mv
  | .pmbus a _ => leBytes 1 1 ++ [a] ++ leBytes 2 r.mv

/-- R496: a request not acknowledged within 10 ms: sent again, at most three times, and then given up with a lifetime
record. -/
def State.unacknowledged (s : State) (r : RailRequest) : State :=
  if r.tries ≤ 3 then
    let again := fun (q : RailRequest) => if q.rail == r.rail then { q with tries := q.tries + 1 } else q
    (s.mapPower fun p => { p with requests := p.requests.map again }).emitAll (railOutputs r.rail r.mv)
  else (s.dropRequest r.rail).lifetime 0x0012 0xFF 0 0 (railDetail r)

/-- REGULATOR_TIMEOUT. -/
def execRegulatorTimeout (rail : Rail) (s : State) : Host.Outcome State Fault Refusal :=
  .next ((s.railAsked rail).elim s s.unacknowledged)

/-! ### Wake (R370, R371, R480 to R484) -/

/-- R480, R482: whether a held WAKE is a wake event: in Sleep, Deep sleep and Off, and while they are entered. -/
def State.pinWakes (s : State) : Bool :=
  match s.power.transition with
  | some t => t.next.getD t.target != .idle && t.next.getD t.target != .run
  | none =>
    match s.power.state with
    | .run | .idle => false
    | .sleep | .deepSleep => s.power.boot == .ready
    | .off => s.power.boot == .unpowered

/-- WAKE_PIN. -/
def execWakePin (heldUs : Nat) (s : State) : Host.Outcome State Fault Refusal :=
  .next (if 100 ≤ heldUs && s.pinWakes then s.wake 2 else s)

/-- R370, R481: whether an address byte is the device's, in a direction. -/
def State.addressed (s : State) (addr : Byte) (toDevice : Bool) : Bool :=
  addr.toNat == 2 * (0x40 + s.power.straps.toNat) + (if toDevice then 0 else 1)

/-- R370: the symbols of the wake bus: a low pulse on W0 or W1, or both low together. -/
inductive BusSymbol where
  | zero | one | delimiter
deriving DecidableEq, Repr

/-- R370: a byte, most significant bit first. -/
def busByte (b : Byte) : List BusSymbol := (List.range 8).map fun i => if b.getLsbD (7 - i) then .one else .zero

/-- R370: a frame. -/
def busFrame (addr : Byte) (bytes : List Byte) : List BusSymbol :=
  [.delimiter] ++ (addr :: bytes).flatMap busByte ++ [.delimiter]

/-- R371, R481: whether the device acknowledges the n-th symbol after the opening delimiter of a frame with an address byte: those of
the address up to the first that differs, and all past it when the address is its own; but none past the address byte of a
sending frame while the reply queue is full, unless Heartwood takes the frame. -/
def State.acknowledges (s : State) (addr : Byte) (n : Nat) : Bool :=
  let own := busByte (BitVec.ofNat 8 (2 * (0x40 + s.power.straps.toNat)))
  if n < 8 then (List.range n).all fun i => (busByte addr)[i]? == own[i]?
  else
    (s.addressed addr true && (s.busWakes || s.proto.replyQueue.length < 16)) || s.addressed addr false

/-- R370, R371: a sent frame reaches the device whole: every symbol is acknowledged. -/
def State.frameTaken (s : State) (addr : Byte) (bytes : List Byte) : Bool :=
  s.addressed addr true && (List.range ((busFrame addr bytes).length - 2)).all (s.acknowledges addr)

/-- WAKE_BUS_FRAME: a frame whose first symbol past the address byte is not acknowledged is a partial frame, which is discarded. -/
def execWakeBusFrame (addr : Byte) (bytes : List Byte) (s : State) : Host.Outcome State Fault Refusal :=
  .next (if !s.started || !s.frameTaken addr bytes then s
    else if s.busWakes then s.wake 1
    else s.receiveRaw .wakeBus ⟨[], 0⟩ bytes)

/-- R370, R371: the oldest packet of the reply queue, or the closing delimiter alone. -/
def State.wakeBusRead (s : State) : State :=
  match s.proto.replyQueue with
  | [] => s.emit (.wakeFrame none)
  | p :: rest => ({ s with proto := { s.proto with replyQueue := rest } }.emit (.wakeFrame (some p))).drainEvents

/-- WAKE_BUS_READ. -/
def execWakeBusRead (addr : Byte) (s : State) : Host.Outcome State Fault Refusal :=
  .next (if !s.addressed addr false || !s.started || s.power.state == .off then s
    else if s.busWakes then s.wake 1
    else s.wakeBusRead)

/-- WAKE_BUS_STALL (R589): the partial frame is discarded; the model holds none, since a frame arrives whole. -/
def execWakeBusStall (s : State) : Host.Outcome State Fault Refusal := .next s

/-! ### Refresh and training in the background (R244, R246, R249, R492) -/

/-- R246: the refresh period in ms at a temperature in °C. -/
def refreshPeriod (tempC : Int) : Nat := if tempC ≤ 85 then 32 else if tempC ≤ 95 then 16 else 8

/-- R492: the self-refresh period after a reading: shorter at once, longer only 2 °C below the boundary. -/
def nextSelfRefresh (now : Nat) (tempC : Int) : Nat :=
  if refreshPeriod tempC ≤ now then refreshPeriod tempC else max now (refreshPeriod (tempC + 2))

/-- SELF_REFRESH_SUPERVISION. -/
def execSelfRefreshSupervision (temps : List Int) (s : State) : Host.Outcome State Fault Refusal :=
  .next (match temps with
    | t :: rest =>
      if s.power.canopySelf then
        s.mapPower fun p => { p with selfRefreshMs := nextSelfRefresh p.selfRefreshMs (rest.foldl max t) }
      else s
    | [] => s)

/-- CANOPY_REFRESH. -/
def execCanopyRefresh (quadrant : Nat) (tempC : Int) (s : State) : Host.Outcome State Fault Refusal :=
  .next (if s.windowsRun && !s.power.canopySelf && s.domainOn (122 + quadrant) then
    { s with memory := { s.memory with refreshMs := s.memory.refreshMs.set quadrant (refreshPeriod tempC) } }
  else s)

/-- PATROL_SCRUB: every word is read; a corrected one is counted, its value being unchanged. -/
def execPatrolScrub (vault : Nat) (corrected : Bool) (s : State) : Host.Outcome State Fault Refusal :=
  .next (if s.computing && s.domainOn (122 + vault / 17) && corrected then
    s.countCorrected true vault 1
  else s)

/-- WCK_DRIFT_CHECK: a drift beyond the range of adjustment retrains the channel's write DQ. -/
def execWckDriftCheck (ch : Nat) (drift : Bool) (s : State) : Host.Outcome State Fault Refusal :=
  .next (if s.computing && s.units.present.getLsbD ch && drift then
    { s with units := { s.units with retrained := s.units.retrained.modify ch (· + 1) } }
  else s)

end Sys2Proof.Machine
end

