-- ==== Sys2Proof/Machine/Faults.lean ====
section
/-!
DEFINITION. Faults, spares and recovery (R36, R37, R228, R245, R528 to R546): retirement, the spare, the replay of contexts
and streams, and the events.
-/
namespace Sys2Proof.Machine

open Sys2Proof

/-! ### Decisions (R530, R531) -/

/-- R528: the row of a mechanism in its table. -/
def mechRow (m : Mechanism) : Nat :=
  match m with
  | .sramEcc | .weightStore => 0
  | .dramEcc => 1
  | .arrayResidue => 2
  | .datapathResidue => 3
  | .watchdog => 4
  | .linkProtection => 5
  | .endToEnd => 6

/-- R529: the mechanisms whose detections are faults of a Loom or a Shuttle. -/
def unitMech (m : Mechanism) : Bool :=
  match m with
  | .sramEcc | .arrayResidue | .datapathResidue | .watchdog => true
  | .dramEcc | .linkProtection | .endToEnd | .weightStore => false

/-- R530: a unit's faults of the last 60 operating minutes, with the present one. -/
def recentFaults (faults : List Word) (now : Word) : List Word :=
  (faults.filter fun t => now.toNat < t.toNat + 60) ++ [now]

/-! ### Looms (R37, R532 to R537, R543, R544) -/

/-- R34: a spare Loom. -/
def State.spareLoom (s : State) (n : Nat) : Bool := !(s.loom n).failed && (s.dentOf n).isNone

/-- R37: the spare that takes a dent over. -/
def State.spareFor (s : State) (dent : Nat) : Option Nat :=
  let q := dent / 16
  [q, q ^^^ 1, q ^^^ 2, q ^^^ 3].findSome? fun k => ((List.range 17).map (17 * k + ·)).find? s.spareLoom

/-- R533: the contexts with state on a Loom. -/
def State.replayable (s : State) (loom : Nat) : List Ctx :=
  s.sched.ctxs.filter fun c =>
    match c.place with
    | .waiting => false
    | .resident l _ => l == loom
    | .displaced l =>
      l == loom && (!(c.phys false).isEmpty || !(c.phys true).isEmpty
        || s.sched.saves.any fun v => v.loom == loom && v.victim == some c.key)

/-- R532 step 5, R534: a context restored from its current knot slot: in its slot of the target Loom, or waiting for one. -/
def State.replayCtx (s : State) (target : Nat) (c : Ctx) : State :=
  let regain := c.arch.sinceKnot.toNat + c.replayTo
  (s.backToKnot c).mapCtx c.job c.position fun x =>
    match c.place with
    | .resident _ slot =>
      { x with place := .resident target slot, ways := c.ways, units := c.units, replayTo := regain,
               blockedF := true, blockedE := true }
    | _ => { x with replayTo := regain }

/-- R281, R532 step 2: what a Loom's fault takes from it: its transfers, its save port's steps, its records at ports; and
the contexts displaced from it whole resume on the Loom that carries the dent. -/
def State.isolate (s : State) (loom target : Nat) : State :=
  let other := fun (r : PortRecord) => r.loom != loom
  { s with
    sched := { s.sched with
      transfers := s.sched.transfers.filter (fun t => t.loom != loom),
      saves := s.sched.saves.filter (fun v => v.loom != loom),
      ctxs := s.sched.ctxs.map (fun c => if c.place == .displaced loom then { c with place := .displaced target } else c),
      jobs := s.sched.jobs.map fun j => { j with tokenInbox := j.tokenInbox.filter other } },
    audio := { s.audio with streams := s.audio.streams.map fun t => { t with inbox := t.inbox.filter other } } }

/-- R543: the open streams that jobs feed as frame or token sink. -/
def State.fedBy (s : State) (jobs : List Word) : List Word :=
  let sinks := jobs.flatMap fun id => (s.job? id).elim [] fun j =>
    [j.frameSink] ++ (if j.tokenDev == s.deviceNo then [j.tokenSink] else [])
  (sinks.filter fun t => (s.stream? t).isSome).eraseDups

/-- R532 steps 5 and 6, R543: the contexts of a Loom replayed on a target, and EVENT_FAULT. -/
def State.replayLoom (s : State) (loom target : Nat) : State :=
  let cs := s.replayable loom
  let s := (cs.foldl (fun s c => s.replayCtx target c) s).isolate loom target
  if cs.isEmpty then s
  else
    let s := s.mapLoom loom fun u => { u with replays := satAdd u.replays 1 }
    let jobs := ((cs.map (·.job)).eraseDups).filter fun id => (s.job? id).any fun j => !j.ready
    (s.refresh target).faultEvent .faultReplayed (.loom loom) (s.loom loom).replays 0 (s.fedBy jobs) jobs

/-- R544: a dent without a spare is unmapped, and the jobs with a context on it end. -/
def State.loseDent (s : State) (loom dent : Nat) : State :=
  let jobs := ((s.sched.ctxs.filter fun c => c.dent == dent).map (·.job)).eraseDups
  let s := { s with units := { s.units with dentMap := s.units.dentMap.set dent none } }
  if jobs.isEmpty then s
  else
    let s := s.faultEvent .faultLost (.loom loom) (s.loom loom).replays 0 (s.fedBy jobs) jobs
    jobs.foldl (fun s id => s.endJob id .faultLost) s

/-- R37: a dent mapped to a spare, which is switched on when it is off; with its lifetime record. -/
def State.mapDent (s : State) (loom dent spare : Nat) : State :=
  let s := s.domainOnNow spare
  let s := { s with units := { s.units with dentMap := s.units.dentMap.set dent (some spare) } }
  s.lifetime 0x0041 0 loom 0 (leBytes 2 dent ++ leBytes 2 spare)

/-- R37, R544: a failed Loom's dent goes to a spare, where its contexts are replayed, or is lost. -/
def State.failOver (s : State) (loom : Nat) : State :=
  match s.dentOf loom with
  | none => s
  | some dent =>
    match s.spareFor dent with
    | some spare => (s.mapDent loom dent spare).replayLoom loom spare
    | none => s.loseDent loom dent

/-- R530: a Loom is retired, with its lifetime record, and its dent fails over. -/
def State.retireLoom (s : State) (loom : Nat) (mech faults : Nat) : State :=
  ((s.mapLoom loom fun u => { u with failed := true }).lifetime 0x0040 0 loom 0 (leBytes 1 mech ++ leBytes 1 faults)).failOver
    loom

/-- Healthy weft lane groups of a mask. -/
def lanesLeft (m : BitVec 16) : Nat := ((List.range 16).filter fun g => m.getLsbD g).length

/-- R531: a weft lane group is retired, with its lifetime record. -/
def State.retireLane (s : State) (loom g : Nat) : State :=
  let m := setBit (s.loom loom).lanes g false
  (s.mapLoom loom fun u => { u with lanes := m }).lifetime 0x0042 0 loom 0 (leBytes 1 g ++ leBytes 1 (lanesLeft m))

/-- R530 to R532: a Loom's fault. -/
def State.loomFault (s : State) (loom : Nat) (mech : Mechanism) (test : SelfTest) : State :=
  let faults := recentFaults (s.loom loom).faults s.recorder.minutes
  let n := min faults.length 255
  let s := s.mapLoom loom fun u => { u with faults := faults }
  let few := fun (g : Nat) => lanesLeft (setBit (s.loom loom).lanes g false) < 8
  if mech == .watchdog || 3 ≤ faults.length then s.retireLoom loom (mechRow mech) n
  else
    match test with
    | .fail => s.retireLoom loom (mechRow mech) n
    | .laneGroup g =>
      if few g then s.retireLoom loom (mechRow mech) n
      else (if (s.loom loom).lanes.getLsbD g then s.retireLane loom g else s).replayLoom loom loom
    | .pass => s.replayLoom loom loom

/-- R428, R529: whether a Loom can have a fault: it is powered and not failed, and, of a watchdog, not halted. -/
def State.loomMayFault (s : State) (loom : Nat) (mech : Mechanism) : Bool :=
  s.computing && unitMech mech && s.domainOn loom && !(s.loom loom).failed
    && !(mech == .watchdog && (s.loom loom).halted)

/-- LOOM_FAULT. -/
def execLoomFault (loom : Nat) (mech : Mechanism) (test : SelfTest) (s : State) : Host.Outcome State Fault Refusal :=
  .next (if s.loomMayFault loom mech then s.loomFault loom mech test else s)

/-! ### Shuttles (R228, R540, R543) -/

/-- R540: a stream set back to its context as last written. -/
def Stream.rerun (t : Stream) (free : Option Nat) : Stream :=
  let slot := if t.companionSlot.isSome then t.companionSlot else free
  let t := { t with ctx := t.saved, again := t.redo, redo := none }.recallCompanion
  match t.savedCompanion, slot with
  | some _, some j => { t with companionSlot := some j }
  | some k, none =>
    { t with ctx := k.1, companion := none, companionSlot := none, fadeStep := 0, fadeOld := none, unfaded := true }
  | none, _ => { t with companionSlot := none }

/-- R225, R226, R540: a stream's context read back from its save area before a rerun; none when its check fails. -/
def State.reread (s : State) (id : Word) : Option State :=
  (s.stream? id).bind fun t => (s.readSaved t t.saved.nextSeq).map fun x => s.mapStream id fun t => { t with saved := x }

/-- R540: a failed Shuttle's streams restored on a Shuttle of its cluster, in their slots. -/
def State.rerunOn (s : State) (c p q : Nat) (ids : List Word) : State :=
  let moved := fun (m : Nat × Nat) => if m == (c, p) then (c, q) else m
  let retarget := fun (t : Stream) => { t with moveTo := t.moveTo.map moved }
  let served := fun (t : Stream) => if t.cluster == c && t.pos == p then { t with pos := q } else t
  let s := { s with audio := { s.audio with streams := s.audio.streams.map retarget } }
  let s := s.mapShuttle c p fun h => { h with batch := none, wavesSinceWrite := 0 }
  let s := ids.foldl (fun s id =>
    let free := s.freeSlot c p
    match s.stream? id, s.reread id with
    | some t, none => s.loseStream t
    | _, some s => s.mapStream id fun t => let t := if t.slot.isSome then t.rerun free else t; if t.moving then t.depart else t
    | none, none => s) s
  { s with audio := { s.audio with streams := s.audio.streams.map served } }

/-- R543: the replays counted, and EVENT_FAULT of a Shuttle whose streams go on. -/
def State.replayedShuttle (s : State) (c p : Nat) (ids : List Word) : State :=
  if ids.isEmpty then s
  else
    let s := s.mapShuttle c p fun h => { h with replays := satAdd h.replays 1 }
    s.faultEvent .faultReplayed (.shuttle c p) (s.shuttle c p).replays 0 ids []

/-- R225, R228: a stream of a failed Shuttle leaves for another: its context is read from its save area there. -/
def State.sendAway (s : State) (id : Word) (dest : Nat × Nat) : State :=
  s.mapStream id fun t =>
    let u := { t with ctx := t.saved, again := t.redo, redo := none }.recallCompanion
    { u with cluster := dest.1, pos := dest.2, slot := none, companionSlot := none, moveTo := none, moving := false,
             absent := true }

/-- R228: the streams of a failed Shuttle without a spare: each moves, or closes with FAULT_LOST. -/
def State.scatter (s : State) (c p : Nat) (ids : List Word) : State :=
  let r := ids.foldl (fun (acc : State × List Word) id =>
    let (s, moved) := acc
    match s.stream? id with
    | none => (s, moved)
    | some t =>
      match s.placeStream t.rate t.ctx.program id (fun _ _ => true) with
      | some dest => (s.sendAway id dest, moved ++ [id])
      | none => ((s.faultEvent .faultLost (.shuttle c p) (s.shuttle c p).replays 0 [id] []).closeStream id, moved)) (s, [])
  r.1.replayedShuttle c p r.2

/-- R228: a failed Shuttle is replaced by its cluster's spare, with its lifetime record, or its streams leave. -/
def State.replaceShuttle (s : State) (c p : Nat) (ids : List Word) : State :=
  let s := s.mapShuttle c p fun h => { h with batch := none, wavesSinceWrite := 0 }
  match (s.cluster c).spare with
  | some q =>
    if q == p then s.mapCluster c fun k => { k with spare := none }
    else
      let s := (s.mapCluster c fun k => { k with spare := none }).lifetime 0x0041 1 (256 * c + p) 0
        (leBytes 2 ids.length ++ leBytes 2 (256 * c + q))
      (s.rerunOn c p q ids).replayedShuttle c p ids
  | none => s.scatter c p ids

/-- R540: a weight-store word that cannot be corrected: the store is reloaded, and the Shuttle whose batch read the word is retried in
place, without counting towards R530. -/
def State.storeFault (s : State) (c p : Nat) : State :=
  let ids := (s.audio.streams.filter fun t => t.cluster == c && t.pos == p).map (·.id)
  ((s.reloadStore c).rerunOn c p p ids).replayedShuttle c p ids

/-- R530, R540: a Shuttle's fault. -/
def State.shuttleFault (s : State) (c p : Nat) (mech : Mechanism) (test : SelfTest) : State :=
  let faults := recentFaults (s.shuttle c p).faults s.recorder.minutes
  let ids := (s.audio.streams.filter fun t => t.cluster == c && t.pos == p).map (·.id)
  let s := s.mapShuttle c p fun h => { h with faults := faults }
  if mech == .watchdog || 3 ≤ faults.length || test != .pass then
    ((s.mapShuttle c p fun h => { h with failed := true }).lifetime 0x0040 1 (256 * c + p) 0
      (leBytes 1 (mechRow mech) ++ leBytes 1 (min faults.length 255))).replaceShuttle c p ids
  else (s.rerunOn c p p ids).replayedShuttle c p ids

/-- Whether a Shuttle can have a fault. -/
def State.shuttleMayFault (s : State) (c p : Nat) (mech : Mechanism) : Bool :=
  s.computing && (unitMech mech || mech == .weightStore) && s.domainOn (68 + c) && !(s.shuttle c p).failed

/-- SHUTTLE_FAULT. -/
def execShuttleFault (cluster pos : Nat) (mech : Mechanism) (test : SelfTest) (s : State) :
    Host.Outcome State Fault Refusal :=
  .next (if !s.shuttleMayFault cluster pos mech then s
    else if mech == .weightStore then s.storeFault cluster pos else s.shuttleFault cluster pos mech test)

/-! ### Units without spares (R542) -/

/-- R557, R572: a warm reset that an event causes: the recorder's queues are written first. -/
def State.warmReset (s : State) : State :=
  (s.mapRecorder Recorder.drain).mapPower fun p => { p with boot := .warmPending }

/-- The domain of a unit without a spare; none for Heartwood, which is never switched. -/
def soloDomain (u : SoloUnit) : Option Nat :=
  match u with
  | .treadle => some 112
  | .bark => some 113
  | .segment n => some (114 + n)
  | .canopyQuadrant n => some (122 + n)
  | .ethernet => some 106
  | .heartwood => none

/-- R542: a fault of a unit without a spare: its lifetime record and a warm reset. R407 has a code for the host link only. -/
def State.soloFault (s : State) (u : SoloUnit) (mech : Mechanism) : State :=
  (s.lifetime 0x0031 (if u == .ethernet then 6 else 0xFF) 0 0 (leBytes 1 (mechRow mech))).warmReset

/-- Whether a unit without a spare can have a fault. -/
def State.soloMayFault (s : State) (u : SoloUnit) : Bool :=
  s.power.boot == .ready && s.power.state != .off && (soloDomain u).elim true s.domainOn

/-- FAULT_NO_SPARE. -/
def execFaultNoSpare (unit : SoloUnit) (mech : Mechanism) (s : State) : Host.Outcome State Fault Refusal :=
  .next (if s.soloMayFault unit then s.soloFault unit mech else s)

/-- R528: a watchdog that fires is a fault of its unit. -/
def State.watchdog (s : State) (unit : WatchedUnit) : State :=
  match unit with
  | .loom n => if s.loomMayFault n .watchdog then s.loomFault n .watchdog .pass else s
  | .shuttle c p => if s.shuttleMayFault c p .watchdog then s.shuttleFault c p .watchdog .pass else s
  | .segment n => if n < 8 && s.soloMayFault (.segment n) then s.soloFault (.segment n) .watchdog else s
  | .treadle => if s.soloMayFault .treadle then s.soloFault .treadle .watchdog else s

/-- HANDSHAKE_WATCHDOG. -/
def execHandshakeWatchdog (unit : WatchedUnit) (s : State) : Host.Outcome State Fault Refusal := .next (s.watchdog unit)

/-! ### Uncorrectable words (R245, R250) -/

/-- R245: an affected job ends with FAULT_LOST, and EVENT_FAULT names the word. -/
def State.wordLost (s : State) (u : FaultUnit) (offset : Nat) (job : Word) : State :=
  match s.job? job with
  | none => s
  | some j => if j.ready then s
    else (s.faultEvent .faultLost u 0 offset (s.fedBy [job]) [job]).stopJob job .faultLost

/-- R245: the issued pieces of a context's loads that read a word. -/
def State.badPieces (s : State) (job : Word) (pos : Nat) (l : Loc) : List (Transfer × Piece) :=
  (s.sched.transfers.filter fun t => t.job == job && t.position == pos && (t.kind == .load || t.kind == .loadC)).flatMap fun t =>
    (t.pieces.filter fun p => p.tag.isSome && match s.pieceLoc t p, l with
      | some (.vault k), .vault w => decide (k ≤ w) && decide (w < k + p.len)
      | some (.chan k), .chan w => decide (k ≤ w) && decide (w < k + p.len)
      | _, _ => false).map fun p => (t, p)

/-- R245: a piece that has read an uncorrectable word delivers nothing: a LOAD goes on without it, and a LOAD_C, of which it is a
part, is gone. -/
def State.withhold (s : State) (q : Transfer × Piece) : State :=
  let gone := fun (u : Transfer) => u.loom == q.1.loom && u.pieces.any fun p => p.tag == q.2.tag
  if q.1.kind == .loadC then { s with sched := { s.sched with transfers := s.sched.transfers.filter fun u => !gone u } }
  else s.donePiece q.1.loom (q.2.tag.getD 64)

/-- R245: what a read of an uncorrectable word does to its reader; none for a reader that does not exist. -/
def State.wordRead (s : State) (u : FaultUnit) (offset : Nat) (reader : Reader) : Option State :=
  match reader with
  | .context loom slot => (s.resident? loom slot).map fun c =>
    let key := match u with
      | .vault n => Loc.vault (vaultKey n offset)
      | .channel n => Loc.chan (chanKey n offset)
      | _ => Loc.frame 0 0
    ((s.badPieces c.job c.position key).foldl State.withhold s).wordLost u offset c.job
  | .hotCopy id entry => (s.model? id).bind fun m =>
      if entry < m.hot.length then some (s.mapModel id fun m => { m with hot := m.hot.eraseIdx entry }) else none
  | .knotSlot job pos => (s.ctx? job pos).bind fun c =>
      if c.knot.isSome then
        some ((s.faultEvent .faultLost u 0 offset (s.fedBy [job]) [job]).endJob job .faultLost)
      else none
  | .shuttleContext id => (s.stream? id).map fun _ =>
      (s.faultEvent .faultLost u 0 offset [id] []).closeStream id

/-- R245, R250: an uncorrectable word of a vault, or of a channel with INLINE_ECC 1. -/
def State.badWord (s : State) (canopy : Bool) (unit : Nat) (offset : DWord) (reader : Reader) : State :=
  let detected := if canopy then s.domainOn (122 + unit / 17)
    else s.units.present.getLsbD unit && s.units.layout.getLsbD 19
  let u : FaultUnit := if canopy then .vault unit else .channel unit
  if !s.computing || !detected then s
  else
    let s1 := s.lifetime 0x0030 (if canopy then 2 else 3) unit 0 (leBytes 8 offset.toNat)
    (s1.wordRead u offset.toNat reader).getD s

/-- UNCORRECTABLE_WORD. -/
def execUncorrectableWord (canopy : Bool) (unit : Nat) (offset : DWord) (reader : Reader) (s : State) :
    Host.Outcome State Fault Refusal :=
  .next (s.badWord canopy unit offset reader)

end Sys2Proof.Machine
end

