-- ==== Sys2Proof/Machine/HostLink.lean ====
section
/-!
DEFINITION. The transmit side of the host link: datagrams and their fragments, priorities and frames (R327, R329 to R331, R333 to
R337, R339, R347), and what the port looks at in a received frame first (R327, R330, R332, R333).
-/
namespace Sys2Proof.Machine

open Sys2Proof

/-! ### Where a datagram goes (R331, R347) -/

/-- R347: a multicast address. -/
def multicastAddr (v6 : Bool) (a : List Byte) : Bool :=
  let b := (a.headD 0).toNat
  if v6 then b == 255 else 224 ≤ b && b ≤ 239

/-- Whether two addresses agree in their first bits. -/
def samePrefix (bits : Nat) (a b : List Byte) : Bool :=
  beNat a / 2 ^ (8 * a.length - bits) == beNat b / 2 ^ (8 * a.length - bits)

/-- R331: the prefix length of the device's IPv4 address, and its default gateway. -/
def State.v4Net (s : State) : Option (Nat × List Byte) :=
  if s.net.addr.getD 4 0 != 0 then some ((s.net.addr.getD 4 0).toNat, slice s.net.addr 8 4)
  else s.net.lease.map fun l => (l.2.2, l.2.1)

/-- R331: the IPv6 default gateway: the static one, or that of the router advertisements. -/
def State.v6Gateway (s : State) : Option (List Byte) :=
  if zeroAt s.net.addr 48 16 then s.net.router else some (slice s.net.addr 48 16)

/-- R331: whether an address is on the link: multicast, link-local or in a prefix of the device's own addresses. -/
def State.onLink (s : State) (v6 : Bool) (a : List Byte) : Bool :=
  multicastAddr v6 a ||
  if v6 then
    let bits := fun (own : List Byte) =>
      if own == slice s.net.addr 16 16 && s.net.addr.getD 32 0 != 0 then (s.net.addr.getD 32 0).toNat else 64
    s.net.ipv6.any fun own => samePrefix (bits own) own a
  else
    match s.ownV4, s.v4Net with
    | some own, some (bits, _) => samePrefix bits own a
    | _, _ => false

/-- R331, R347: the next hop of an address: itself on the link, and otherwise the default gateway, where there is one. -/
def State.nextHop (s : State) (v6 : Bool) (a : List Byte) : List Byte :=
  if s.onLink v6 a then a
  else
    let gateway := if v6 then s.v6Gateway else s.v4Net.map (·.2)
    (gateway.filter fun g => !zeroAt g 0 g.length).getD a

/-! ### Datagrams (R334, R335, R337, R339) -/

/-- A UDP datagram. -/
def udpBytes (srcPort : Nat) (dst : Endpoint) (payload : List Byte) : List Byte :=
  let h := beBytes 2 srcPort ++ beBytes 2 dst.port ++ beBytes 2 (8 + payload.length)
  h ++ beBytes 2 (Config.udpChecksum dst.addr (h ++ payload)).toNat ++ payload

/-- R339: an RTP packet: version 2, no padding, extension or CSRC. -/
def rtpBytes (marker : Bool) (seq : Half) (ts ssrc : Word) (pt : Nat) (payload : List Byte) : List Byte :=
  beBytes 1 0x80 ++ beBytes 1 ((if marker then 128 else 0) + pt) ++ beBytes 2 seq.toNat ++ beBytes 4 ts.toNat
    ++ beBytes 4 ssrc.toNat ++ payload

/-- R335: the data that one fragment of a datagram can carry: a multiple of 8 bytes. -/
def fragmentBytes (mtu : Nat) (v6 : Bool) : Nat := (mtu - (if v6 then 48 else 20)) / 8 * 8

/-- R335: the fragments of a datagram's data, in offset order; one that fits within the MTU is whole. -/
def fragmentsOf (mtu : Nat) (v6 : Bool) (data : List Byte) : List (Nat × Bool × List Byte) :=
  if data.length + (if v6 then 40 else 20) ≤ mtu then [(0, false, data)]
  else
    let n := fragmentBytes mtu v6
    (List.range (ceilDiv data.length n)).map fun i =>
      (n * i, decide (n * (i + 1) < data.length), (data.drop (n * i)).take n)

/-- R330, R336: the tag of a frame of a priority. -/
def State.vlanTag (s : State) (rank : Nat) : Option (Nat × Nat) :=
  if fld s.net.config 33 22 == 0 then none
  else some (if rank == 0 then fld s.net.config 21 19 else fld s.net.config 18 16, fld s.net.config 33 22)

/-- R331, R334, R335: the frames of a UDP datagram. -/
def State.ipFrames (s : State) (rank dscp : Nat) (v6 : Bool) (dst : List Byte) (ident : Word) (data : List Byte) :
    List WireFrame :=
  (fragmentsOf (fld s.net.config 47 34) v6 data).map fun p =>
    { vlan := s.vlanTag rank, sec := none, hop := s.nextHop v6 dst,
      ip := some { v6 := v6, dst := dst, dscp := dscp, ident := ident, offset := p.1, more := p.2.1 }, data := p.2.2 }

/-- R334: a reply or event packet as a datagram from CMD_PORT (log 173). -/
def State.commandDatagram (s : State) (dst : Endpoint) (ident : Word) (packet : List Byte) : Datagram :=
  { rank := 1, egress := none,
    frames := s.ipFrames 1 (s.net.addr.getD 5 0).toNat (dst.addr.length == 16) dst.addr ident
      (udpBytes (fld s.net.config 63 48) dst packet) }

/-- R336, R337: what an output gives the transmit queues; those of other interfaces, nothing. -/
def State.datagramOf (s : State) (o : Output) (ident : Word) : Option Datagram :=
  match o with
  | .packet p => if p.iface == .hostLink then some (s.commandDatagram p.dest ident p.bytes) else none
  | .relay bytes => some (s.commandDatagram s.proto.host.dest ident bytes)
  | .netAnswer _ dest body =>
    some { rank := 2, egress := none, frames := [{ vlan := s.vlanTag 2, sec := none, hop := dest, ip := none, data := body }] }
  | .rtp stream i marker seq ts ssrc pt payload path =>
    some { rank := 0, egress := some (stream, i),
           frames := s.ipFrames 0 path.dscp path.v6 path.dst.addr ident
             (udpBytes path.srcPort path.dst (rtpBytes marker seq ts ssrc pt payload)) }
  | _ => none

/-! ### The transmit queues (R333, R336, R347) -/

/-- R336: the outputs that the transmit crossing has not taken yet enter its queues. -/
def State.linkEnqueue (s : State) : State :=
  let new := (s.out.zipIdx.drop s.net.handed).filterMap fun p => s.datagramOf p.1 (Config.ipIdent p.2)
  { s with net := { s.net with queue := s.net.queue ++ new, handed := s.out.length } }

/-- R333: a frame as it leaves: secured while SECURED is 1. -/
def Net.sendFrame (n : Net) (f : WireFrame) : Net :=
  match (if fld n.config 15 14 == 0 || !n.secured then none else n.txSa) with
  | none => { n with wire := n.wire ++ [f] }
  | some (an, pn) => { n with wire := n.wire ++ [{ f with sec := some (an, pn) }], txSa := some (an, pn + 1) }

/-- R347: one packet less waits for a destination of a stream. -/
def Stream.dequeued (t : Stream) (i : Nat) : Stream :=
  match t.egress with
  | .rtp r => { t with egress := .rtp { r with dests := r.dests.modify i fun d => { d with queued := d.queued - 1 } } }
  | _ => t

/-- R335, R336: the first datagram of the highest priority leaves, its frames back to back. -/
def State.linkSendOne (s : State) : State :=
  match sortBy (·.rank) s.net.queue with
  | [] => s
  | d :: rest =>
    let s := { s with net := d.frames.foldl Net.sendFrame { s.net with queue := rest } }
    match d.egress with
    | some (id, i) => s.mapStream id (Stream.dequeued · i)
    | none => s

/-- R336: the next datagrams leave, as many as there are up to a number. -/
def State.linkSend : Nat → State → State
  | 0, s => s
  | n + 1, s => State.linkSend n s.linkSendOne

/-- R336, R347: what has left by this moment: at most as many datagrams as the link has had time for (log 173). -/
def State.linkCatchUp (s : State) : State :=
  if s.padsOpen 106 && s.hostLinkUp then
    let s := s.linkEnqueue
    { State.linkSend (min (Config.linkSent s.free) s.net.queue.length) s with free := s.free + 1 }
  else s

/-- R336: with nothing to execute, everything that waits leaves (log 173). -/
def State.linkDrain (s : State) : State :=
  if s.padsOpen 106 && s.hostLinkUp then
    let s := s.linkEnqueue
    State.linkSend s.net.queue.length s
  else s

/-! ### Rates and roles (R327, R328, R330) -/

/-- R328: the highest rate of a set of rates, as a bit of RATES. -/
def topRate (a : BitVec 3) : Nat := if a.getLsbD 2 then 2 else if a.getLsbD 1 then 1 else 0

/-- R327, R328, R330: the rate and role of a link that comes up: as negotiated among the rates advertised, or as ROLE forces; rate 0
when it does not come up. -/
def linkTerms (config : DWord) (advertised : BitVec 3) (rate : BitVec 2) (leader : Bool) : BitVec 2 × Bool :=
  let role := fld config 11 10
  if rate == 0 then (0, false)
  else if role != 0 then (BitVec.ofNat 2 (topRate (BitVec.ofNat 3 (fld config 2 0)) + 1), role == 1)
  else if advertised.getLsbD (rate.toNat - 1) then (rate, leader) else (0, false)

/-! ### Low-power idle (R329) -/

/-- R329: whether the transmitter may stand in low-power idle: in Sleep always, else as agreed while no RTP egress is active. -/
def State.transmitterIdles (s : State) : Bool :=
  s.power.state == .sleep || s.net.lpi && !s.audio.streams.any fun t => t.isRtp && t.running

/-! ### The head of a received frame (R327, R330, R332, R333) -/

/-- R334: frames discarded and counted. -/
def State.discard (s : State) (n : Nat) : State :=
  { s with net := { s.net with rxDiscard := satAdd s.net.rxDiscard n } }

/-- R333: a secured frame: validated by its association, its packet number not below the lowest accepted. -/
def Net.validate (n : Net) (t : SecTag) : Net :=
  match n.rxSas.find? fun a => a.sci == t.sci && a.an == t.an with
  | some a =>
    if t.valid && a.lowest.toNat ≤ t.pn.toNat then
      { n with rxSas := n.rxSas.map fun b => if b.sci == t.sci && b.an == t.an then { b with lowest := t.pn + 1 } else b }
    else { n with macsecFail := satAdd n.macsecFail 1 }
  | none => { n with macsecFail := satAdd n.macsecFail 1 }

/-- R333: an unsecured frame: discarded with MACSEC 2 but for EAPOL, and accepted and counted with MACSEC 1. -/
def State.takeUnsecured (s : State) (f : FrameHead) : State :=
  let macsec := fld s.net.config 15 14
  if macsec == 2 && !f.eapol then s.discard 1
  else if macsec == 1 then { s with net := { s.net with unsecured := s.net.unsecured + 1 } }
  else s

/-- R327, R330, R332, R333: the head of a received frame: dropped and counted, or passed on to what its content is; a PAUSE frame
is ignored. -/
def State.takeHead (s : State) (f : FrameHead) : State :=
  let vlan := fld s.net.config 33 22
  if f.full then { s with net := { s.net with rxFull := satAdd s.net.rxFull 1 } }
  else if f.pause then s
  else if fld s.net.config 47 34 + 22 < f.bytes || (vlan != 0 && f.vlan.any fun v => v != vlan) then s.discard 1
  else
    match f.sec with
    | none => s.takeUnsecured f
    | some t => if fld s.net.config 15 14 == 0 then s.discard 1 else { s with net := s.net.validate t }

/-- R333: the associations that MKA has made: of a slot that holds a CAK, at most four channels, an association that goes on keeping
its packet numbers. -/
def Net.associate (n : Net) (slot : Nat) (rx : List (DWord × Nat)) (tx : Option Nat) : Net :=
  let channels := ((rx.map (·.1)).eraseDups).take 4
  let sas := ((rx.filter fun r => channels.contains r.1 && r.2 < 4).eraseDups).map fun r =>
    ((n.rxSas.find? fun a => a.sci == r.1 && a.an == r.2).getD ⟨r.1, r.2, 1⟩)
  let sent := (tx.filter (· < 4)).map fun an => ((n.txSa.filter fun t => t.1 == an).getD (an, 1))
  { n with rxSas := sas, txSa := sent, mkaSlot := some slot, secured := !sas.isEmpty && sent.isSome }

end Sys2Proof.Machine
end

