-- ==== Sys2Proof/Machine/Boot.lean ====
section
/-!
DEFINITION. Signed objects (R505), the firmware manifest (R514, R565), the lifecycle's zeroisation (R511), resets and boots
(R551, R563 to R575), the recorder's writes (R555, R556), the operating minute (R550) and VAON and RESET_N (R582, R585).
-/
namespace Sys2Proof.Machine

open Sys2Proof

/-! ### Signed objects (R505) -/

/-- R505: bytes of the trailer. -/
def trailerBytes : Nat := 3073

/-- R505: SIGNER of an object. -/
def signerOf (o : List Byte) : List Byte := slice o (o.length - trailerBytes) 1793

/-- R505: an object whose signer's digest is permitted and whose signature verifies. -/
def signedBy (permitted : List (List Byte)) (o : List Byte) : Bool :=
  trailerBytes ≤ o.length && permitted.contains (Crypto.digest (signerOf o))
    && Config.falconVerify (signerOf o) (o.take (o.length - 1280)) (o.drop (o.length - 1280))

/-! ### The firmware manifest (R514, R515, R565) -/

/-- R514: a manifest's form. -/
def manifestForm (m : List Byte) : Bool :=
  m.length == 64 + trailerBytes && be m 0 4 == 0x464D4631 && be m 4 1 == 1 && zeroAt m 5 3 && zeroAt m 56 8
    && 1 ≤ be m 12 4 && be m 12 4 ≤ 33554432

/-- R514: a manifest signed by the firmware root key. -/
def manifestSigned (m : List Byte) : Bool := signedBy [Config.yilathDigest 0] m

/-- R514: SVN. -/
def manifestSvn (m : List Byte) : Nat := be m 16 8

/-- R514: IMAGE_BYTES. -/
def manifestImageBytes (m : List Byte) : Nat := be m 12 4

/-- R514: the image matches IMAGE_DIGEST. -/
def imageMatches (m image : List Byte) : Bool := Crypto.digest (image.take (manifestImageBytes m)) == slice m 24 32

/-- R515: the anti-rollback counter. -/
def State.rollbackValue (s : State) : Nat := (s.bark.rollback.getLast?.map (·.toNat)).getD 0

/-- R565: the first check that the flash image fails, numbered as in CODE 0x0006. -/
def State.flashFault (s : State) : Option Nat :=
  let m := s.flash.manifest
  if !(m.length == 64 + trailerBytes && be m 0 4 == 0x464D4631 && be m 4 1 == 1 && manifestSigned m) then some 0
  else if manifestSvn m < s.rollbackValue then some 1
  else if 33554432 < manifestImageBytes m then some 2
  else if imageMatches m s.flash.image then none else some 3

/-- R515: READY: in Deployed the counter advances to the image's SVN, with its lifetime record, or is exhausted. -/
def State.advanceRollback (s : State) : State :=
  let svn := manifestSvn s.bark.runManifest
  if s.power.boot != .ready || s.bark.lifecycle != 2 || svn ≤ s.rollbackValue then s
  else if s.bark.rollback.length < 256 then
    let index := s.bark.rollback.length
    { s with bark := { s.bark with rollback := s.bark.rollback ++ [BitVec.ofNat 64 svn] } }.lifetime 0x0003 0xFF 0 0
      (leBytes 8 svn ++ leBytes 2 index)
  else if s.bark.rollbackFull then s
  else { s with bark := { s.bark with rollbackFull := true } }.lifetime 0x0004 0xFF 0 0 (leBytes 8 svn)

/-- R563 step 6: the image in flash runs. -/
def State.runFlashImage (s : State) : State :=
  let m := s.flash.manifest
  { s with bark := { s.bark with
      runManifest := m, imageCopy := some (s.flash.image.take (manifestImageBytes m)), fwVersion := BitVec.ofNat 32 (be m 8 4) } }

/-- R565, R566: the image in flash runs, or its fault is recorded and the Seed ROM serves the network boot, in which
IDENTIFY gives FW_VERSION 0. -/
def State.bootFlash (s : State) : State :=
  match s.flashFault with
  | none => s.runFlashImage
  | some check =>
    let s := s.lifetime 0x0006 0xFF 0 0 (leBytes 1 check)
    { s with
      bark := { s.bark with imageCopy := none, fwVersion := 0 },
      power := { s.power with boot := .networkBoot },
      net := { s.net with rate := if fld s.net.config 15 14 == 2 then 0 else s.net.rate } }

/-! ### Zeroisation (R511) -/

/-- R511 step 3: what Returned erases: the key stores, the model keys, the settings slots, the owner digest. -/
def State.eraseSecrets (s : State) : State :=
  { s with
    flash := { s.flash with
      keys0 := .empty, keys1 := .empty, slot0 := [], slot1 := [], current := none, heartwoodCopy := [] },
    bark := { s.bark with modelKeys := [], ownerDigest := List.replicate 32 0xFF } }

/-- R511 step 4: zero in every vault and populated channel, and ZEROISE_DONE. -/
def State.eraseMemory (s : State) : State :=
  { s with
    memory := { s.memory with vault := [], ext := [] },
    bark := { s.bark with zeroiseDone := true } }

/-- R511: a boot that finds Returned without ZEROISE_DONE repeats steps 3 and 4. -/
def State.bootRepair (s : State) : State :=
  if s.bark.lifecycle == 3 && !s.bark.zeroiseDone then s.eraseSecrets.eraseMemory else s

/-! ### What a boot finds (R33, R38, R563, R571) -/

/-- R571: a Loom's self-test at a boot: its healthy lane groups. -/
def lanesAfter (failures : List (Nat × Nat)) (n : Nat) (lanes : BitVec 16) : BitVec 16 :=
  failures.foldl (fun m p => if p.1 == n then setBit m p.2 false else m) lanes

/-- R571: the Looms of a cold boot. Only a Loom that does not fail has its failing lane groups retired. -/
def bootLooms (f : BootFindings) : List LoomUnit :=
  (List.range 68).map fun n =>
    let lanes := lanesAfter f.laneFailures n 0xFFFF
    if f.failedLooms.contains n || lanesLeft lanes < 8 then { LoomUnit.healthy with failed := true }
    else { LoomUnit.healthy with lanes := lanes }

/-- R33: the first pass: the dents of each quadrant onto its healthy Looms. -/
def mapFirst (healthy : Nat → List Nat) : List (Option Nat) := (List.range 64).map fun d => (healthy (d / 16))[d % 16]?

/-- R33: the second pass: each unmapped dent onto the lowest-numbered healthy unmapped Loom of q XOR 1, 2, 3. -/
def mapSecond (healthy : Nat → List Nat) (m : List (Option Nat)) (d : Nat) : List (Option Nat) :=
  if (m[d]?).join.isSome then m
  else
    let free := fun (q : Nat) => (healthy q).find? fun n => !m.contains (some n)
    m.set d ([d / 16 ^^^ 1, d / 16 ^^^ 2, d / 16 ^^^ 3].findSome? free)

/-- R33: the dent map over the healthy Looms. -/
def buildMap (looms : List LoomUnit) : List (Option Nat) :=
  let healthy := fun (q : Nat) => ((List.range 17).map (17 * q + ·)).filter fun n => (looms[n]?).any fun u => !u.failed
  (List.range 64).foldl (mapSecond healthy) (mapFirst healthy)

/-- R38: a cluster at a cold boot. -/
def bootCluster (f : BootFindings) (c : Nat) : Cluster :=
  let healthy := (List.range 17).filter fun p => !f.failedShuttles.contains (c, p)
  { shuttles := (List.range 17).map (fun p => { Shuttle.healthy with failed := !healthy.contains p }),
    spare := healthy.getLast?, programs := [], store := [] }

/-- R243, R249, R260, R563: the units of a cold boot, over the layout that it restores. -/
def bootUnits (f : BootFindings) (layout : DWord) : Units :=
  let looms := bootLooms f
  let dents := buildMap looms
  let present := f.populated &&& f.trained
  { looms := looms, dentMap := dents, home := dents,
    sysVaults := (List.range 68).filter (fun n => (looms[n]?).any (fun u => !u.failed) && !dents.contains (some n)),
    tags := List.replicate 64 none, clusters := (List.range 16).map (bootCluster f), populated := f.populated,
    present := present, density := if present == 0 then 0 else f.density,
    speedNow := BitVec.ofNat 4 (max (fld layout 27 24) f.bestSpeed), layout := layout, retrained := List.replicate 16 0,
    training := present, dqTrained := (List.range 16).map fun n => if present.getLsbD n then 1 else 0 }

/-- R330, R563 step 9: the host link at a reset, from the restored configuration. -/
def bootNet (live : Retained) (rate : Nat) (leader : Bool) : Net :=
  let rates := BitVec.ofNat 3 (fld live.netConfig 2 0)
  let terms := linkTerms live.netConfig rates (if rate ≤ 3 then BitVec.ofNat 2 rate else 0) leader
  { Net.fresh live.netConfig live.netAddr with rate := terms.1, leader := terms.2, advertised := rates }

/-- R336: what has left the host link stays sent over a reset, and what waited is gone. -/
def State.bootLink (s : State) (rate : Nat) (leader : Bool) : State :=
  { s with net := { bootNet s.live rate leader with handed := s.out.length, wire := s.net.wire } }

/-- R551: the clock counts at a cold boot, checkpointed before it goes on. -/
def State.bootClocks (s : State) : State :=
  let good := s.recorder.lifetime.slots.filter fun b => !slotBad b
  let minutes := (good.map fun b => le b 4 4).foldl max ((s.flash.checkpoint.map fun c => c.2.toNat).getD 0)
  let cycles := (good.map fun b => le b 8 4).foldl max ((s.flash.checkpoint.map fun c => c.1.toNat).getD 0)
  (s.mapRecorder fun r =>
    { r with minutes := BitVec.ofNat 32 minutes, cycles := BitVec.ofNat 32 (min (cycles + 1) (2 ^ 32 - 1)) }).checkpoint

/-- R574: what a cold boot ends: everything but flash, OTP, the recorder's slots and the settings. -/
def State.coldState (s : State) (straps : BitVec 6) : State :=
  { s with
    proto := .fresh, memory := .fresh, sched := .fresh, audio := .fresh, links := .fresh, pace := .fresh,
    power := { Power.fresh with straps := straps },
    bark := { s.bark with
      modelKeys := [], grants := [], sealedGrants := [], nextGrant := 1, install := none, trace := none },
    recorder := { s.recorder with
      windows := 0, lifetime := { s.recorder.lifetime with queue := [], lost := 0 },
      service := { s.recorder.service with queue := [], lost := 0 } } }

/-- R531, R571: the lane groups that a cold boot's self-test retires, recorded. -/
def State.recordLanes (s : State) (f : BootFindings) : State :=
  (f.laneFailures.filter fun p => p.1 < 68 && !(s.loom p.1).failed).foldl (fun s p =>
    s.lifetime 0x0042 0 p.1 0 (leBytes 1 p.2 ++ leBytes 1 (lanesLeft (s.loom p.1).lanes))) s

/-- R563 step 8: the governed voltage starts at the policy voltage, and VCORE moves to it. -/
def State.startVoltage (s : State) : State := (s.mapPower fun p => { p with governedMv := s.policyMv }).steerVcore

/-- R248: the domains of a cold boot: all but the PHYs of absent channels. -/
def bootDomains (present : BitVec 16) : BitVec 129 :=
  BitVec.ofNat 129 (maskOf 129 fun d => d < 84 || 100 ≤ d || present.getLsbD (d - 84))

/-- R563, R583: a cold boot, up to READY or the network boot. -/
def State.coldBoot (s : State) (f : BootFindings) : State :=
  let s := ((s.announceReset.coldState f.straps).emit (.railEn true)).emitAll (railOutputs .vcore 800 ++ statusReads)
  let s := s.bootClocks.bootRepair.restoreSettings
  let units := bootUnits f s.live.memLayout
  let s := { s.bootLink f.linkRate f.leader with
    units := units, power := { s.power with powered := bootDomains units.present } }
  ((s.formV6.recordLanes f).flushLate.bootFlash.startVoltage).advanceRollback

/-- COLD_BOOT. -/
def execColdBoot (f : BootFindings) (s : State) : Host.Outcome State Fault Refusal :=
  .next (if s.power.boot == .coldPending then s.coldBoot f else s)

/-! ### Warm resets (R572 to R574) -/

/-- R249, R574: what a warm reset ends. The comparison value and the spacing of EVENT_RATE_CHANGE start again (log 166, DESIGN
CHOICE); a domain that comes on starts as R50 and R303 state. -/
def State.warmState (s : State) : State :=
  let on := if s.power.state == .run && s.power.transition.isNone then s.power.powered
    else s.power.powered ||| s.power.wasOn
  let port := fun (q : Selvage × Nat) =>
    let p := if on.getLsbD (100 + q.2) && !s.power.powered.getLsbD (100 + q.2) then q.1.poweredOff.poweredOn else q.1
    { p.poweredOff with
      state := if p.state == .off then .off else .training, neighbour := p.neighbour, streams := [], scaleFaults := [],
      messages := [] }
  let counter := fun (c : PaceCounter) =>
    if on.getLsbD c.domain && !s.power.powered.getLsbD c.domain then c.restarted else c
  { s with
    proto := .fresh, audio := .fresh, sched := { Sched.fresh with models := s.sched.models },
    memory := { s.memory with blocks := [], lent := 0 },
    units := { s.units.retrainDq with
      tags := List.replicate 64 none, looms := s.units.looms.map (fun u => { u with halted := false }),
      clusters := s.units.clusters.map fun k =>
        { k with programs := [], store := [], shuttles := k.shuttles.map fun h => { h with batch := none, wavesSinceWrite := 0 } } },
    links := { s.links with bindings := [], ports := s.links.ports.zipIdx.map port },
    pace := { s.pace with reference := none, sinceEvent := none, counters := s.pace.counters.map counter },
    bark := { s.bark with grants := [], sealedGrants := [], install := none, trace := none },
    power := { s.power with
      state := .run, boot := .ready, transition := none, powered := on, latched := s.power.hostLatched, entryLatched := 0,
      requests := [], canopySelf := false, extSelf := false, stoppedIns := 0, stoppedOuts := 0 } }

/-- R36, R571: a Loom that a warm reset's self-test finds newly failed fails over as at run time; the manual gives its
record no mechanism (log 22). -/
def State.warmLoom (s : State) (n : Nat) : State :=
  if (s.loom n).failed || 68 ≤ n then s
  else { s with free := s.free + 1 }.retireLoom n (Config.freeNat s.free % 256) (recentFaults (s.loom n).faults s.recorder.minutes).length

/-- R571: a Shuttle that a warm reset finds newly failed; it serves no stream. -/
def State.warmShuttle (s : State) (cp : Nat × Nat) : State :=
  if (s.shuttle cp.1 cp.2).failed then s
  else
    let n := (recentFaults (s.shuttle cp.1 cp.2).faults s.recorder.minutes).length
    let s1 := s.mapShuttle cp.1 cp.2 fun h => { h with failed := true }
    ({ s1 with free := s.free + 1 }.lifetime 0x0040 1 (256 * cp.1 + cp.2) 0
      (leBytes 1 (Config.freeNat s.free % 256) ++ leBytes 1 n)).replaceShuttle cp.1 cp.2 []

/-- R531: a lane group that is newly failed, on a Loom that keeps its dent. -/
def State.warmLane (s : State) (p : Nat × Nat) : State :=
  if 68 ≤ p.1 || (s.loom p.1).failed || !(s.loom p.1).lanes.getLsbD p.2 then s else s.retireLane p.1 p.2

/-- R571: the Looms that a warm reset's self-test finds newly failed, those with fewer than 8 lane groups left among them. -/
def State.warmFailed (s : State) (f : WarmFindings) : List Nat :=
  (List.range 68).filter fun n =>
    f.failedLooms.contains n || lanesLeft (lanesAfter f.laneFailures n (s.loom n).lanes) < 8

/-- R571, R572 step 6: the self-test of a warm reset. -/
def State.warmTest (s : State) (f : WarmFindings) : State :=
  f.failedShuttles.foldl State.warmShuttle (f.laneFailures.foldl State.warmLane ((s.warmFailed f).foldl State.warmLoom s))

/-- R573: the copy of the image that the last boot placed runs when its digest matches; else the flash image. -/
def State.warmImage (s : State) : State :=
  match s.bark.imageCopy with
  | some c => if imageMatches s.bark.runManifest c then s else s.bootFlash
  | none => s.bootFlash

/-- R572: a warm reset, up to READY or the network boot. -/
def State.warmBoot (s : State) (f : WarmFindings) : State :=
  let s := s.announceReset.warmState.restoreSettings
  let s := s.bootLink f.linkRate f.leader
  ((s.formV6.warmTest f).flushLate.warmImage.steerVcore).advanceRollback

/-- WARM_RESET. -/
def execWarmReset (f : WarmFindings) (s : State) : Host.Outcome State Fault Refusal :=
  .next (if s.power.boot != .warmPending then s else if f.retentionOk then s.warmBoot f else s.retentionLost)

/-- R566: an image written in the network boot starts without a reset. -/
def State.leaveNetworkBoot (s : State) : State :=
  if s.power.boot == .networkBoot && s.flashFault.isNone then
    ((s.mapPower fun p => { p with boot := .ready }).runFlashImage.startVoltage).advanceRollback
  else s

/-! ### VAON and RESET_N (R582, R585) -/

/-- VAON_APPLIED. -/
def execVaonApplied (s : State) : Host.Outcome State Fault Refusal :=
  .next (if s.power.boot == .noSupply then s.mapPower fun p => { p with boot := .coldPending } else s)

/-- R556: a record's write that a loss of power cuts: some of its bytes are written, or none; the queues are lost. -/
def Recorder.powerLost (r : Recorder) (bitsWritten : Bool) (n : Nat) : Recorder :=
  let size := if r.lifetime.queue.isEmpty then 32 else 64
  let r := if bitsWritten then r.cutWrite (1 + n % (size - 4)) else r
  { r with lifetime := { r.lifetime with queue := [], lost := 0 }, service := { r.service with queue := [], lost := 0 },
           late := [] }

/-- VAON_REMOVED. -/
def execVaonRemoved (bitsWritten : Bool) (s : State) : Host.Outcome State Fault Refusal :=
  let writes := bitsWritten && s.started && s.domainOn 127
  let s1 := { s with free := s.free + 1 }.mapRecorder fun r => r.powerLost writes (Config.freeNat s.free)
  .next ((s1.mapPower fun p => { p with boot := .noSupply, transition := none }).emit (.railEn false))

/-- RESET_N_LOW. -/
def execResetNLow (heldUs : Nat) (s : State) : Host.Outcome State Fault Refusal :=
  if s.power.boot == .unpowered || s.power.boot == .noSupply || heldUs < 1 then .next s
  else if heldUs < 10 then .fault .undefinedResetPulse
  else .next (s.mapPower fun p => { p with boot := .heldInReset, transition := none })

/-- RESET_N_RELEASE. -/
def execResetNRelease (s : State) : Host.Outcome State Fault Refusal :=
  .next (if s.power.boot == .heldInReset then s.mapPower fun p => { p with boot := .coldPending } else s)

/-! ### The recorder and the operating minute (R504, R522, R550, R551, R555) -/

/-- RECORD_WRITE. -/
def execRecordWrite (s : State) : Host.Outcome State Fault Refusal :=
  .next (if s.started && s.domainOn 127 then s.mapRecorder Recorder.writeOne else s)

/-- R504: a failed entropy health test. -/
def execEntropyFailure (s : State) : Host.Outcome State Fault Refusal :=
  .next (if s.started && s.domainOn 113 then (s.lifetime 0x0005 0xFF 0 0 []).coldReset else s)

/-- R522, R550, R551: an operating minute: the count, a checkpoint when it reaches the last one's value, and the grants past
NOT_AFTER lapse. -/
def State.minute (s : State) : State :=
  let s := s.mapRecorder fun r => { r with minutes := satAdd r.minutes 1 }
  let due := s.flash.checkpoint.all fun c => c.2.toNat ≤ s.recorder.minutes.toNat
  let s := if due then s.checkpoint else s
  let live := s.bark.grants.filter fun g => s.recorder.minutes.toNat ≤ g.notAfter.toNat
  if live.length == s.bark.grants.length then s else s.keepGrants live

/-- OPERATING_MINUTE: not in Off, nor while VAON is absent. -/
def execOperatingMinute (s : State) : Host.Outcome State Fault Refusal :=
  .next (if s.started then s.minute else s)

end Sys2Proof.Machine
end

