-- ==== Sys2Proof/Machine/Egress.lean ====
section
/-!
DEFINITION. Egress of synthesis streams: RTP (R337 to R348), the change of a route (R346, R447), QUEUE_WAIT (R292), and
Tally's evaluations (R285 to R290, R406).
-/
namespace Sys2Proof.Machine

open Sys2Proof

/-! ### Payloads (R340) -/

/-- The 24-bit sample as an integer. -/
def sampleInt (v : BitVec 24) : Int := sext 24 v.toNat

/-- G.711: decision value n of the µ-law, in units of the 14-bit sample. -/
def muDecision (n : Nat) : Nat := 2 ^ (n / 16 + 1) * (16 + n % 16) - 33

/-- G.711: decision value n of the A-law, in units of the 13-bit sample. -/
def aDecision (n : Nat) : Nat := if n < 16 then 2 * n else 2 ^ (n / 16) * (16 + n % 16)

/-- G.711: the interval of a magnitude, 0 to 127; exactly on a decision value, either neighbour. -/
def g711Interval (mu : Bool) (m : Nat) : Nat :=
  let d := if mu then muDecision else aDecision
  let n := ((List.range 127).filter fun i => d (i + 1) ≤ m).length
  if n != 0 && d n == m && !Config.g711Tie mu n then n - 1 else n

/-- R340: the G.711 code of a sample's most significant bits. -/
def g711 (mu : Bool) (v : BitVec 24) : Byte :=
  let x := (sampleInt v).fdiv (if mu then 1024 else 2048)
  let neg := decide (x < 0) || (x == 0 && !Config.g711Tie mu 0)
  let n := g711Interval mu x.natAbs
  if mu then BitVec.ofNat 8 ((if neg then 127 else 255) - n)
  else BitVec.ofNat 8 ((if neg then 0 else 128) + n) ^^^ 0x55#8

/-- R340: the payload bytes of a sample. -/
def payloadOf (kind : Nat) (v : BitVec 24) : List Byte :=
  match kind with
  | 0 =>
    let q := roundInt 0 0 ((sampleInt v : Rat) / 256)
    beBytes 2 (min (max q (-32768)) 32767 % 65536).toNat
  | 1 => beBytes 3 v.toNat
  | 2 => [g711 false v]
  | _ => [g711 true v]

/-- R338: payload bytes of a sample. -/
def payloadBytes (kind : Nat) : Nat :=
  match kind with
  | 0 => 2
  | 1 => 3
  | _ => 1

/-! ### Routes (R346, R447) -/

/-- R337: the same destination. -/
def Dest.same (a b : Dest) : Bool := a.v6 == b.v6 && a.addr == b.addr && a.port == b.port

/-- R347: the destinations of a new route, those that stay keeping their DROPS (log 19); what waits in the queues stays counted
by its place. -/
def keepDrops (old new : List Dest) : List Dest :=
  new.zipIdx.map fun p =>
    let d := (old.find? fun o => o.same p.1).elim p.1 fun o => { p.1 with drops := o.drops }
    { d with queued := ((old[p.2]?).map (·.queued)).getD 0 }

/-- R343: a stream whose egress has not begun. -/
def Stream.idle (t : Stream) : Stream := { t with running := false, begun := false, inGap := false, onLocal := false }

/-- R346, R447: a route takes effect. A change of SSRC, or a first route, takes SEQ0 and TS0; a change of SOURCE, P or L
restarts egress. -/
def Stream.switch (t : Stream) (r : Egress) : Stream :=
  let t := { t with nextRoute := none }
  match r with
  | .none => { t.idle with egress := .none }
  | .reed p c => { t.idle with egress := .reed p c }
  | .rtp d =>
    match t.egress with
    | .rtp o =>
      let fresh := d.ssrc != o.ssrc || !t.begun
      let restart := d.source != o.source || d.pkt != o.pkt || rtpLevel t.rate d.playoutUs != rtpLevel t.rate o.playoutUs
      { t with
        egress := .rtp { d with dests := keepDrops o.dests d.dests },
        seqNow := if fresh then d.seq0 else t.seqNow, tsNow := if fresh then d.ts0 else t.tsNow,
        running := t.running && !restart, inGap := t.inGap && !restart }
    | _ => { t.idle with egress := .rtp d, seqNow := d.seq0, tsNow := d.ts0, marker := true }

/-- R346: an accepted route: at the next release instant while RTP egress runs, else at once. -/
def Stream.route (t : Stream) (r : Egress) : Stream :=
  if t.isRtp && t.running then { t with nextRoute := some r } else t.switch r

/-- R348: the egress that a stream has or is about to have. -/
def Stream.effective (t : Stream) : Egress := t.nextRoute.getD t.egress

/-! ### RTP egress (R343, R344, R347) -/

/-- R343: egress begins once the margin first reaches L, or the stream has ended with samples left. -/
def Stream.startEgress (t : Stream) : Stream :=
  if t.isRtp && !t.running && (t.level ≤ t.margin || (t.ctx.ended && 0 < t.margin)) then
    { t with running := true, begun := true }
  else t

/-- EGRESS_START. -/
def execEgressStart (stream : Word) (s : State) : Host.Outcome State Fault Refusal :=
  .next (if s.starting then s.mapStream stream Stream.startEgress else s)

/-- R347: a multicast address. -/
def Dest.multicast (d : Dest) : Bool := multicastAddr d.v6 d.addr

/-- R347: change a destination of a stream's RTP egress. -/
def State.mapDest (s : State) (id : Word) (i : Nat) (f : Dest → Dest) : State :=
  s.mapStream id fun t =>
    match t.egress with
    | .rtp r => { t with egress := .rtp { r with dests := r.dests.modify i f } }
    | _ => t

/-- R347, R348: one packet towards one destination: into its queue, or dropped while the link is down, the next hop is not
resolved, or the queue holds two. -/
def State.sendTo (s : State) (t : Stream) (d : Dest) (i : Nat) (pkt : Output) : State :=
  let reach := s.padsOpen 106 && s.hostLinkUp && d.queued < 2 && (d.multicast || Config.resolved s.free (s.nextHop d.v6 d.addr))
  let s := { s with free := s.free + 1 }
  if reach then (s.emit pkt).mapDest t.id i fun d => { d with queued := d.queued + 1 }
  else
    let s := s.mapDest t.id i fun d => { d with drops := satAdd d.drops 1 }
    if s.net.rate != 0 then s else { s with net := { s.net with droppedDown := s.net.droppedDown + 1 } }

/-- R339, R344: the next n samples leave as one packet to every destination. -/
def State.sendRtp (s : State) (t : Stream) (d : Rtp) (n : Nat) : State :=
  let payload := (t.samples.take n).flatMap (payloadOf d.payload)
  let s := d.dests.zipIdx.foldl (fun s p =>
    s.sendTo t p.1 p.2 (.rtp t.id p.2 t.marker t.seqNow t.tsNow d.ssrc d.pt payload
      ⟨d.dscp, d.srcPort, p.1.v6, ⟨p.1.addr, p.1.port⟩⟩)) s
  s.mapStream t.id fun t =>
    { t with samples := t.samples.drop n, taken := t.taken + n, marker := false, inGap := false, seqNow := t.seqNow + 1,
             tsNow := t.tsNow + BitVec.ofNat 32 n }

/-- R344: a release instant at which no packet leaves. -/
def Stream.skipRelease (t : Stream) (p : Nat) : Stream :=
  { t with
    tsNow := t.tsNow + BitVec.ofNat 32 p, inGap := true, marker := true,
    underruns := if t.inGap then t.underruns else satAdd t.underruns 1 }

/-- R342: ticks return to the named source at a packet boundary, once it is locked. -/
def State.sourceLocked (s : State) (source : Nat) : Bool :=
  if source == 0 then true
  else if source ≤ 4 then (nth s.audio.wclks (source - 1) .unlocked).locked
  else (nth s.audio.ins (source - 16) .stopped).locked

/-- R292: a job has started: for a member, it has joined its batch. -/
def Job.begun (j : Job) : Bool := if j.kind == .member then j.joined else j.started

/-- R292: a position of a job waits to start, waits for residence, is displaced or released. -/
def State.jobWaits (s : State) (j : Job) : Bool :=
  !j.ready && (!j.begun || s.sched.ctxs.any fun c => c.job == j.id && match c.place with
    | .resident _ _ => !c.admitted
    | _ => true)

/-- R292: a job that a stream's sample periods count for. -/
def State.countedFor (s : State) (id : Word) (j : Job) : Bool :=
  j.frameSink == id || (j.frameSink == 0 && j.tokenSink == id && j.tokenDev == s.deviceNo)

/-- R292: n sample periods of a stream's egress counted into QUEUE_WAIT. -/
def State.countWait (s : State) (id : Word) (n : Nat) : State :=
  let count := fun (j : Job) =>
    if s.countedFor id j && s.jobWaits j then { j with queueWait := satAdd j.queueWait n } else j
  { s with sched := { s.sched with jobs := s.sched.jobs.map count } }

/-- R344: a release instant. -/
def State.releaseOf (s : State) (t : Stream) (d : Rtp) : State :=
  if t.ctx.ended && t.margin < d.pkt then
    let s := if t.margin == 0 then s else s.sendRtp t d t.margin
    s.mapStream t.id fun t => { t with running := false, inGap := false }
  else if t.margin < d.pkt || (t.inGap && t.margin < t.level && !t.ctx.ended) then
    s.mapStream t.id fun t => t.skipRelease d.pkt
  else s.sendRtp t d d.pkt

/-- R342, R344, R346: a release instant, a new route taking effect first; what the link has sent by now has left its queues. -/
def State.releaseInstant (s : State) (id : Word) : State :=
  let s := s.linkCatchUp
  match s.stream? id with
  | none => s
  | some t =>
    if !t.isRtp || !t.running then s
    else
      let t' := (t.nextRoute.elim t t.switch)
      let s := s.mapStream id fun _ => t'
      match t'.egress with
      | .rtp d =>
        let s := s.countWait id d.pkt
        let s := if t'.onLocal && s.sourceLocked d.source then s.mapStream id fun t => { t with onLocal := false } else s
        match s.stream? id with
        | some t => if t.running then s.releaseOf t d else s
        | none => s
      | _ => s

/-- RELEASE_INSTANT. -/
def execReleaseInstant (stream : Word) (s : State) : Host.Outcome State Fault Refusal :=
  .next (if s.starting then s.releaseInstant stream else s)

/-! ### Tally (R285 to R290, R406) -/

/-- R221, R289, R401: the program that a stream runs now: in a cross-fade the one that it changes to. -/
def Stream.current (t : Stream) : Word := (t.companion.getD t.ctx).program

/-- R285: the threshold and urgent level in force. -/
def State.threshold (s : State) (t : Stream) : Option (Nat × Nat) :=
  match t.ownThreshold with
  | some x => some x
  | none => (fallbackFor s.live.table4 t.current).map fun p => (p.2.threshold, p.2.urgent)

/-- R292: the job that a fallback decision names: so counted, and running or, failing that, most recently started. -/
def State.decisionJob (s : State) (id : Word) : Option Job :=
  let started := sortDown (·.startedAt) (s.sched.jobs.filter fun j => s.countedFor id j && j.begun)
  (started.find? fun j => !j.ready).orElse fun _ => started.head?

/-- R406: the record of a decision. -/
def State.fallbackRecord (s : State) (t : Stream) (outcome mode threshold : Nat) (target : Word) : List Byte :=
  let j := s.decisionJob t.id
  beBytes 4 t.id.toNat ++ beBytes 1 t.client ++ beBytes 1 outcome ++ beBytes 1 mode ++ zeros 1
    ++ beBytes 4 (j.elim 0 fun j => j.id.toNat) ++ beBytes 4 (j.elim 0 fun j => j.queueWait.toNat)
    ++ beBytes 4 (j.elim 0 fun j => j.preempts.toNat) ++ beBytes 2 t.margin ++ beBytes 2 threshold
    ++ beBytes 4 t.current.toNat ++ beBytes 4 target.toNat

/-- R222: the Shuttle that a stream is on, or on its way to. -/
def Stream.home (t : Stream) : Nat × Nat := t.moveTo.getD (t.cluster, t.pos)

/-- R288, R222: where a stream can run a program: its own Shuttle, or another after a move; none when no Shuttle can. -/
def State.runsOn (s : State) (t : Stream) (program : Word) : Option (Nat × Nat) :=
  if s.freeOn t.home.1 t.home.2 (s.loadOf t.rate program) program t.id != 0 then some t.home
  else s.placeStream t.rate program t.id fun _ _ => true

/-- R288, R289: a change that a stream is to make, with the move that it needs. -/
def Stream.await (t : Stream) (c : Change) (dest : Nat × Nat) : Stream :=
  let moves := dest != t.home
  { t with change := some { c with moving := moves || t.moveTo.isSome }, moveTo := if moves then some dest else t.moveTo }

/-- R288: a decision: its outcome, and EVENT_FALLBACK. -/
def State.tallyDecision (s : State) (t : Stream) (threshold urgent : Nat) : State :=
  let send := fun (s : State) (r : List Byte) => s.event .fallback .ok t.id 0 r
  let refuse := fun (code mode : Nat) (target : Word) =>
    send (s.mapStream t.id fun t => { t with decided := true }) (s.fallbackRecord t code mode threshold target)
  match fallbackFor s.live.table4 t.current with
  | none => refuse 2 0 0
  | some (e, f) =>
    let mode := if f.mode == 1 || t.margin < urgent then 1 else 0
    let alike := match s.programOf t.current, s.programOf f.fallback with
      | some p, some q => p.condLen == q.condLen && p.condFmt == q.condFmt
      | _, _ => false
    match if alike then s.runsOn t f.fallback else none with
    | none => refuse 3 mode f.fallback
    | some dest =>
      let r := s.fallbackRecord t 0 mode threshold f.fallback
      let s := s.mapStream t.id fun t =>
        t.await { program := f.fallback, atMark := mode == 0, entry := some e, record := r, moving := false } dest
      send (s.mapAccount t.client fun (a, b, c, d, n) => (a, b, c, d, satAdd n 1)) r

/-- R285, R288, R289: one evaluation of a stream whose buffer has reached its level once. -/
def State.evaluate (s : State) (t : Stream) : State :=
  match s.threshold t with
  | none => if t.hold == 0 then s else s.mapStream t.id fun t => { t with hold := t.hold - 1 }
  | some (threshold, urgent) =>
    if t.change.isSome then
      if t.margin < urgent && t.change.any (·.entry.isSome) then
        s.mapStream t.id fun t => { t with change := t.change.map fun c => { c with atMark := false } }
      else s
    else if 0 < t.hold then s.mapStream t.id fun t => { t with hold := t.hold - 1 }
    else if threshold ≤ t.margin then s.mapStream t.id fun t => { t with decided := false }
    else if t.decided then s
    else s.tallyDecision t threshold urgent

/-- R285: Tally's reading of a stream. -/
def State.tallyReading (s : State) (id : Word) : State :=
  match s.stream? id with
  | none => s
  | some t =>
    match t.egress with
    | .none => s
    | _ => if t.atLevel || t.level ≤ t.margin then s.evaluate t else s

/-- TALLY_EVALUATION. -/
def execTallyEvaluation (stream : Word) (s : State) : Host.Outcome State Fault Refusal :=
  .next (if s.starting then s.tallyReading stream else s)

end Sys2Proof.Machine
end

