-- ==== Sys2Proof/Machine/Streams.lean ====
section
/-!
DEFINITION. The commands of group 0x03 (R394 to R401), with the route checks of R338, R348, R399 and R447.
-/
namespace Sys2Proof.Machine

open Sys2Proof

/-! ### Objects -/

/-- R414, R394: the synthesis stream that a command names; WRONG_STATE for an ingress stream. -/
def State.withStream (s : State) (h : Hdr) (k : Stream → Answer) : Answer :=
  match s.stream? h.context with
  | some t => k t
  | none => if (s.ingress? h.context).isSome then failWith .wrongState s else failWith .noContext s

/-- A stream id that is free (R394). -/
def State.freshStream (s : State) : Word :=
  (((List.range 8258).map fun i => s.audio.nextStream + BitVec.ofNat 32 i).find? fun id =>
    id != 0 && (s.stream? id).isNone && (s.ingress? id).isNone).getD s.audio.nextStream

/-! ### STREAM_OPEN -/

/-- R222: the rates of a stream. -/
def streamRate (hz : Nat) : Bool := [8000, 16000, 22050, 24000, 32000, 44100, 48000].contains hz

/-- R256: the lowest free frame port. -/
def State.freeFramePort (s : State) : Nat :=
  ((List.range 16384).find? fun k => !(s.audio.streams.any fun t => t.port == k)).getD 0

/-- R209, R210: a context at STREAM_OPEN. -/
def ShuttleCtx.opened (program : Word) (key : List Byte) (words : List Word) : ShuttleCtx :=
  { program := program, inFrame := false, ended := false, done := 0, step := 0, key := key, arithFlags := 0, nextSeq := 0,
    badFrames := 0, dupFrames := 0, moves := 0, frame := zeros 1024, words := words }

/-- R394: a stream at STREAM_OPEN. -/
def Stream.opened (id : Word) (x : ShuttleCtx) : Stream :=
  { id := id, rate := 48000, openProgram := x.program, deck := 0, client := 0, share := 0, feedAddr := 0, cluster := 0,
    pos := 0, slot := none, moving := false, absent := false, moveTo := none, saveVault := 0, saveBlock := 0, port := 0,
    ctx := x, saved := x, companion := none, companionSlot := none, savedCompanion := none, fadeStep := 0, unfaded := false,
    fadeOld := none, ring := [], committed := [], topSeq := none, inbox := [],
    samples := [], taken := 0, feed := [], phrases := [], nextPhrase := 0, runningPhrase := none, eos := false,
    feedDrops := 0, egress := .none, running := false, marker := true, begun := false, atLevel := false, seqNow := 0, tsNow := 0,
    inGap := false, onLocal := false, underruns := 0, sourceLoss := 0, nextRoute := none, ownThreshold := none, hold := 0,
    decided := false, change := none, redo := none, again := none, viaEntry := none }

/-- R394, R251: FEED_ADDR: an aligned dent-window address for a stream with an acoustic deck, else zero. -/
def feedAddrOk (deck addr : Nat) : Bool :=
  if deck == 0 then addr == 0
  else addr % 64 == 0 && match windowOf addr with
    | some (.dent, _) => true
    | _ => false

/-- R394: STREAM_OPEN. -/
def streamOpenBody (ps : List Byte) (s : State) : Answer :=
  let f := be ps
  let program : Word := BitVec.ofNat 32 (f 4 4)
  if ps.length != 56 then badLength s
  else
    match firstBad [(0, streamRate (f 0 4)), (4, (s.program? program).isSome), (13, f 13 1 ≤ 1),
        (16, feedAddrOk (f 8 4) (f 16 8)), (24, f 13 1 == 1 || zeroAt ps 24 32)] with
    | some off => badParam off s
    | none =>
      if f 8 4 != 0 && (s.deck? (f 8 4)).isNone then failWith .noContext s
      else if s.phase == 1 || s.phase == 3 then failWith .wrongState s
      else if 8192 ≤ s.audio.streams.length then failWith .limit s
      else
        match s.placeStream (f 0 4) program 0 (fun _ _ => true) with
        | none => failWith .noContext s
        | some (c, p) =>
          let id := s.freshStream
          match s.allocSave (c / 4) 1 with
          | none => failWith .noSpace s
          | some ((v, b), s) =>
            let (key, s) := if f 13 1 == 1 then (slice ps 24 32, s) else s.drawKey
            let port := s.freeFramePort
            let slot := s.freeSlot c p
            let base := Stream.opened id (ShuttleCtx.opened program key (s.initOf program))
            let t := { base with
              rate := f 0 4, deck := f 8 4, client := f 12 1, share := f 14 2, feedAddr := f 16 8, cluster := c, pos := p,
              slot := slot, absent := slot.isNone, saveVault := v, saveBlock := b, port := port }
            let s := { s with audio := { s.audio with streams := s.audio.streams ++ [t], nextStream := id + 1 } }
            { ok (beBytes 1 c ++ beBytes 1 p ++ zeros 2 ++ beBytes 2 port ++ beBytes 1 v ++ zeros 1
                ++ beBytes 8 (frameAddr port)) s with context := some id }

/-- STREAM_OPEN. -/
def execStreamOpen (h : Hdr) (ps : List Byte) (s : State) : Host.Outcome State Fault Refusal :=
  .next (s.command (.streamOpen h ps) 0x0301 h ps false streamOpenBody)

/-! ### STREAM_FEED, STREAM_MARK, STREAM_CLOSE -/

/-- R395: STREAM_FEED. -/
def streamFeedBody (h : Hdr) (ps : List Byte) (s : State) : Answer :=
  let n := be ps 0 2
  if ps.length < 4 || ps.length != 4 + 4 * n then badLength s
  else
    match firstBad [(0, 1 ≤ n && n ≤ 2232), (2, zeroAt ps 2 2)] with
    | some off => badParam off s
    | none =>
      s.withStream h fun t =>
        if t.eos then failWith .wrongState s
        else if 65536 < t.feed.length + n then failWith .noSpace s
        else
          let tokens := (List.range n).map fun i => (BitVec.ofNat 32 (be ps (4 + 4 * i) 4) : Word)
          ok (beBytes 4 (t.feed.length + n)) (s.mapStream t.id fun t => { t with feed := t.feed ++ tokens })

/-- STREAM_FEED. -/
def execStreamFeed (h : Hdr) (ps : List Byte) (s : State) : Host.Outcome State Fault Refusal :=
  .next (s.command (.streamFeed h ps) 0x0302 h ps false (streamFeedBody h))

/-- R396: the queued tokens closed into a phrase; a stream with no acoustic deck discards it. -/
def Stream.closePhrase (t : Stream) (last : Bool) : Stream :=
  { t with
    feed := [], nextPhrase := t.nextPhrase + 1, eos := t.eos || last,
    phrases := if t.deck == 0 then t.phrases else t.phrases ++ [⟨t.nextPhrase, t.feed, last⟩] }

/-- R396: STREAM_MARK, of either kind. -/
def streamMarkBody (h : Hdr) (ps : List Byte) (s : State) : Answer :=
  if ps.length != 4 then badLength s
  else
    match firstBad [(0, be ps 0 1 ≤ 1), (1, zeroAt ps 1 3)] with
    | some off => badParam off s
    | none =>
      s.withStream h fun t =>
        let last := be ps 0 1 == 1
        if t.eos then failWith .wrongState s
        else if !last && t.feed.isEmpty then ok (beBytes 4 0xFFFFFFFF) s
        else if 64 ≤ t.phrases.length then failWith .limit s
        else ok (beBytes 4 t.nextPhrase.toNat) (s.mapStream t.id fun t => t.closePhrase last)

/-- STREAM_MARK, KIND 0. -/
def execStreamMarkPhrase (h : Hdr) (ps : List Byte) (s : State) : Host.Outcome State Fault Refusal :=
  .next (s.command (.streamMarkPhrase h ps) 0x0303 h ps false (streamMarkBody h))

/-- STREAM_MARK, KIND 1. -/
def execStreamMarkEnd (h : Hdr) (ps : List Byte) (s : State) : Host.Outcome State Fault Refusal :=
  .next (s.command (.streamMarkEnd h ps) 0x0303 h ps false (streamMarkBody h))

/-- R398: STREAM_CLOSE. -/
def streamCloseBody (h : Hdr) (ps : List Byte) (s : State) : Answer :=
  if !ps.isEmpty then badLength s else s.withStream h fun t => ok [] (s.closeStream t.id)

/-- STREAM_CLOSE. -/
def execStreamClose (h : Hdr) (ps : List Byte) (s : State) : Host.Outcome State Fault Refusal :=
  .next (s.command (.streamClose h ps) 0x0304 h ps false (streamCloseBody h))

/-! ### STREAM_ROUTE -/

/-- R332: IPV4_UP. -/
def State.ipv4Up (s : State) : Bool := s.net.addr.getD 4 0 != 0 || s.net.lease.isSome

/-- R332: IPV6_UP. -/
def State.ipv6Up (s : State) : Bool := !s.net.ipv6.isEmpty

/-- R338: whether a measured rate, in 0.01 Hz, is an integer multiple from 1 to 24 of a stream's rate, within 1,000 ppm
(log 18). -/
def multipleOf (measured rate : Nat) : Bool :=
  (List.range 24).any fun i =>
    let want := (i + 1) * rate * 100
    want * 999 ≤ measured * 1000 && measured * 1000 ≤ want * 1001

/-- R338, R341: the rate of SOURCE suits a stream: an AIN's RATE where it names one, else the measured rate. -/
def State.sourceOk (s : State) (source rate : Nat) : Bool :=
  if source == 0 then true
  else if source ≤ 4 then multipleOf (nth s.audio.wclks (source - 1) .unlocked).measRate.toNat rate
  else
    match rateOf (fld (s.reedConfig (source - 16)) 27 24) with
    | some r => r % rate == 0 && 1 ≤ r / rate && r / rate ≤ 24
    | none => multipleOf (s.reed (source - 16)).measRate.toNat rate

/-- R399: destination i of the parameters. -/
def destAt (ps : List Byte) (i : Nat) : Dest :=
  let o := 28 + 20 * i
  let v6 := be ps o 1 == 6
  { v6 := v6, addr := slice ps (o + 4) (if v6 then 16 else 4), port := be ps (o + 2) 2, drops := 0, queued := 0 }

/-- R337, R399: the descriptor of the parameters. -/
def rtpOf (ps : List Byte) : Rtp :=
  let f := be ps
  { payload := f 4 1, pt := f 5 1, ssrc := BitVec.ofNat 32 (f 8 4), seq0 := BitVec.ofNat 16 (f 12 2),
    ts0 := BitVec.ofNat 32 (f 16 4), pkt := f 14 2, playoutUs := f 20 4, source := f 7 1, dscp := f 24 1, srcPort := f 26 2,
    dests := (List.range (f 6 1)).map (destAt ps) }

/-- IP header bytes of a destination. -/
def Dest.ipBytes (d : Dest) : Nat := if d.v6 then 40 else 20

/-- R337, R338: the checks of an RTP route, in the order of the fields. -/
def State.rtpChecks (s : State) (t : Stream) (ps : List Byte) : List (Nat × Bool) :=
  let d := rtpOf ps
  let mtu := fld s.net.config 47 34
  let size := fun (e : Dest) => 12 + d.pkt * payloadBytes d.payload + 8 + e.ipBytes
  [(4, d.payload ≤ 3 && (d.payload < 2 || t.rate == 8000)), (5, d.pt ≤ 127), (6, 1 ≤ d.dests.length && d.dests.length ≤ 8),
   (7, (d.source ≤ 4 || (16 ≤ d.source && d.source ≤ 31)) && s.sourceOk d.source t.rate),
   (14, 8 ≤ d.pkt && d.pkt ≤ 1920 && d.dests.all fun e => size e ≤ mtu),
   (20, 1000 ≤ d.playoutUs && d.playoutUs ≤ 100000 && rtpLevel t.rate d.playoutUs + 2 * d.pkt ≤ 8192), (24, d.dscp ≤ 63),
   (25, zeroAt ps 25 1), (26, 1 ≤ d.srcPort)]
  ++ (d.dests.zipIdx.flatMap fun p =>
    let o := 28 + 20 * p.2
    [(o, be ps o 1 == 4 || be ps o 1 == 6), (o + 1, zeroAt ps (o + 1) 1),
     (o + 4, (p.1.v6 || zeroAt ps (o + 8) 12) && (if p.1.v6 then s.ipv6Up else s.ipv4Up))])

/-- R348: the egress load of a descriptor at a rate, in bits per second. -/
def State.rtpLoad (s : State) (rate : Nat) (d : Rtp) : Rat :=
  let wire := fun (e : Dest) => 20 + 18 + (if fld s.net.config 33 22 == 0 then 0 else 4)
    + (if fld s.net.config 15 14 == 0 then 0 else 32) + e.ipBytes + 8 + 12 + d.pkt * payloadBytes d.payload
  let bytes : Nat := (d.dests.map wire).foldl (· + ·) 0
  (rate * bytes * 8 : Nat) / (d.pkt : Rat)

/-- R348: the egress load of the device, but for one stream. -/
def State.otherLoad (s : State) (self : Word) : Rat :=
  ((s.audio.streams.filter fun t => t.id != self).map fun t =>
    match t.effective with
    | .rtp d => s.rtpLoad t.rate d
    | _ => 0).foldl (· + ·) 0

/-- R332: RATE_NOW in bits per second. -/
def rateBits (r : BitVec 2) : Nat :=
  match r.toNat with
  | 0 => 0
  | 1 => 2500000000
  | 2 => 5000000000
  | _ => 10000000000

/-- R338, R348, R447: the egress that a STREAM_ROUTE asks for, or its refusal. -/
def State.routeAsked (s : State) (t : Stream) (ps : List Byte) : Except Answer (Option Egress) :=
  match be ps 0 1 with
  | 1 =>
    match firstBad (s.rtpChecks t ps) with
    | some off => .error (badParam off s)
    | none =>
      let d := rtpOf ps
      if (rateBits s.net.rate * 95 : Nat) < (s.otherLoad t.id + s.rtpLoad t.rate d) * 100 then .error (failWith .limit s)
      else .ok (some (.rtp d))
  | 2 =>
    let port := be ps 4 1; let ch := be ps 5 1; let n := port - 16
    let cfg := s.reedConfig port
    match firstBad [(4, 16 ≤ port && port < 32 && rateOf (fld cfg 27 24) == some t.rate), (5, ch ≤ 1), (6, zeroAt ps 6 22)] with
    | some off => .error (badParam off s)
    | none =>
      let taken := s.audio.streams.any fun o => o.id != t.id && (o.effective == .reed n ch || o.egress == .reed n ch)
      if taken then .error (failWith .busy s)
      else if !s.domainOn (reedDomain port) then .error (failWith .wrongState s)
      else .ok (some (.reed n ch))
  | k => if zeroAt ps 4 24 then .ok (if k == 3 then some .none else none) else .error (badParam 4 s)

/-- R399, R222: the Shuttle that a move asks for: none where it asks for none. -/
def State.moveAsked (s : State) (t : Stream) (ps : List Byte) : Except Answer (Option (Nat × Nat)) :=
  if t.moveTo.isSome || t.moving || t.absent then .error (failWith .wrongState s)
  else if be ps 1 1 == 0 then .ok none
  else
    let c := be ps 2 1; let p := be ps 3 1
    match s.placeStream t.rate t.ctx.program t.id fun a b => (c == 0xFF || a == c) && (p == 0xFF || b == p) with
    | none => .error (failWith .noContext s)
    | some d => .ok (if d == (t.cluster, t.pos) then none else some d)

/-- R399: STREAM_ROUTE. -/
def streamRouteBody (h : Hdr) (ps : List Byte) (s : State) : Answer :=
  let f := be ps
  if ps.length < 28 || ps.length != 28 + (if f 0 1 == 1 then 20 * f 6 1 else 0) then badLength s
  else
    match firstBad [(0, f 0 1 ≤ 3), (1, f 1 1 ≤ 1), (2, f 2 1 ≤ 15 || f 2 1 == 0xFF),
        (3, f 3 1 ≤ 16 || f 3 1 == 0xFF)] with
    | some off => badParam off s
    | none =>
      s.withStream h fun t =>
        match s.routeAsked t ps, s.moveAsked t ps with
        | .error a, _ => a
        | _, .error a => a
        | .ok r, .ok d =>
          ok [] (s.mapStream t.id fun t =>
            let t := r.elim t t.route
            d.elim t fun d => { t with moveTo := some d })

/-- STREAM_ROUTE. -/
def execStreamRoute (h : Hdr) (ps : List Byte) (s : State) : Host.Outcome State Fault Refusal :=
  .next (s.command (.streamRoute h ps) 0x0305 h ps false (streamRouteBody h))

/-! ### STREAM_FALLBACK_SET -/

/-- R400: STREAM_FALLBACK_SET, in all its forms. -/
def streamFallbackBody (h : Hdr) (ps : List Byte) (s : State) : Answer :=
  let flags := be ps 0 1; let th := be ps 2 2; let ur := be ps 4 2
  let set := bitOf flags 0; let clear := bitOf flags 1; let back := bitOf flags 2
  if ps.length != 6 then badLength s
  else
    match firstBad [(0, flags < 8 && !(set && clear)), (1, zeroAt ps 1 1), (2, !set || (1 ≤ th && th ≤ 8191)),
        (4, !set || ur < th)] with
    | some off => badParam off s
    | none =>
      s.withStream h fun t =>
        if back && t.current == t.openProgram then failWith .wrongState s
        else
          let dest := if back then (s.runsOn t t.openProgram).getD t.home else t.home
          ok [] (s.mapStream t.id fun t =>
            let t := if set then { t with ownThreshold := some (th, ur) } else if clear then { t with ownThreshold := none } else t
            if back then t.await ⟨t.openProgram, true, none, [], false⟩ dest else t)

/-- STREAM_FALLBACK_SET with FLAGS[0]. -/
def execStreamFallbackThreshold (h : Hdr) (ps : List Byte) (s : State) : Host.Outcome State Fault Refusal :=
  .next (s.command (.streamFallbackThreshold h ps) 0x0306 h ps false (streamFallbackBody h))

/-- STREAM_FALLBACK_SET with FLAGS[1]. -/
def execStreamFallbackClear (h : Hdr) (ps : List Byte) (s : State) : Host.Outcome State Fault Refusal :=
  .next (s.command (.streamFallbackClear h ps) 0x0306 h ps false (streamFallbackBody h))

/-- STREAM_FALLBACK_SET with FLAGS[2]. -/
def execStreamFallbackReturn (h : Hdr) (ps : List Byte) (s : State) : Host.Outcome State Fault Refusal :=
  .next (s.command (.streamFallbackReturn h ps) 0x0306 h ps false (streamFallbackBody h))

/-! ### STREAM_STATUS -/

/-- R337: the destinations of an RTP egress. -/
def Stream.dests (t : Stream) : List Dest :=
  match t.egress with
  | .rtp d => d.dests
  | _ => []

/-- R401: FLAGS. -/
def Stream.statusFlags (t : Stream) : Nat :=
  (if t.ctx.ended then 1 else 0) + (if t.current != t.openProgram then 2 else 0) + (if t.unfaded then 4 else 0)
    + (if t.moving || t.absent || t.moveTo.isSome then 8 else 0) + (if t.eos then 16 else 0)

/-- R401: the record, with DROPS. -/
def Stream.statusRecord (t : Stream) : List Byte :=
  beBytes 4 t.id.toNat ++ beBytes 4 t.current.toNat ++ beBytes 1 t.statusFlags ++ beBytes 1 t.cluster ++ beBytes 1 t.pos
    ++ beBytes 1 t.dests.length ++ beBytes 8 t.ctx.step.toNat ++ beBytes 4 t.ctx.arithFlags.toNat
    ++ beBytes 4 t.ctx.nextSeq.toNat ++ beBytes 4 t.ctx.badFrames.toNat ++ beBytes 4 t.ctx.dupFrames.toNat
    ++ beBytes 4 t.ctx.moves.toNat
    ++ beBytes 2 t.margin ++ beBytes 1 t.saveVault ++ zeros 1 ++ beBytes 4 t.underruns.toNat ++ beBytes 4 t.sourceLoss.toNat
    ++ beBytes 4 t.feed.length ++ beBytes 4 t.feedDrops.toNat
    ++ beBytes 4 (t.phrases.length + if t.runningPhrase.isSome then 1 else 0)
    ++ t.dests.flatMap fun d => beBytes 4 d.drops.toNat

/-- R401: STREAM_STATUS. -/
def streamStatusBody (h : Hdr) (ps : List Byte) (s : State) : Answer :=
  if !ps.isEmpty then badLength s else s.withStream h fun t => ok t.statusRecord s

/-- STREAM_STATUS. -/
def execStreamStatus (h : Hdr) (ps : List Byte) (s : State) : Host.Outcome State Fault Refusal :=
  .next (s.command (.streamStatus h ps) 0x0307 h ps false (streamStatusBody h))

end Sys2Proof.Machine
end

