-- ==== Sys2Proof/Machine/Reed.lean ====
section
/-!
DEFINITION. The commands of group 0x04 (R409 to R413) and the Reed ports' events (R440 to R457).
-/
namespace Sys2Proof.Machine

open Sys2Proof

/-! ### PORT_CONFIG -/

/-- R409: a number of a Reed port. -/
def reedPort (n : Nat) : Bool := n < 32

/-- R410: the record that PORT_CONFIG names, as it is held. -/
def State.portRecord (s : State) (port record : Nat) : List Byte :=
  if record == 1 then s.live.netAddr
  else if port == 0x40 then beBytes 8 s.live.netConfig.toNat
  else beBytes 8 (s.reedConfig port).toNat

/-- R410: bytes of a record. -/
def recordBytes (record : Nat) : Nat := if record == 1 then 64 else 8

/-- R330, R331, R411: whether a record may be written. -/
def State.recordOk (s : State) (port record : Nat) (b : List Byte) : Bool :=
  if record == 1 then netAddrOk b
  else if port == 0x40 then netConfigOk (BitVec.ofNat 64 (beNat b))
  else reedConfigOk (16 ≤ port) s.live.table6 (BitVec.ofNat 64 (beNat b))

/-- R410: a record written; NET_CONFIG and NET_ADDR take effect at the next reset, a Reed port's at once. -/
def State.setRecord (s : State) (port record : Nat) (b : List Byte) : State :=
  let v : DWord := BitVec.ofNat 64 (beNat b)
  if record == 1 then { s with live := { s.live with netAddr := b } }
  else if port == 0x40 then { s with live := { s.live with netConfig := v } }
  else if port < 16 then { s with live := { s.live with reedIn := s.live.reedIn.set port v } }
  else { s with live := { s.live with reedOut := s.live.reedOut.set (port - 16) v } }

/-- R410: PORT_CONFIG, of either form. -/
def portConfigBody (ps : List Byte) (s : State) : Answer :=
  let port := be ps 0 1; let op := be ps 1 1; let record := be ps 2 1
  if ps.length < 4 || ps.length != 4 + (if op == 0 then recordBytes record else 0) then badLength s
  else
    match firstBad [(0, reedPort port || port == 0x40), (1, op ≤ 1), (2, record == 0 || (record == 1 && port == 0x40)),
        (3, zeroAt ps 3 1), (4, op == 1 || s.recordOk port record (ps.drop 4))] with
    | some off => badParam off s
    | none =>
      if op == 0 && reedPort port && (s.reed port).running then failWith .busy s
      else
        let s := if op == 0 then s.setRecord port record (ps.drop 4) else s
        ok (ps.take 4 ++ s.portRecord port record) s

/-- PORT_CONFIG, OP 0. -/
def execPortConfigWrite (h : Hdr) (ps : List Byte) (s : State) : Host.Outcome State Fault Refusal :=
  .next (s.command (.portConfigWrite h ps) 0x0401 h ps false portConfigBody)

/-- PORT_CONFIG, OP 1. -/
def execPortConfigRead (h : Hdr) (ps : List Byte) (s : State) : Host.Outcome State Fault Refusal :=
  .next (s.command (.portConfigRead h ps) 0x0401 h ps false portConfigBody)

/-! ### PORT_START, PORT_STOP -/

/-- R412: PORT_START. -/
def portStartBody (ps : List Byte) (s : State) : Answer :=
  if ps.length != 4 then badLength s
  else if be ps 0 4 == 0 then badParam 0 s
  else
    let named := portsOf (be ps 0 4)
    let refuses := fun (c : Nat) => (s.reed c).running || (16 ≤ c && s.reedClock c == 0) || !s.domainOn (reedDomain c)
    if named.any refuses then failWith .wrongState s
    else
      let s := s.startPorts named
      ok [] (named.foldl (fun s' c => s'.mapReed c fun p => { p with clockOk := 16 ≤ c && s.clockUsable c }) s)

/-- PORT_START. -/
def execPortStart (h : Hdr) (ps : List Byte) (s : State) : Host.Outcome State Fault Refusal :=
  .next (s.command (.portStart h ps) 0x0402 h ps false portStartBody)

/-- R441, R446: LOCKED of a Reed port. -/
def State.portLocked (s : State) (code : Nat) : Bool := if code < 16 then (s.reed code).locked else s.clockUsable code

/-- R455: a port stops at its next frame tick; one without ticks, or that has sent or delivered nothing yet, stops at once
(log 25). -/
def State.stopPort (s : State) (code : Nat) : State :=
  let p := s.reed code
  if !p.running then s
  else if p.started && s.portLocked code then s.mapReed code fun p => { p with stopping := true }
  else s.mapReed code ReedPort.stop

/-- R412, R455: PORT_STOP. -/
def portStopBody (ps : List Byte) (s : State) : Answer :=
  if ps.length != 4 then badLength s
  else if be ps 0 4 == 0 then badParam 0 s
  else ok [] ((portsOf (be ps 0 4)).foldl State.stopPort s)

/-- PORT_STOP. -/
def execPortStop (h : Hdr) (ps : List Byte) (s : State) : Host.Outcome State Fault Refusal :=
  .next (s.command (.portStop h ps) 0x0403 h ps false portStopBody)

/-! ### PORT_STATUS -/

/-- R332: the record of the host link. -/
def State.linkRecord (s : State) : List Byte :=
  let n := s.net
  let bit := fun (b : Bool) (i : Nat) => if b then 2 ^ i else 0
  beBytes 4 n.rxFull.toNat ++ beBytes 4 n.rxDiscard.toNat ++ beBytes 2 n.macsecFail.toNat ++ beBytes 2 n.linkDowns.toNat
    ++ beBytes 4 (n.rate.toNat * 2 ^ 22 + bit n.leader 21 + bit n.lpi 20 + bit n.secured 19 + bit s.ipv4Up 18
      + bit s.ipv6Up 17)

/-- R413: the record of a Reed port. -/
def State.reedRecord (s : State) (code : Nat) : List Byte :=
  let p := s.reed code
  let rate := if code < 16 then p.measRate.toNat
    else
      let c := s.reedClock code
      if 16 ≤ c then (s.reed (c - 16)).measRate.toNat
      else if c == 0 then 0 else (nth s.audio.wclks (c - 1) .unlocked).measRate.toNat
  beBytes 4 p.repeats.toNat ++ beBytes 4 p.drops.toNat ++ beBytes 2 p.frameErrors.toNat
    ++ beBytes 6 (p.lockLosses.toNat * 2 ^ 40 + (if p.running then 2 ^ 34 else 0) + (if s.portLocked code then 2 ^ 33 else 0)
      + rate)

/-- R413, R445: the record of a WCLK port. R445 says that its LOCK_LOSSES shows the state; R413 that it reads zero: it reads
zero here (log 26). -/
def Wclk.record (w : Wclk) : List Byte := zeros 10 ++ beBytes 6 ((if w.locked then 2 ^ 33 else 0) + w.measRate.toNat)

/-- R413: PORT_STATUS. -/
def portStatusBody (ps : List Byte) (s : State) : Answer :=
  let port := be ps 0 1
  if ps.length != 4 then badLength s
  else
    match firstBad [(0, reedPort port || (0x20 ≤ port && port ≤ 0x23) || port == 0x40), (1, zeroAt ps 1 3)] with
    | some off => badParam off s
    | none =>
      if port == 0x40 then ok s.linkRecord s
      else if reedPort port then ok (s.reedRecord port) s
      else ok (nth s.audio.wclks (port - 0x20) .unlocked).record s

/-- PORT_STATUS. -/
def execPortStatus (h : Hdr) (ps : List Byte) (s : State) : Host.Outcome State Fault Refusal :=
  .next (s.command (.portStatus h ps) 0x0404 h ps false portStatusBody)

/-! ### Locks (R441, R445, R342) -/

/-- R475: Reed inputs and the carding pipeline run in Run and in Idle. -/
def State.audioRuns (s : State) : Bool := s.power.boot == .ready && (s.power.state == .run || s.power.state == .idle)

/-- R441: an input locks. -/
def State.lockInput (s : State) (n : Nat) : State :=
  if 16 ≤ n || !s.padsOpen (reedDomain n) || (s.reed n).locked then s
  else s.mapReed n fun p => { p with locked := true, measRate := 0, wholeWindow := false }

/-- REED_INPUT_LOCK. -/
def execReedInputLock (n : Nat) (s : State) : Host.Outcome State Fault Refusal :=
  .next (if s.audioRuns then s.lockInput n else s)

/-- REED_INPUT_LOCK_LOSS. -/
def execReedInputLockLoss (n : Nat) (s : State) : Host.Outcome State Fault Refusal :=
  .next (if s.audioRuns then s.unlockInput n else s)

/-- Change a word clock. -/
def State.mapWclk (s : State) (n : Nat) (f : Wclk → Wclk) : State :=
  { s with audio := { s.audio with wclks := s.audio.wclks.modify n f } }

/-- WCLK_LOCK (R445). -/
def execWclkLock (n : Nat) (s : State) : Host.Outcome State Fault Refusal :=
  .next (if s.audioRuns then
    s.mapWclk n fun w => if w.locked then w else { w with locked := true, measRate := 0, wholeWindow := false }
  else s)

/-- R445, R342: a word clock loses lock. -/
def State.unlockWclk (s : State) (n : Nat) : State :=
  if (nth s.audio.wclks n .unlocked).locked then
    (s.mapWclk n fun w => { w with locked := false, lockLosses := satAdd w.lockLosses 1, measRate := 0 }).sourceLost (1 + n) |>.checkOutputs
  else s

/-- WCLK_LOCK_LOSS. -/
def execWclkLockLoss (n : Nat) (s : State) : Host.Outcome State Fault Refusal :=
  .next (if s.audioRuns then s.unlockWclk n else s)

/-- R457: the end of a rate window of an input or a word clock. -/
def State.rateMeasured (s : State) (port : Nat) (rate : BitVec 25) : State :=
  if port < 16 then
    s.mapReed port fun p =>
      if !p.locked then p else { p with measRate := if p.wholeWindow then rate else p.measRate, wholeWindow := true }
  else if 0x20 ≤ port then
    s.mapWclk (port - 0x20) fun w =>
      if !w.locked then w else { w with measRate := if w.wholeWindow then rate else w.measRate, wholeWindow := true }
  else s

/-- R446, R457: the outputs that a measured rate leaves without a usable clock stop. -/
def State.rateWindow (s : State) (port : Nat) (rate : BitVec 25) : State := (s.rateMeasured port rate).checkOutputs

/-- RATE_MEASURE_WINDOW. -/
def execRateMeasureWindow (port : Nat) (rate : BitVec 25) (s : State) : Host.Outcome State Fault Refusal :=
  .next (if s.audioRuns then s.rateWindow port rate else s)

/-! ### Input frames (R442 to R444, R459) -/

/-- R459: one delivered sample into an ingress stream of its port and channel. -/
def Ingress.take (g : Ingress) (port stamp : Nat) (f : BitVec 24 × Bool × BitVec 24 × Bool) : Ingress :=
  if g.port != port then g
  else
    let x : InSample :=
      if g.channel == 0 then ⟨f.1, f.2.1, g.lockLost, stamp⟩ else ⟨f.2.2.1, f.2.2.2, g.lockLost, stamp⟩
    { g with input := g.input ++ [x], lockLost := false }

/-- R59, R473: the pipeline takes a frame from a crossing. -/
def State.deliverFrame (s : State) (port : Nat) (f : BitVec 24 × Bool × BitVec 24 × Bool) : State :=
  { s with audio := { s.audio with
      ingress := s.audio.ingress.map fun g => g.take port s.audio.stamp f, stamp := s.audio.stamp + 1 } }

/-- R444: a frame enters the crossing, which the pipeline empties while PD_111 is on; a full crossing drops it whole. -/
def State.enterCrossing (s : State) (n : Nat) (f : BitVec 24 × Bool × BitVec 24 × Bool) : State :=
  if s.domainOn 111 then
    let waiting := (s.reed n).fifo
    (waiting ++ [f]).foldl (fun s x => s.deliverFrame n x) (s.mapReed n fun p => { p with fifo := [] })
  else if 32 ≤ (s.reed n).fifo.length then s.mapReed n fun p => { p with drops := satAdd p.drops 1 }
  else s.mapReed n fun p => { p with fifo := p.fifo ++ [f] }

/-- R442, R443: a frame that an input receives. -/
def State.inputFrame (s : State) (n : Nat) (f : ReedFrame) : State :=
  let p := s.reed n
  if 16 ≤ n || !p.running || !p.started || !p.locked || !s.padsOpen (reedDomain n) then s
  else if p.stopping then s.mapReed n ReedPort.stop
  else
    let parity := f.parity0 && f.parity1
    let s := if f.preambleOk && parity then s else s.mapReed n fun p => { p with frameErrors := satAdd p.frameErrors 1 }
    if f.preambleOk then s.enterCrossing n (f.sample0, f.valid0 || !parity, f.sample1, f.valid1 || !parity) else s

/-- REED_INPUT_FRAME. -/
def execReedInputFrame (n : Nat) (f : ReedFrame) (s : State) : Host.Outcome State Fault Refusal :=
  .next (if s.audioRuns then s.inputFrame n f else s)

/-! ### Starts (R451, R452) -/

/-- R451: the reference of a started port ticks. -/
def State.referenceUsable (s : State) (code : Nat) : Bool :=
  let grp := (s.reed code).group
  match s.groupReference grp with
  | some c => if 16 ≤ c then (s.reed (c - 16)).locked else (s.clockState c).1
  | none => false

/-- R451: the start tick T of a port and of those that start with it. -/
def State.startTick (s : State) (code : Nat) : State :=
  let p := s.reed code
  if !p.running || p.armed.isNone || !s.referenceUsable code then s
  else p.group.foldl (fun s c => s.mapReed c fun q =>
    if q.running && q.armed.isSome then { q with armed := none, started := true } else q) s

/-- REED_START_TICK. -/
def execReedStartTick (port : Nat) (s : State) : Host.Outcome State Fault Refusal :=
  .next (if s.audioRuns then s.startTick port else s)

/-- R451, R453: the outputs of a port's group that share its clock and run with it. -/
def State.outputSet (s : State) (code : Nat) : List Nat :=
  (s.reed code).group.filter fun c => 16 ≤ c && (s.reed c).running && (s.reed c).started

/-- R450, R452: a stream is ready to begin. -/
def Stream.readyOut (t : Stream) : Bool := t.ctx.ended || t.level ≤ t.margin

/-- R452: every stream that the outputs awaited is ready. -/
def State.dataReady (s : State) (outs : List Nat) : Bool :=
  let ids := outs.flatMap fun c => (s.reed c).awaited
  s.audio.streams.all fun t =>
    !(ids.contains t.id && t.reedOut.any fun o => outs.contains (16 + o.1)) || t.readyOut

/-- R452: the data start D of an output's group. -/
def State.dataStart (s : State) (code : Nat) : State :=
  let outs := s.outputSet code
  let p := s.reed code
  if code < 16 || p.dataOn || !outs.contains code || !s.dataReady outs then s
  else
    let ids := outs.flatMap fun c => (s.reed c).awaited
    let s := outs.foldl (fun s c => s.mapReed c fun q => { q with dataOn := true, awaited := [] }) s
    s.mapStreams fun t =>
      if ids.contains t.id && t.reedOut.any (fun o => outs.contains (16 + o.1)) then { t with begun := true } else t

/-- REED_DATA_START. -/
def execReedDataStart (port : Nat) (s : State) : Host.Outcome State Fault Refusal :=
  .next (if s.computing then s.dataStart port else s)

/-! ### Output frames (R446 to R453) -/

/-- R448, AES3: the sampling-frequency bits of byte 0 and byte 4 for RATE (log 23). -/
def aesRate (rate : Nat) : Nat × Nat :=
  match rate with
  | 0 => (0xC0, 0)
  | 1 => (0x40, 0)
  | 2 => (0x80, 0)
  | 3 => (0, 0x50)
  | 4 => (0, 0x10)
  | 5 => (0, 0x58)
  | _ => (0, 0x18)

/-- R448: one byte into the AES3 CRCC. -/
def crccByte (c : Nat) (b : Byte) : Nat :=
  (List.range 8).foldl (fun c i => if bitOf c 0 != b.getLsbD i then (c / 2) ^^^ 0xB8 else c / 2) c

/-- R434, R448: the 24 channel-status bytes of an output. -/
def State.statusBlock (s : State) (code : Nat) : List Byte :=
  let cfg := s.reedConfig code
  let e := nth s.live.table6 (fld cfg 31 28) (zeros 32)
  let r := aesRate (fld cfg 27 24)
  let body := if bitOf (le e 24 1) 0 then
      ((e.take 23).set 0 (BitVec.ofNat 8 (le e 0 1 % 64 + r.1))).set 4
        (BitVec.ofNat 8 (le e 4 1 - le e 4 1 / 8 % 16 * 8 + r.2))
    else e.take 23
  body ++ [BitVec.ofNat 8 (body.foldl crccByte 0xFF)]

/-- R448: the channel-status bit of a frame of a block. -/
def State.statusBit (s : State) (code i : Nat) : Bool := bitOf (le (s.statusBlock code) (i / 8) 1) (i % 8)

/-- The stream on a channel of an output. -/
def State.channelStream (s : State) (port ch : Nat) : Option Stream :=
  s.audio.streams.find? fun t => t.egress == .reed port ch

/-- R447: routes that await a frame of one of these outputs take effect. -/
def State.takeRoutes (s : State) (outs : List Nat) : State :=
  let f := fun (t : Stream) =>
    match t.nextRoute with
    | some (.reed p c) => if outs.contains (16 + p) then t.switch (.reed p c) else t
    | _ => t
  s.mapStreams f

/-- The streams that a set of outputs carries. -/
def State.carried (s : State) (outs : List Nat) : List Stream :=
  s.audio.streams.filter fun t => t.reedOut.any fun o => outs.contains (16 + o.1)

/-- R488, R489: a frame of an output reaches its pins unless they are latched. -/
def State.drive (s : State) (code : Nat) (frame : Output) : State :=
  if s.padsOpen (reedDomain code) then s.emit frame else s

/-- R440: time slots 4 to 31 of a subframe: sample, validity, user bit 0, channel status, even parity. -/
def aesSlots (sample : BitVec 24) (validity status : Bool) : BitVec 28 :=
  let body : BitVec 27 := BitVec.ofBool status ++ 0#1 ++ BitVec.ofBool validity ++ sample
  BitVec.ofBool ((List.range 27).foldl (fun p i => p != body.getLsbD i) false) ++ body

/-- R440, R448: a frame: preamble Z, and both subframes with the same channel-status bit. -/
def aesFrame (port : Nat) (z status : Bool) (x0 : BitVec 24) (v0 : Bool) (x1 : BitVec 24) (v1 : Bool) : Output :=
  .reed port z (aesSlots x0 v0 status) (aesSlots x1 v1 status)

/-- R453: a frame sent by an output: of its two channels the sample taken, or zero with validity 1. -/
def State.sendFrame (s : State) (code : Nat) (taken : Word → Bool) : State :=
  let p := s.reed code
  let ch := fun (c : Nat) =>
    match s.channelStream (code - 16) c with
    | some t => if taken t.id then (t.samples.headD 0, false) else ((0 : BitVec 24), true)
    | none => (0, true)
  let (s0, v0) := ch 0; let (s1, v1) := ch 1
  let s := s.drive code (aesFrame (code - 16) (p.csPos == 0) (s.statusBit code p.csPos) s0 v0 s1 v1)
  s.mapReed code fun p => { p with csPos := (p.csPos + 1) % 192, frames := p.frames + 1, last := (s0, s1) }

/-- R453: the previous frame sent again, with validity 1; the channel-status count stays. -/
def State.repeatFrame (s : State) (code : Nat) : State :=
  let p := s.reed code
  let at_ := (p.csPos + 191) % 192
  let s := s.drive code (aesFrame (code - 16) (at_ == 0) (s.statusBit code at_) p.last.1 true p.last.2 true)
  s.mapReed code fun p => { p with repeats := satAdd p.repeats 1 }

/-- R453: the streams that lack a sample now, and those of the episode that have not refilled. -/
def State.lackingNow (s : State) (outs : List Nat) (active : List Stream) : List Word × List Word :=
  let old := outs.flatMap fun c => (s.reed c).lacking
  let still := (active.filter fun t => old.contains t.id && t.margin < t.level && !t.ctx.ended).map (·.id)
  let fresh := (active.filter fun t => t.margin == 0 && !old.contains t.id).map (·.id)
  (fresh, still)

/-- R447, R449, R452, R453: the frames of one tick of outputs that share a clock, their data on. -/
def State.dataFrame (s : State) (outs : List Nat) : State :=
  let s := (s.takeRoutes outs)
  let ids := (s.carried outs).map (·.id)
  let starts := fun (t : Stream) => ids.contains t.id && !t.begun && t.readyOut
  let s := s.mapStreams fun t => if starts t then { t with begun := true } else t
  let s := ids.foldl (fun s id => s.countWait id 1) s
  let active := (s.carried outs).filter fun t => t.begun && !(t.ctx.ended && t.margin == 0)
  let (fresh, still) := s.lackingNow outs active
  if fresh.isEmpty && still.isEmpty then
    let takes := fun (id : Word) => active.any fun t => t.id == id
    let s := outs.foldl (fun s c => (s.sendFrame c takes).mapReed c fun p => { p with lacking := [] }) s
    s.mapStreams fun t => if takes t.id then { t with samples := t.samples.drop 1, taken := t.taken + 1 } else t
  else
    let s := s.mapStreams fun t => if fresh.contains t.id then { t with underruns := satAdd t.underruns 1 } else t
    outs.foldl (fun s c => (s.repeatFrame c).mapReed c fun p => { p with lacking := fresh ++ still }) s

/-- R452: the frames of one tick before data start: zero samples with SILENT 1, nothing with SILENT 0. -/
def State.silentFrame (s : State) (outs : List Nat) : State :=
  (outs.filter fun c => (s.reedConfig c).getLsbD 19).foldl (fun s c => s.sendFrame c fun _ => false) s

/-- R446, R452, R455: a frame tick of an output's clock, for every output of its group that shares it. -/
def State.outputTick (s : State) (code : Nat) : State :=
  let all := s.outputSet code
  if code < 16 || !all.contains code || !s.clockUsable code || !s.domainOn (reedDomain code) then s
  else
    let s := all.foldl (fun s c => s.mapReed c fun p => { p with clockOk := true }) s
    let stops := all.filter fun c => (s.reed c).stopping
    let s := stops.foldl (fun s c => s.mapReed c ReedPort.stop) s
    let outs := all.filter fun c => !stops.contains c
    let s := (outs.find? fun c => !(s.reed c).dataOn).elim s s.dataStart
    let silent := outs.filter fun c => !(s.reed c).dataOn
    let s := s.silentFrame silent
    let on := outs.filter fun c => !silent.contains c
    if on.isEmpty then s else s.dataFrame on

/-- REED_OUTPUT_FRAME. -/
def execReedOutputFrame (port : Nat) (s : State) : Host.Outcome State Fault Refusal :=
  .next (if s.computing then s.outputTick port else s)

/-- REED_OUTPUT_CLOCK_LOSS. -/
def execReedOutputClockLoss (n : Nat) (s : State) : Host.Outcome State Fault Refusal :=
  .next (if s.audioRuns then s.outputLost n else s)

end Sys2Proof.Machine
end

