-- ==== Sys2Proof/Machine/Carding.lean ====
section
/-!
DEFINITION. The carding pipeline (spec/19): its stages (R459 to R468), its rings (R469, R470), its turns (R471, R472), and
the commands of group 0x05 (R414 to R417, R474).
-/
namespace Sys2Proof.Machine

open Sys2Proof

/-! ### Stage 1 and stage 2 (R459, R462 to R464) -/

/-- R459: a sample as FP32. -/
def inputValue (v : BitVec 24) : Word := (fp32 (.ofRat ((sext 24 v.toNat : Int) * mkRat 1 (2 ^ 23)))).1

/-- R462: dc_stage: the new estimate and the output. -/
def dcStage (d x : Word) : Word × Word :=
  let d' := (fp32Add d (fp32Mul (0x39800000#32) (fp32Add x (fp32Neg d)).1).1).1
  (d', (fp32Add x (fp32Neg d')).1)

/-- R461, R462: stage 1 over samples: the estimate after each, its output, and its flag. -/
def stage1 (on : Bool) : Word → List InSample → List (Word × Word × Bool)
  | _, [] => []
  | d, x :: xs =>
    let r := if on then dcStage d (inputValue x.value) else (d, inputValue x.value)
    (r.1, r.2, x.flag) :: stage1 on r.1 xs

/-- R463: y_n − y_m exceeds 0.25 in magnitude; its sign. -/
def jump (y z : Word) : Option Bool :=
  match f32 y, f32 z with
  | .fin _ _, .fin _ _ =>
    let q := (f32 y).rat - (f32 z).rat
    if mkRat 1 4 < absRat q then some (decide (q < 0)) else none
  | _, _ => none

/-- R463: whether sample i is bad, of stage 1 outputs with flags and the one before the first. -/
def badAt (prev : Option (Word × Bool)) (ys : List (Word × Bool)) (i : Nat) : Bool :=
  match ys[i]?, (if i == 0 then prev else ys[i - 1]?), ys[i + 1]? with
  | some (y, flag), some (p, pf), some (n, nf) =>
    flag || (!pf && !nf && match jump y p, jump y n with
      | some a, some b => a == b
      | _, _ => false)
  | some (_, flag), _, _ => flag
  | none, _, _ => false

/-- R463: the length of the run that starts at sample i, counted to 5. -/
def runLength (prev : Option (Word × Bool)) (ys : List (Word × Bool)) (i : Nat) : Nat :=
  ((List.range 5).takeWhile fun k => badAt prev ys (i + k)).length

/-- An exact FP32 value. -/
def ratOf (w : Word) : Rat := (f32 w).rat

/-- R464: click_value. -/
def clickValue (a b : Word) (i n : Nat) : Word :=
  (fp32 (.ofRat (ratOf a + (ratOf b - ratOf a) * mkRat (i + 1) (n + 1)))).1

/-- R464: dropout_value. -/
def dropoutValue (a : Word) (k : Nat) : Word := (fp32 (.ofRat (ratOf a * mkRat ((64 - k : Nat) : Int) 64))).1

/-- R464: fade_in_value. -/
def fadeInValue (y : Word) (j : Nat) : Word := (fp32 (.ofRat (ratOf y * mkRat j 64))).1

/-- R461: a REPAIR bit. -/
def Ingress.repairs (g : Ingress) (n : Nat) : Bool := g.repair.getLsbD n

/-- R464: one sample of a dropout. -/
def Ingress.dropoutSample (g : Ingress) (a y : Word) (k : Nat) : Word × Ingress :=
  let on := g.repairs 2
  (if on then dropoutValue a k else y,
   { g with run := .dropout a (k + 1), fadeIn := 0, dropouts := g.dropouts + if on then 1 else 0 })

/-- R464: one sample of a click. -/
def Ingress.clickSample (g : Ingress) (a b y : Word) (i n : Nat) : Word × Ingress :=
  let on := g.repairs 1
  (if on then clickValue a b i n else y,
   { g with run := if i + 1 < n then .click a b (i + 1) n else .none, fadeIn := 0,
            clicks := g.clicks + if on && i == 0 then 1 else 0 })

/-- R464: one good sample: faded in for 64 samples after a dropout or after lock returns. -/
def Ingress.goodSample (g : Ingress) (y : Word) (afterLock : Bool) : Word × Ingress :=
  let ended := match g.run with
    | .dropout _ _ => true
    | _ => false
  let j := if g.repairs 2 && (ended || afterLock) then 1 else g.fadeIn
  if j == 0 || !g.repairs 2 then (y, { g with run := .none, fadeIn := 0 })
  else (fadeInValue y j, { g with run := .none, fadeIn := if j < 64 then j + 1 else 0 })

/-- R463, R464: stage 2 of sample i of a stripe. -/
def Ingress.stage2 (g : Ingress) (prev : Option (Word × Bool)) (ys : List (Word × Bool)) (i : Nat) (afterLock : Bool) :
    Word × Ingress :=
  let y := (nth ys i (0, false)).1
  match g.run, badAt prev ys i with
  | .click a b k n, _ => g.clickSample a b y k n
  | .dropout a k, true => g.dropoutSample a y k
  | .none, true =>
    let n := runLength prev ys i
    if n ≤ 4 then g.clickSample g.lastOut (nth ys (i + n) (0, false)).1 y 0 n else g.dropoutSample g.lastOut y 1
  | _, false => g.goodSample y afterLock

/-! ### Stage 3 (R465, R467) -/

/-- R465: one section. -/
def biquadStep (b : Biquad) (v : Word) (st : Word × Word) : Word × (Word × Word) :=
  let y := (fp32Add (fp32Mul b.b0 v).1 st.1).1
  let s0 := (fp32Add (fp32Add (fp32Mul b.b1 v).1 (fp32Neg (fp32Mul b.a1 y).1)).1 st.2).1
  let s1 := (fp32Add (fp32Mul b.b2 v).1 (fp32Neg (fp32Mul b.a2 y).1)).1
  (y, s0, s1)

/-- R465: the sections in ascending order. -/
def biquads : List Biquad → Word → List (Word × Word) → Word × List (Word × Word)
  | [], v, st => (v, st)
  | b :: bs, v, st =>
    let r := biquadStep b v (st.headD (0, 0))
    let rest := biquads bs r.1 st.tail
    (rest.1, r.2 :: rest.2)

/-- R467: the gain of sample i of a frame. -/
def Ingress.gainAt (g : Ingress) (i : Nat) : Word :=
  match g.rampFrom with
  | some old => if i < 64 then (fp32 (.ofRat (ratOf old + (ratOf g.gain - ratOf old) * mkRat (i + 1) 64))).1 else g.gain
  | none => g.gain

/-- R465: stage 3; a non-finite value at any stage gives +0 and clears every section. -/
def Ingress.stage3 (g : Ingress) (entry : List Byte) (i : Nat) (y z : Word) : Word × Ingress :=
  let v := (fp32Mul (fp32Mul z (g.gainAt i)).1 (le32 entry 4)).1
  let r := biquads (biquadsOf entry) v g.sections
  let states := r.2 ++ g.sections.drop r.2.length
  if finite32 y && finite32 z && finite32 v && finite32 r.1 && states.all fun st => finite32 st.1 && finite32 st.2 then
    (r.1, { g with sections := states })
  else (0, { g with sections := List.replicate 8 (0, 0) })

/-- R467: the frame starts: its pending setting is taken, whole. -/
def Ingress.startFrame (g : Ingress) (table5 : List (List Byte)) : Ingress :=
  let fresh := fun (r : Ring) => { r with live := true, buffer := [] }
  let g := { g with
    settled := false, lockFlag := false, rampFrom := none, outs := [], clicks := 0, dropouts := 0, taps := g.taps.map fresh,
    ring := fresh g.ring }
  match g.settings.find? fun c => c.frame == g.frame with
  | none => g
  | some c =>
    let g := { g with settled := true, settings := g.settings.filter fun x => x.frame != g.frame }
    let g := match c.gain with
      | some v => { g with rampFrom := some g.gain, gain := v }
      | none => g
    match c.curve with
    | none => g
    | some k =>
      let n := min (le (nth table5 g.curve []) 1 1) (le (nth table5 k []) 1 1)
      { g with curve := k, sections := g.sections.take n ++ List.replicate (8 - n) (0, 0) }

/-! ### Rings and statistics (R468 to R470) -/

/-- R456: a raw sample in memory. -/
def rawSample (bytes : Nat) (x : InSample) : List Byte :=
  if bytes == 3 then leBytes 3 x.value.toNat else leBytes 4 (x.value.toNat * 256 + if x.flag then 1 else 0)

/-- A ring with one more sample of the frame in progress. -/
def Ring.push (r : Ring) (x : InSample) (y z out : Word) : Ring :=
  if !r.live then r
  else
    { r with buffer := r.buffer ++
        match r.point with
        | 0 => rawSample r.bytes x
        | 1 => leBytes 4 y.toNat
        | 2 => leBytes 4 z.toNat
        | _ => leBytes 4 out.toNat }

/-- R469: a ring's header. -/
def Ring.header (r : Ring) (g : Ingress) : List Byte :=
  leBytes 8 r.written.toNat ++ leBytes 4 r.last.toNat ++ leBytes 2 g.frameSamples ++ leBytes 1 r.point ++ leBytes 1 r.bytes
    ++ leBytes 4 g.id.toNat ++ zeros 44

/-- R470: a ring after the frame in progress. -/
def Ring.advance (r : Ring) (frame : Word) : Ring :=
  if r.live then { r with written := r.written + 1, last := frame, buffer := [] } else r

/-- Bytes written at a dent-window address. -/
def State.writeDent (s : State) (a : Nat) (bs : List Byte) : State :=
  match s.direct a bs.length with
  | some (_, l) => s.writeLoc l bs
  | none => s

/-- R470: a ring's frame written, then its header. -/
def State.writeRing (s : State) (g : Ingress) (r : Ring) : State :=
  if !r.live then s
  else
    let slot := r.written.toNat % r.frames
    (s.writeDent (r.dest + 64 + slot * g.frameSamples * r.bytes) r.buffer).writeDent r.dest ((r.advance g.frame).header g)

/-- R468: the statistics record of the frame in progress. -/
def Ingress.statsRecord (g : Ingress) : List Byte :=
  let peak := (g.outs.map fun w => w &&& 0x7FFFFFFF#32).foldl (fun m w => if ltVal false (f32 m) (f32 w) then w else m) 0
  let sum := treeR (g.outs.map fun w => fp32Mul w w)
  let rms := (fp32Sqrt (fp32Div sum.1 (nat32 g.frameSamples)).1).1
  beBytes 4 g.id.toNat ++ beBytes 4 g.frame.toNat ++ beBytes 4 peak.toNat ++ beBytes 4 rms.toNat
    ++ beBytes 4 (if g.repairs 0 then g.d.toNat else 0) ++ beBytes 4 (g.gainAt (g.frameSamples - 1)).toNat
    ++ beBytes 2 g.clicks ++ beBytes 2 g.dropouts ++ beBytes 1 g.curve
    ++ beBytes 1 ((if g.settled then 1 else 0) + (if g.lockFlag then 2 else 0)) ++ zeros 2

/-- R468, R470: a frame is complete: its rings and its statistics. -/
def Ingress.endFrame (g : Ingress) : Ingress :=
  { g with
    frame := g.frame + 1, pos := 0, taps := g.taps.map fun r => r.advance g.frame, ring := g.ring.advance g.frame,
    stats := (g.stats ++ [(g.frame, g.statsRecord)]).drop (g.stats.length - 15) }

/-! ### A stripe (R471) -/

/-- One sample through stages 2 and 3, and into the rings. -/
def Ingress.sample (table5 : List (List Byte)) (prev : Option (Word × Bool)) (xs : List InSample)
    (ys : List (Word × Word × Bool)) (g : Ingress) (i : Nat) : Ingress :=
  let x := nth xs i ⟨0, false, false, 0⟩
  let y := nth ys i (0, 0, false)
  let g := if g.pos == 0 then g.startFrame table5 else g
  let g := if x.afterLock then { g with lockFlag := true } else g
  let r := g.stage2 prev (ys.map (·.2)) i x.afterLock
  let o := r.2.stage3 (nth table5 r.2.curve []) r.2.pos y.2.1 r.1
  let g := o.2
  { g with
    d := y.1, lastOut := r.1, pos := g.pos + 1, processed := g.processed + 1, outs := g.outs ++ [o.1],
    taps := g.taps.map fun t => t.push x y.2.1 r.1 o.1, ring := g.ring.push x y.2.1 r.1 o.1 }

/-- R471: a stripe of 64 samples. -/
def Ingress.stripe (g : Ingress) (table5 : List (List Byte)) : Ingress :=
  let xs := g.input.take 72
  let ys := stage1 (g.repairs 0) g.d xs
  let g' := (List.range 64).foldl (Ingress.sample table5 g.prevY xs ys) g
  { g' with input := g.input.drop 64, prevY := (ys[63]?).map (·.2) }

/-- R471: the stream whose stripe the engine takes: ready, and whose last lookahead sample arrived first. -/
def State.nextStripe (s : State) : Option Ingress :=
  let ready := s.audio.ingress.filterMap fun g => (g.input[71]?).map fun x => (x.stamp, g)
  (sortBy (fun p => p.1 * 2 ^ 32 + p.2.id.toNat) ready).head?.map (·.2)

/-- R468, R470, R471, R472: one turn of the engine. -/
def State.cardStripe (s : State) : State :=
  match s.nextStripe with
  | none => s
  | some g =>
    let g := g.stripe s.live.table5
    let resident := (g.id :: s.audio.resident.filter (· != g.id)).take 16
    let s := { s with audio := { s.audio with resident := resident } }
    if g.pos < g.frameSamples then s.mapIngress g.id fun _ => g
    else
      let s := (g.taps ++ [g.ring]).foldl (fun s r => s.writeRing g r) s
      let s := s.mapIngress g.id fun _ => g.endFrame
      if g.statsEvery != 0 && g.frame.toNat % g.statsEvery == 0 then s.event .stats .ok g.id 0 g.statsRecord else s

/-- CARDING_STRIPE. -/
def execCardingStripe (s : State) : Host.Outcome State Fault Refusal :=
  .next (if s.audioRuns && s.domainOn 111 then s.cardStripe else s)

/-! ### CARD_CONFIG -/

/-- R414: a GAIN: finite, from +0 to 1,024. -/
def gainOk (w : Word) : Bool := finite32 w && !w.getLsbD 31 && !ltVal false (f32 0x44800000#32) (f32 w)

/-- R414: a used entry of table 0x05. -/
def State.curveUsed (s : State) (k : Nat) : Bool := le (nth s.live.table5 k []) 0 1 == 1

/-- R414: RING_FRAMES. -/
def ringFramesOk (frames : Nat) : Bool := 2 ≤ frames && frames ≤ 1024

/-- R414, R469: a ring of frames of n samples of a size lies in the job region of its dent. -/
def State.ringFits (s : State) (dest frames samples bytes : Nat) : Bool :=
  dest % 64 == 0
    && match s.direct dest (64 + frames * samples * bytes) with
      | some (_, .vault _) => true
      | _ => false

/-- A ring that starts. -/
def Ring.start (point dest frames bytes : Nat) : Ring :=
  { point := point, dest := dest, frames := frames, written := 0, last := 0, bytes := bytes, live := false, buffer := [] }

/-- R414: OP 0. -/
def cardOpen (ps : List Byte) (s : State) : Answer :=
  let f := be ps
  let output := 16 ≤ f 1 1 && f 1 1 < 32
  match firstBad [(1, f 1 1 < 32), (2, f 2 1 ≤ 1), (3, f 3 1 ≤ 31 && s.curveUsed (f 3 1)),
      (4, 64 ≤ f 4 2 && f 4 2 ≤ 4096 && f 4 2 % 64 == 0), (6, f 6 1 < 8), (7, zeroAt ps 7 1),
      (8, gainOk (BitVec.ofNat 32 (f 8 4))), (12, s.ringFits (f 12 8) (f 20 2) (f 4 2) 4), (20, ringFramesOk (f 20 2)), (24, zeroAt ps 24 4)] with
  | some off => badParam off s
  | none =>
    if output || !s.domainOn 111 then failWith .wrongState s
    else if s.audio.ingress.any fun g => g.port == f 1 1 && g.channel == f 2 1 then failWith .busy s
    else if 64 ≤ s.audio.ingress.length then failWith .limit s
    else
      let id := s.freshStream
      match s.allocSave 2 2 with
      | none => failWith .noSpace s
      | some ((v, b), s) =>
        let g : Ingress :=
          { id := id, port := f 1 1, channel := f 2 1, curve := f 3 1, frameSamples := f 4 2,
            repair := BitVec.ofNat 3 (f 6 1), gain := BitVec.ofNat 32 (f 8 4), rampFrom := none, statsEvery := f 22 2,
            saveVault := v, saveBlock := b, input := [], d := 0, prevY := none, lastOut := 0, run := .none, fadeIn := 0,
            sections := List.replicate 8 (0, 0), frame := 0, pos := 0, processed := 0, outs := [], clicks := 0,
            dropouts := 0, settled := false, lockFlag := false, lockLost := false, settings := [], taps := [],
            ring := Ring.start 0xFF (f 12 8) (f 20 2) 4, stats := [] }
        let s := { s with audio := { s.audio with ingress := s.audio.ingress ++ [g], nextStream := id + 1 } }
        { ok (zeros 4) s with context := some id }

/-- R414: the ingress stream that a command names; WRONG_STATE for a synthesis stream. -/
def State.withIngress (s : State) (h : Hdr) (k : Ingress → Answer) : Answer :=
  match s.ingress? h.context with
  | some g => k g
  | none => if (s.stream? h.context).isSome then failWith .wrongState s else failWith .noContext s

/-- R474: an ingress stream closed, between two stripes. -/
def State.closeIngress (s : State) (g : Ingress) : State :=
  let s := s.freeBlock (g.saveVault, g.saveBlock)
  { s with audio := { s.audio with
      ingress := s.audio.ingress.filter fun x => x.id != g.id, resident := s.audio.resident.filter (· != g.id) } }

/-- R414: CARD_CONFIG, of either form. -/
def cardConfigBody (h : Hdr) (ps : List Byte) (s : State) : Answer :=
  if ps.length != 28 then badLength s
  else
    match be ps 0 1 with
    | 0 => cardOpen ps s
    | 1 => s.withIngress h fun g => ok [] (s.closeIngress g)
    | _ => badParam 0 s

/-- CARD_CONFIG, OP 0. -/
def execCardConfigOpen (h : Hdr) (ps : List Byte) (s : State) : Host.Outcome State Fault Refusal :=
  .next (s.command (.cardConfigOpen h ps) 0x0501 h ps false (cardConfigBody h))

/-- CARD_CONFIG, OP 1. -/
def execCardConfigClose (h : Hdr) (ps : List Byte) (s : State) : Host.Outcome State Fault Refusal :=
  .next (s.command (.cardConfigClose h ps) 0x0501 h ps false (cardConfigBody h))

/-! ### CARD_GAIN, CARD_TAP, CARD_STATS -/

/-- R415, R467: the next frame that the pipeline starts. -/
def Ingress.nextFrame (g : Ingress) : Word := if g.pos == 0 then g.frame else g.frame + 1

/-- R415: CARD_GAIN. -/
def cardGainBody (h : Hdr) (ps : List Byte) (s : State) : Answer :=
  let f := be ps
  let sets := bitOf (f 9 1) 0
  let gain : Word := BitVec.ofNat 32 (f 4 4)
  if ps.length != 12 then badLength s
  else
    match firstBad [(4, !sets || gainOk gain), (8, f 8 1 == 0xFF || (f 8 1 ≤ 31 && s.curveUsed (f 8 1))), (9, f 9 1 < 2),
        (10, zeroAt ps 10 2)] with
    | some off => badParam off s
    | none =>
      s.withIngress h fun g =>
        let target : Word := BitVec.ofNat 32 (f 0 4)
        let frame := if 2 ^ 31 ≤ (target - g.nextFrame).toNat then g.nextFrame else target
        let curve := if f 8 1 == 0xFF then none else some (f 8 1)
        let amount := if sets then some gain else none
        let found := g.settings.any fun c => c.frame == frame
        if !found && 8 ≤ g.settings.length then failWith .limit s
        else
          let merge := fun (c : CardSetting) =>
            { c with gain := if sets then amount else c.gain, curve := if curve.isSome then curve else c.curve }
          let settings := if found then modifyFirst g.settings (fun c => c.frame == frame) merge
            else g.settings ++ [⟨frame, amount, curve⟩]
          ok (beBytes 4 frame.toNat) (s.mapIngress g.id fun g => { g with settings := settings })

/-- CARD_GAIN. -/
def execCardGain (h : Hdr) (ps : List Byte) (s : State) : Host.Outcome State Fault Refusal :=
  .next (s.command (.cardGain h ps) 0x0502 h ps false (cardGainBody h))

/-- R416, R456: bytes of a sample of a tap. -/
def State.tapBytes (s : State) (g : Ingress) (point : Nat) : Nat :=
  if point == 0 && !(s.reedConfig g.port).getLsbD 20 then 3 else 4

/-- R416: CARD_TAP, of either form. -/
def cardTapBody (h : Hdr) (ps : List Byte) (s : State) : Answer :=
  let f := be ps
  if ps.length != 16 then badLength s
  else
    match firstBad [(0, f 0 1 ≤ 1), (1, f 1 1 ≤ 3), (4, zeroAt ps 4 4)] with
    | some off => badParam off s
    | none =>
      s.withIngress h fun g =>
        let running := g.taps.any fun r => r.point == f 1 1
        if f 0 1 == 1 then ok [] (s.mapIngress g.id fun g => { g with taps := g.taps.filter fun r => r.point != f 1 1 })
        else if !ringFramesOk (f 2 2) then badParam 2 s
        else if !s.ringFits (f 8 8) (f 2 2) g.frameSamples (s.tapBytes g (f 1 1)) then badParam 8 s
        else if running then failWith .busy s
        else if 2 ≤ g.taps.length then failWith .limit s
        else
          let r := Ring.start (f 1 1) (f 8 8) (f 2 2) (s.tapBytes g (f 1 1))
          ok [] (s.mapIngress g.id fun g => { g with taps := g.taps ++ [r] })

/-- CARD_TAP, OP 0. -/
def execCardTapStart (h : Hdr) (ps : List Byte) (s : State) : Host.Outcome State Fault Refusal :=
  .next (s.command (.cardTapStart h ps) 0x0503 h ps false (cardTapBody h))

/-- CARD_TAP, OP 1. -/
def execCardTapStop (h : Hdr) (ps : List Byte) (s : State) : Host.Outcome State Fault Refusal :=
  .next (s.command (.cardTapStop h ps) 0x0503 h ps false (cardTapBody h))

/-- R417: CARD_STATS. -/
def cardStatsBody (h : Hdr) (ps : List Byte) (s : State) : Answer :=
  if ps.length != 4 then badLength s
  else
    s.withIngress h fun g =>
      let asked : Word := BitVec.ofNat 32 (be ps 0 4)
      if asked == 0xFFFFFFFF#32 then
        match g.stats.getLast? with
        | some r => ok r.2 s
        | none => failWith .wrongState s
      else
        match g.stats.find? fun r => r.1 == asked with
        | some r => ok r.2 s
        | none => if (asked - g.frame).toNat < 2 ^ 31 then failWith .wrongState s else failWith .resultGone s

/-- CARD_STATS. -/
def execCardStats (h : Hdr) (ps : List Byte) (s : State) : Host.Outcome State Fault Refusal :=
  .next (s.command (.cardStats h ps) 0x0504 h ps false (cardStatsBody h))

end Sys2Proof.Machine
end

