-- ==== Sys2Proof/Machine/Cards.lean ====
section
/-!
DEFINITION. The cards of a Loom as events: the engine's choice issues the card (R93, R273), and its effect on its context.
-/
namespace Sys2Proof.Machine

open Sys2Proof

/-! ### Shared parts -/

/-- R73, R233: an execute card draws. -/
def Ctx.drawsExec (c : Ctx) (card : Card) : Bool :=
  let op := opOf card
  if op == 0x28 then
    (convDesc (c.scratch.read (64 * lineOf c.arch.execute.ix (fld card 51 32)) 64)).round == 2
  else if op == 0x38 then fld card 65 63 != 0
  else roundOf card == 2

/-- The card after the present one. -/
def Arch.next (a : Arch) (e : Engine) : Arch := a.mapEng e fun g => { g with card := g.card + 1 }

/-- R96: an index register written; IX_0 ignores it. -/
def EngineState.setIx (g : EngineState) (n : Nat) (v : DWord) : EngineState :=
  if n == 0 then g else { g with ix := g.ix.set n v }

/-- R101: the token of a card's SIG flag. -/
def Arch.signalled (a : Arch) (card : Card) : Arch :=
  if sigOf card then a.mapTokens (bobbinOf card) (· ++ [0]) else a

/-- R121: healthy lane groups of a Loom. -/
def State.lanesOf (s : State) (loom : Nat) : Nat :=
  ((List.range 16).filter fun g => (s.loom loom).lanes.getLsbD g).length

/-- The Loom of a resident context. -/
def Ctx.loomNo (c : Ctx) : Nat :=
  match c.place with
  | .resident l _ => l
  | .displaced l => l
  | .waiting => 0

/-- Waves of a card on its Loom. -/
def State.wavesOf (s : State) (c : Ctx) (e : Engine) (card : Card) : Nat :=
  cardWaves s.live.table1 (s.lanesOf c.loomNo) (lineOf (c.arch.eng e).ix (fld card 90 87 * 65536)) card

/-- R98, R124: every extent of a card lies in its context's range, and an execute card writes nothing that it reads. -/
def State.extentsOk (s : State) (c : Ctx) (e : Engine) (card : Card) : Bool :=
  let es := s.cardExtents c e card
  es.all (Extent.inside c.ways.length c.units.length) && (e == .fetch || noOverlap es)

/-! ### Traces (R427) -/

/-- R427: bytes of a trace record. -/
def traceBytes : Nat := 16

/-- R51: WAVES of a Loom's pace counter. -/
def State.paceWaves (s : State) (loom : Nat) : Nat :=
  ((s.pace.counters.find? fun k => k.kind == 0 && k.index == loom).map (·.waves.toNat)).getD 0

/-- R427: one record in the trace ring, over its oldest when it is full. -/
def State.traceRecord (s : State) (loom slot : Nat) (e : Engine) (index op : Nat) : State :=
  match s.bark.trace with
  | none => s
  | some t =>
    if loom < t.first || t.first + t.count ≤ loom then s
    else
      let engine := match e with
        | .fetch => 0
        | .execute => 1
      let body := leBytes 8 (s.paceWaves loom) ++ leBytes 4 index ++ leBytes 1 loom ++ leBytes 1 slot ++ leBytes 1 engine
        ++ leBytes 1 op
      match s.direct (t.dest + traceBytes * (t.written % t.records)) traceBytes with
      | some (_, l) => { s.writeLoc l body with bark := { s.bark with trace := some { t with written := t.written + 1 } } }
      | none => s

/-- R427: a card issued on an engine; a KNOT issues on both. -/
def State.traceCard (s : State) (loom slot : Nat) (e : Engine) (c : Ctx) (card : Card) : State :=
  if opOf card == 0x0A then
    (s.traceRecord loom slot .fetch c.arch.fetch.card 0x0A).traceRecord loom slot .execute c.arch.execute.card 0x0A
  else s.traceRecord loom slot e (c.arch.eng e).card (opOf card)

/-- R93, R273: a card event: the engine's choice on a Loom that runs, when its next card is of the kind. -/
def State.cardEvent (s : State) (loom slot : Nat) (e : Engine) (kind : Card → Bool) (run : State → Ctx → Card → State) :
    State :=
  if !s.computing || (s.loom loom).halted then s
  else
    let s1 := s.refresh loom
    match s1.resident? loom slot with
    | none => s
    | some c =>
      match s1.nextCard c e with
      | none => s
      | some card => if kind card && s1.choose loom e == some slot then
          let begun := s1.sched.scale.any fun q => e == .execute && q.2 == (c.job, c.position)
          (run (if begun then s1 else s1.traceCard loom slot e c card) c card).refresh loom
        else s

/-! ### Transfers -/

/-- R130: the pieces of the rows of a transfer card. -/
def cardPieces (card : Card) (aix : Nat) : List Piece :=
  (List.range (fld card 50 39 + 1)).flatMap fun r =>
    (piecesOfRow (rowAddr card aix r) (memRowBytes card)).map fun p => ⟨r, p.1, p.2, none⟩

/-- R175: what a STORE_C sends: its rows encoded, with the flags. -/
def encodeRows (c : Ctx) (card : Card) (m : Mem) (line : Nat) : List Byte × List Fl :=
  let lines := fld card 38 27 + 1
  let rows := (List.range (fld card 50 39 + 1)).map fun r =>
    encodeRow card c.arch.fetchKey c.arch.fetchStep.toNat r
      ((List.range (32 * lines)).map fun j => codeAt m (line + r * lines) 16 j)
  (rows.flatMap (·.1), rows.flatMap (·.2))

/-- R98, R103, R131, R178: a transfer card issues. The flags of a STORE_C are raised when it completes, so that one which a save
abandons counts each element once (R87, R125). -/
def State.runTransfer (kind : XferKind) (s : State) (c : Ctx) (card : Card) : State :=
  let g := c.arch.fetch
  let aix := lineOf g.ix (fld card 90 87 * 65536)
  let write := kind == .store || kind == .storeC
  match s.job? c.job, (s.job? c.job).bind Job.alt with
  | some j, some a =>
    let rows := fld card 50 39 + 1
    let reach := (List.range rows).all fun r => s.rowOk j a (opOf card) write (rowAddr card aix r) (memRowBytes card)
    if !s.extentsOk c .fetch card || !reach then s.stopCard c .fetch g.card .badParam
    else
      let stripe := card.getLsbD 91; let line := lineOf g.ix (fld card 111 92)
      let enc := if kind == .storeC then encodeRows c card (c.lines stripe) line else ([], [])
      let t : Transfer :=
        { loom := c.loomNo, job := c.job, position := c.position, cardIdx := g.card, card := card, kind := kind, line := line,
          isStripe := stripe, addr := rowAddr card aix 0, rowBytes := memRowBytes card, rows := rows,
          stride := fld card 26 7, pieces := cardPieces card aix, data := Mem.write [] 0 enc.1, step := c.arch.fetchStep,
          waves := s.wavesOf c .fetch card, flags := raiseAll 0 enc.2 }
      let draw : DWord := if drawsFetch card then 1 else 0
      let s := s.mapCtx c.job c.position fun c =>
        let arch := c.arch.next .fetch
        { c with arch := { arch with fetchStep := arch.fetchStep + draw } }
      { s with sched := { s.sched with transfers := s.sched.transfers ++ [t] } }
  | _, _ => s

/-! ### Bobbins, loops, knots, HALT -/

/-- R100, R101: WAIT. The 16-bit payload is zero-extended, as R100 states; R96 speaks of a sign-extended 32-bit value (log 159,
DEDUCED). -/
def State.runWait (e : Engine) (s : State) (c : Ctx) (card : Card) : State :=
  match c.arch.tokens (bobbinOf card) with
  | [] => s
  | t :: ts =>
    let s := s.mapCtx c.job c.position fun c =>
      let arch := ((c.arch.mapTokens (bobbinOf card) fun _ => ts).mapEng e fun g =>
        g.setIx (fld card 111 108) (t.setWidth 64)).next e
      { c with arch := arch }
    s.charge c.job c.position [e] 2 0

/-- R100, R101: SIGNAL. -/
def State.runSignal (e : Engine) (s : State) (c : Ctx) (card : Card) : State :=
  let v := (lineOf (c.arch.eng e).ix (fld card 111 108 * 65536) + fld card 107 92) % 65536
  let s := s.mapCtx c.job c.position fun c =>
    { c with arch := (c.arch.mapTokens (bobbinOf card) (· ++ [BitVec.ofNat 16 v])).next e }
  s.charge c.job c.position [e] 2 0

/-- R105: LOOP. -/
def State.runLoop (e : Engine) (s : State) (c : Ctx) (card : Card) : State :=
  let count := fld card 111 96
  let start : DWord := (BitVec.ofNat 32 (fld card 67 36)).signExtend 64
  let step := fun (g : EngineState) =>
    if count == 0 then { g with card := g.card + fld card 95 72 + 1 }
    else
      let h := g.setIx (fld card 71 68) start
      { h with card := g.card + 1, loops := (count, g.card) :: g.loops }
  let s := s.mapCtx c.job c.position fun c => { c with arch := c.arch.mapEng e step }
  s.charge c.job c.position [e] 1 0

/-- R105: END. -/
def State.runEnd (e : Engine) (s : State) (c : Ctx) (card : Card) : State :=
  let g := c.arch.eng e
  let first := g.card - fld card 95 72
  let opener := ((s.positionOf c).bind fun p => (p.stream e)[first]?).getD 0
  let stride : DWord := (BitVec.ofNat 16 (fld opener 35 20)).signExtend 64
  let step := fun (g : EngineState) =>
    match g.loops with
    | (left, at_) :: outer =>
      if 1 < left then
        let n := fld opener 71 68
        let h := g.setIx n (nth g.ix n 0 + stride)
        { h with card := first + 1, loops := (left - 1, at_) :: outer }
      else { g with card := g.card + 1, loops := outer }
    | [] => { g with card := g.card + 1 }
  let s := s.mapCtx c.job c.position fun c => { c with arch := c.arch.mapEng e step }
  s.charge c.job c.position [e] 1 0

/-- R108, R120: the live lines that a knot keeps. -/
def liveLines (m : Mem) (stripe : Bool) (k : KnotEntry) : Mem :=
  m.filter fun b => k.ranges.any fun r => r.1 == stripe && 64 * r.2.1 ≤ b.1 && b.1 < 64 * (r.2.1 + r.2.2)

/-- R107 to R110, R233, R536, R537: KNOT, taken by both engines together. -/
def State.runKnot (s : State) (c : Ctx) (card : Card) : State :=
  match s.knotEntry? c card with
  | none => s
  | some k =>
    let waves := knotWaves k.liveBytes
    let s := s.charge c.job c.position [.fetch, .execute] waves waves
    let s := s.freeBlocks (c.recvs.flatMap (·.blocks))
    let s := s.rewrote c.knotBlocks ((c.arch.knotCount.toNat + 1) % 2 * (c.knotBytes / 2)) (c.knotBytes / 2)
    let clear := fun (l : EndLog) => { l with since := 0, entered := 0, log := [], logOn := true, blocks := [] }
    s.mapCtx c.job c.position fun c =>
      let arch := (c.arch.next .fetch).next .execute
      let arch := { arch with knotCount := arch.knotCount + 1, sinceKnot := 0, fetchKey := arch.key }
      let slot : KnotSlot :=
        { entry := fld card 111 96, arch := arch, scratch := liveLines c.scratch false k,
          stripe := liveLines c.stripe true k }
      { c with arch := arch, knot := some slot, sends := c.sends.map clear, recvs := c.recvs.map clear }

/-- R112: HALT. -/
def State.runHalt (e : Engine) (s : State) (c : Ctx) (card : Card) : State :=
  let code : Word := BitVec.ofNat 32 (fld card 111 80)
  let s := s.charge c.job c.position [e] 1 0
  let s := s.mapCtx c.job c.position fun c => { c with arch := c.arch.mapEng e fun g => { g with halted := true } }
  let s := s.mapJob c.job fun j =>
    let f := fun (p : PosState) => match e with
      | .fetch => { p with fetchHalt := some code }
      | .execute => { p with execHalt := some code }
    { j with positions := j.positions.modify c.position f }
  if (c.arch.eng (otherEngine e)).halted then s.finishPosition c.job c.position else s

/-! ### Execute cards -/

/-- What an execute card's own part reads. -/
def State.cardIn (s : State) (c : Ctx) : CardIn :=
  { t1 := s.live.table1, t2 := s.live.table2, ix := c.arch.execute.ix, key := c.arch.key, step := c.arch.execStep.toNat,
    ways := c.ways.length, units := c.units.length,
    out := { scratch := c.scratch, stripe := c.stripe, flags := c.arch.arithFlags } }

/-- R101, R233, R273: an execute card has completed with its results. -/
def State.finishExec (s : State) (c : Ctx) (card : Card) (o : CardOut) : State :=
  let draw : DWord := if c.drawsExec card then 1 else 0
  let waves := s.wavesOf c .execute card
  let s := s.mapCtx c.job c.position fun c =>
    let arch := (c.arch.next .execute).signalled card
    { c with
      scratch := o.scratch, stripe := o.stripe,
      arch := { arch with arithFlags := o.flags, execStep := arch.execStep + draw } }
  s.charge c.job c.position [.execute] waves 0

/-- R98, R124: an execute card checked, run and completed; its own checks may stop the context. -/
def State.runExec (run : Card → CardIn → Except Status CardOut) (s : State) (c : Ctx) (card : Card) : State :=
  if !s.extentsOk c .execute card then s.stopCard c .execute c.arch.execute.card .badParam
  else
    match run card (s.cardIn c) with
    | .error st => s.stopCard c .execute c.arch.execute.card st
    | .ok o => s.finishExec c card o

/-- R235: GRAIN key load. -/
def State.runKeyLoad (s : State) (c : Ctx) (card : Card) : State :=
  if !s.extentsOk c .execute card then s.stopCard c .execute c.arch.execute.card .badParam
  else
    match grainKey card c.arch.execute.ix c.scratch with
    | none => s.stopCard c .execute c.arch.execute.card .badParam
    | some (key, step) =>
      let s := s.mapCtx c.job c.position fun c =>
        let arch := (c.arch.next .execute).signalled card
        { c with arch := { arch with key := key, execStep := step } }
      s.charge c.job c.position [.execute] 40 40

/-! ### Scale units (R181 to R190) -/

/-- R181: LSID and PORT of a QSTAT or NARROW. -/
def scalePort (card : Card) : Nat × Byte := (fld card 50 48, BitVec.ofNat 8 (fld card 58 51))

/-- R187: what stops a QSTAT or NARROW before it starts; none when it may run. -/
def scaleFault (b : Option Binding) (t : Option LinkStream) (card : Card) (loads : Bool) : Option Status :=
  let ch := fld card 79 68 + 1
  match b, t with
  | some b, some t =>
    if !b.narrowed || t.size < ch then some .badParam
    else if loads then none
    else if t.lost then some .faultLost
    else if !t.valid || t.channels != ch || t.fn.toNat != fld card 63 60 || t.zpm != card.getLsbD 59 then some .badParam
    else none
  | _, _ => some .badParam

/-- R181: X, as rows of FP32 values. -/
def State.scaleRows (s : State) (c : Ctx) (card : Card) : List (List Word) :=
  let ch := fld card 79 68 + 1
  (List.range (fld card 91 80 + 1)).map fun r =>
    rowAt s.live.table1 c.scratch (lineOf c.arch.execute.ix (fld card 111 92)) (fld card 67 64) ch r

/-- The columns of rows of `ch` elements. -/
def columns (rows : List (List Word)) (ch : Nat) : List (List Word) :=
  (List.range ch).map fun k => rows.map fun row => nth row k 0

/-- R184: QSTAT loads the window of a link stream in one step. -/
def State.loadWindow (s : State) (card : Card) (regs : List ScaleReg) : State :=
  let (port, lsid) := scalePort card
  match s.linkStream? port lsid with
  | none => s
  | some t =>
    let mine := regs.zipIdx.map fun r => (t.base + r.2, r.1)
    let s := s.mapPort port fun p =>
      { p with scales := p.scales.filter (fun r => !(t.base ≤ r.1 && r.1 < t.base + regs.length)) ++ mine }
    s.mapLinkStream port lsid fun t =>
      { t with
        lost := false, valid := true, zpm := card.getLsbD 59, fn := BitVec.ofNat 4 (fld card 63 60), channels := regs.length }

/-- R180: the loaded scale registers of a link stream. -/
def State.windowRegs (s : State) (port : Nat) (t : LinkStream) : List ScaleReg :=
  (List.range t.channels).map fun i => (((s.port port).scales.find? fun r => r.1 == t.base + i).map (·.2)).getD ⟨false, 0, 0⟩

/-- R179: a Scale unit runs a context's card: no earlier arrival is in progress there. -/
def State.unitTakes (s : State) (port : Nat) (c : Ctx) : Bool :=
  (s.sched.scale.find? fun q => q.1 == port).all fun q => q.2 == (c.job, c.position)

/-- R179, R189: a context's QSTAT or NARROW is in progress at a Scale unit, behind the earlier arrivals. -/
def State.enterScale (s : State) (port : Nat) (c : Ctx) : State :=
  if s.sched.scale.any fun q => q.2 == (c.job, c.position) then s
  else { s with sched := { s.sched with scale := s.sched.scale ++ [(port, c.job, c.position)] } }

/-- R179, R182, R184: QSTAT; while the Scale unit runs an earlier arrival it stays in progress. -/
def State.runQstat (s : State) (c : Ctx) (card : Card) : State :=
  let (port, lsid) := scalePort card
  let fault := scaleFault (s.sendBinding c.job c.position port lsid) (s.linkStream? port lsid) card true
  if !s.extentsOk c .execute card then s.stopCard c .execute c.arch.execute.card .badParam
  else
    match fault with
    | some st => s.stopCard c .execute c.arch.execute.card st
    | none =>
      if !s.unitTakes port c then s.enterScale port c
      else
      let s := s.leaveScale c.job c.position
      let cols := columns (s.scaleRows c card) (fld card 79 68 + 1)
      let s := s.loadWindow card (cols.map (channelScales (fld card 63 60) (card.getLsbD 59)))
      let scratch := if card.getLsbD 27 then
          c.scratch.write (64 * lineOf c.arch.execute.ix (fld card 47 28)) (statsRecord cols)
        else c.scratch
      s.finishExec c card { scratch := scratch, stripe := c.stripe, flags := c.arch.arithFlags }

/-- R186 to R189, R536: NARROW completes: its block, with its scale record, is in the store, unless a replay finds it
entered already. -/
def State.finishNarrow (s : State) (c : Ctx) (card : Card) (b : Binding) (regs : List ScaleReg) (replayed : Bool)
    (s' : State) (left : List BindEnd) : State :=
  let (port, lsid) := scalePort card
  let fn := fld card 63 60; let zpm := card.getLsbD 59; let mode := roundOf card
  let rows := s.scaleRows c card
  let step := c.arch.execStep.toNat
  let w := narrowBlock fn zpm regs mode (satOf card) (fun i => srDraw mode c.arch.key 0 step 0 i) rows
  let body := w.codes.flatMap fun row => packRow (containerOf s.live.table1 fn) row
  let record := scaleRecord b.tag lsid fn zpm rows.length w.mse regs
  let s := if replayed then s'
    else
      (s'.enterBlock b body record).mapLinkStream port lsid fun t =>
        { t with elements := t.elements + BitVec.ofNat 64 w.n, sse := addBinary64 t.sse w.sse }
  let s := s.stopEnds left .linkDown
  let log := c.sendLog b.number
  let log' := { log with since := log.since + 1, entered := max log.entered (log.since + 1) }
  let s := s.mapCtx c.job c.position fun c =>
    { c with sends := c.sends.filter (fun l => l.binding != b.number) ++ [log'] }
  let scratch := if card.getLsbD 24 then
      c.scratch.write (64 * lineOf c.arch.execute.ix (fld card 44 25)) w.errorRecord
    else c.scratch
  s.finishExec c card { scratch := scratch, stripe := c.stripe, flags := raiseAll c.arch.arithFlags w.flags }

/-- R186: bytes of a narrowed block and its scale record. -/
def narrowBytes (t1 : List (List Byte)) (card : Card) : Nat :=
  let rows := fld card 91 80 + 1; let ch := fld card 79 68 + 1
  64 * rows * rowLines t1 (fld card 63 60) ch + roundUp (16 + 8 * ch + ceilDiv ch 8) 64

/-- R179, R185 to R189: NARROW. While the Scale unit runs an earlier arrival, or its block cannot enter the store, it stays in
progress: it holds the Scale unit and the execute engine. With FRESH 1 the window is loaded when the block enters (log 160,
DESIGN CHOICE). -/
def State.runNarrow (s : State) (c : Ctx) (card : Card) : State :=
  let (port, lsid) := scalePort card
  let fresh := card.getLsbD 45
  let stop := fun (st : Status) => s.stopCard c .execute c.arch.execute.card st
  match s.sendBinding c.job c.position port lsid, s.linkStream? port lsid with
  | some b, some t =>
    if !s.extentsOk c .execute card then stop .badParam
    else
      match scaleFault (some b) (some t) card fresh with
      | some st => stop st
      | none =>
        let scales := channelScales (fld card 63 60) (card.getLsbD 59)
        let regs := if fresh then (columns (s.scaleRows c card) (fld card 79 68 + 1)).map scales else s.windowRegs port t
        let loaded := fun (s : State) => if fresh then s.loadWindow card regs else s
        let log := c.sendLog b.number
        let done := fun (s : State) => (loaded s).leaveScale c.job c.position
        if !s.unitTakes port c then s.enterScale port c
        else if log.since < log.entered then (done s).finishNarrow c card b regs true (done s) []
        else if b.ended then stop .linkDown
        else
          match s.enterPlan b (narrowBytes s.live.table1 card) with
          | none => s.enterScale port c
          | some (t, b', left) => (done t).finishNarrow c card b' regs false (done t) left
  | _, _ => stop .badParam

/-! ### PEER (R315 to R318) -/

/-- R315: the device address of a PEER's first row. -/
def peerAddr (c : Ctx) (card : Card) : Nat :=
  64 * ((lineOf c.arch.fetch.ix (fld card 76 73 * 65536) + fld card 72 37) % 2 ^ 64)

/-- R315: a PEER's rows lie where its context and job reach them. -/
def State.peerReach (s : State) (c : Ctx) (card : Card) : Bool :=
  if fld card 91 90 != 2 then s.extentsOk c .fetch card
  else
    let row := 64 * (fld card 24 13 + 1)
    let addr := peerAddr c card
    match s.job? c.job, (s.job? c.job).bind Job.alt with
    | some j, some a =>
      (List.range (fld card 36 25 + 1)).all fun r => s.rowOk j a 5 (card.getLsbD 89) (addr + r * row) row
    | _, _ => false

/-- R315: the bytes of a PEER's block. -/
def State.peerRead (s : State) (c : Ctx) (card : Card) : List Byte :=
  let addr := peerAddr c card
  if fld card 91 90 == 2 then
    ((s.job? c.job).bind Job.alt).elim [] fun a => s.readDevice a (some c.dent) addr (peerBytes card)
  else (c.lines (fld card 91 90 == 1)).read (64 * lineOf c.arch.fetch.ix (fld card 111 92)) (peerBytes card)

/-- R315, R316: a received block written. -/
def State.peerWrite (s : State) (c : Ctx) (card : Card) (bs : List Byte) : State :=
  let addr := peerAddr c card
  if fld card 91 90 == 2 then
    ((s.job? c.job).bind Job.alt).elim s fun a => s.writeDevice a addr bs
  else
    s.mapCtx c.job c.position fun c =>
      c.mapLines (fld card 91 90 == 1) fun m => m.write (64 * lineOf c.arch.fetch.ix (fld card 111 92)) bs

/-- R101, R282, R318: a PEER has completed. -/
def State.finishPeer (s : State) (c : Ctx) (card : Card) : State :=
  let waves := peerWaves (peerBytes card)
  let s := s.mapCtx c.job c.position fun c => { c with arch := (c.arch.next .fetch).signalled card }
  s.charge c.job c.position [.fetch] waves waves

/-- R315 to R317, R536: a PEER send. -/
def State.runPeerSend (s : State) (c : Ctx) (card : Card) : State :=
  let stop := fun (st : Status) => s.stopCard c .fetch c.arch.fetch.card st
  match s.sendBinding c.job c.position (fld card 87 85) (peerLsid card) with
  | none => stop .badParam
  | some b =>
    let log := c.sendLog b.number
    let log' := { log with since := log.since + 1, entered := max log.entered (log.since + 1) }
    let note := fun (s : State) => s.mapCtx c.job c.position fun c =>
      { c with sends := c.sends.filter (fun l => l.binding != b.number) ++ [log'] }
    if b.narrowed || b.maxBlock * 64 < peerBytes card || !s.peerReach c card then stop .badParam
    else if log.since < log.entered then (note s).finishPeer c card
    else if b.ended then stop .linkDown
    else
      match s.enterPlan b (4 + peerBytes card) with
      | none => s
      | some (t, b', left) =>
        let body := rawBody (fld card 36 25 + 1) (fld card 24 13 + 1) (s.peerRead c card)
        (note ((t.enterBlock b' body []).stopEnds left .linkDown)).finishPeer c card

/-- R537: a received block joins the log of its end, which stops growing when system space cannot extend it. -/
def State.logBlock (s : State) (log : EndLog) (block : List Byte × List Byte) : EndLog × State :=
  let next := { log with since := log.since + 1, entered := log.entered + 1 }
  if !log.logOn then (next, s)
  else
    let bytes := ((log.log ++ [block]).map fun b => b.1.length + b.2.length).foldl (· + ·) 0
    let more := ceilDiv bytes blockBytes - log.blocks.length
    match State.allocBlocks more 0 s with
    | none => ({ next with logOn := false }, s)
    | some (bs, s) => ({ next with log := log.log ++ [block], blocks := log.blocks ++ bs }, s)

/-- R315, R322: the bytes that a receive writes, or none for a block that does not fit its card. -/
def receiveBytes (card : Card) (narrowed : Bool) (block : List Byte × List Byte) : Option (List Byte) :=
  let rows := fld card 36 25 + 1; let lines := fld card 24 13 + 1
  if narrowed then (if 64 * rows * lines < block.1.length + block.2.length then none else some (block.1 ++ block.2))
  else if le block.1 0 2 == rows && le block.1 2 2 == lines then some (block.1.drop 4) else none

/-- R191, R315 to R317, R537: a PEER receive. -/
def State.runPeerReceive (s : State) (c : Ctx) (card : Card) : State :=
  let stop := fun (st : Status) => s.stopCard c .fetch c.arch.fetch.card st
  let port := fld card 87 85; let lsid := peerLsid card
  match s.recvBinding c.job c.position port lsid with
  | none => stop .badParam
  | some (b, i) =>
    let log := c.recvLog b.number i
    let note := fun (log : EndLog) (s : State) => s.mapCtx c.job c.position fun c =>
      { c with recvs := c.recvs.filter (fun l => !(l.binding == b.number && l.recvEnd == i)) ++ [log] }
    if b.narrowed != card.getLsbD 88 || !s.peerReach c card then stop .badParam
    else if log.since < log.entered then
      match log.log[log.since]? with
      | none => stop .faultLost
      | some block =>
        match receiveBytes card b.narrowed block with
        | none => stop .badParam
        | some bs => (note { log with since := log.since + 1 } (s.peerWrite c card bs)).finishPeer c card
    else
      match (s.linkStream? port lsid).bind (·.ready.head?) with
      | none => if b.ended then stop .linkDown else s
      | some (seq, data, record) =>
        match receiveBytes card b.narrowed (data, record) with
        | none => stop .badParam
        | some bs =>
          let s := (s.peerWrite c card bs).mapLinkStream port lsid fun t => { t with ready := t.ready.drop 1 }
          let s := if b.narrowed then s else (b.recvs[i]?).elim s fun e => s.sendAck b e seq
          let (log, s) := s.logBlock log (data, record)
          (note log s).finishPeer c card

/-! ### The next card, whatever it is (R428) -/

/-- A card by its opcode. -/
def State.runCard (e : Engine) (s : State) (c : Ctx) (card : Card) : State :=
  match opOf card with
  | 0x01 => s.runTransfer .load c card
  | 0x02 => s.runTransfer .store c card
  | 0x03 => s.runTransfer .loadC c card
  | 0x04 => s.runTransfer .storeC c card
  | 0x05 => if card.getLsbD 89 then s.runPeerReceive c card else s.runPeerSend c card
  | 0x08 => s.runWait e c card
  | 0x09 => s.runSignal e c card
  | 0x0A => s.runKnot c card
  | 0x0B => s.runLoop e c card
  | 0x0C => s.runEnd e c card
  | 0x10 => s.runExec (runMma false) c card
  | 0x11 => s.runExec (runMma true) c card
  | 0x18 => s.runExec runVop c card
  | 0x19 => s.runExec runCurve c card
  | 0x1A => s.runExec runReduce c card
  | 0x1B => s.runExec runNorm c card
  | 0x20 => s.runExec runScan c card
  | 0x28 => s.runExec runConv c card
  | 0x30 => s.runQstat c card
  | 0x31 => s.runNarrow c card
  | 0x32 => s.runExec runWiden c card
  | 0x38 => if fld card 65 63 == 0 then s.runKeyLoad c card else s.runExec runGrainFill c card
  | 0x39 => s.runExec runGsample c card
  | 0x3F => s.runHalt e c card
  | _ => s

/-- A card of an opcode. -/
def isOp (op : Nat) (card : Card) : Bool := opOf card == op

/-! ### The meanings -/

/-- LOAD. -/
def execLoad (loom slot : Nat) (s : State) : Host.Outcome State Fault Refusal :=
  .next (s.cardEvent loom slot .fetch (isOp 0x01) (State.runTransfer .load))

/-- STORE. -/
def execStore (loom slot : Nat) (s : State) : Host.Outcome State Fault Refusal :=
  .next (s.cardEvent loom slot .fetch (isOp 0x02) (State.runTransfer .store))

/-- LOAD_C. -/
def execLoadC (loom slot : Nat) (s : State) : Host.Outcome State Fault Refusal :=
  .next (s.cardEvent loom slot .fetch (isOp 0x03) (State.runTransfer .loadC))

/-- STORE_C. -/
def execStoreC (loom slot : Nat) (s : State) : Host.Outcome State Fault Refusal :=
  .next (s.cardEvent loom slot .fetch (isOp 0x04) (State.runTransfer .storeC))

/-- PEER with DIR 0. -/
def execPeerSend (loom slot : Nat) (s : State) : Host.Outcome State Fault Refusal :=
  .next (s.cardEvent loom slot .fetch (fun c => isOp 0x05 c && !c.getLsbD 89) State.runPeerSend)

/-- PEER with DIR 1. -/
def execPeerReceive (loom slot : Nat) (s : State) : Host.Outcome State Fault Refusal :=
  .next (s.cardEvent loom slot .fetch (fun c => isOp 0x05 c && c.getLsbD 89) State.runPeerReceive)

/-- WAIT. -/
def execWait (loom slot : Nat) (e : Engine) (s : State) : Host.Outcome State Fault Refusal :=
  .next (s.cardEvent loom slot e (isOp 0x08) (State.runWait e))

/-- SIGNAL. -/
def execSignal (loom slot : Nat) (e : Engine) (s : State) : Host.Outcome State Fault Refusal :=
  .next (s.cardEvent loom slot e (isOp 0x09) (State.runSignal e))

/-- KNOT. -/
def execKnot (loom slot : Nat) (s : State) : Host.Outcome State Fault Refusal :=
  .next (s.cardEvent loom slot .fetch (isOp 0x0A) State.runKnot)

/-- LOOP. -/
def execLoop (loom slot : Nat) (e : Engine) (s : State) : Host.Outcome State Fault Refusal :=
  .next (s.cardEvent loom slot e (isOp 0x0B) (State.runLoop e))

/-- END. -/
def execEndLoop (loom slot : Nat) (e : Engine) (s : State) : Host.Outcome State Fault Refusal :=
  .next (s.cardEvent loom slot e (isOp 0x0C) (State.runEnd e))

/-- MMA. -/
def execMma (loom slot : Nat) (s : State) : Host.Outcome State Fault Refusal :=
  .next (s.cardEvent loom slot .execute (isOp 0x10) (State.runExec (runMma false)))

/-- MMA_G. -/
def execMmaG (loom slot : Nat) (s : State) : Host.Outcome State Fault Refusal :=
  .next (s.cardEvent loom slot .execute (isOp 0x11) (State.runExec (runMma true)))

/-- VOP. -/
def execVop (loom slot : Nat) (s : State) : Host.Outcome State Fault Refusal :=
  .next (s.cardEvent loom slot .execute (isOp 0x18) (State.runExec runVop))

/-- CURVE. -/
def execCurve (loom slot : Nat) (s : State) : Host.Outcome State Fault Refusal :=
  .next (s.cardEvent loom slot .execute (isOp 0x19) (State.runExec runCurve))

/-- REDUCE. -/
def execReduce (loom slot : Nat) (s : State) : Host.Outcome State Fault Refusal :=
  .next (s.cardEvent loom slot .execute (isOp 0x1A) (State.runExec runReduce))

/-- NORM. -/
def execNorm (loom slot : Nat) (s : State) : Host.Outcome State Fault Refusal :=
  .next (s.cardEvent loom slot .execute (isOp 0x1B) (State.runExec runNorm))

/-- SCAN. -/
def execScan (loom slot : Nat) (s : State) : Host.Outcome State Fault Refusal :=
  .next (s.cardEvent loom slot .execute (isOp 0x20) (State.runExec runScan))

/-- CONV. -/
def execConv (loom slot : Nat) (s : State) : Host.Outcome State Fault Refusal :=
  .next (s.cardEvent loom slot .execute (isOp 0x28) (State.runExec runConv))

/-- QSTAT. -/
def execQstat (loom slot : Nat) (s : State) : Host.Outcome State Fault Refusal :=
  .next (s.cardEvent loom slot .execute (isOp 0x30) State.runQstat)

/-- NARROW. -/
def execNarrow (loom slot : Nat) (s : State) : Host.Outcome State Fault Refusal :=
  .next (s.cardEvent loom slot .execute (isOp 0x31) State.runNarrow)

/-- WIDEN. -/
def execWiden (loom slot : Nat) (s : State) : Host.Outcome State Fault Refusal :=
  .next (s.cardEvent loom slot .execute (isOp 0x32) (State.runExec runWiden))

/-- GRAIN in MODE 0. -/
def execGrainKeyLoad (loom slot : Nat) (s : State) : Host.Outcome State Fault Refusal :=
  .next (s.cardEvent loom slot .execute (fun c => isOp 0x38 c && fld c 65 63 == 0) State.runKeyLoad)

/-- GRAIN in MODE 1 to 3. -/
def execGrainFill (loom slot : Nat) (s : State) : Host.Outcome State Fault Refusal :=
  .next (s.cardEvent loom slot .execute (fun c => isOp 0x38 c && fld c 65 63 != 0) (State.runExec runGrainFill))

/-- GSAMPLE. -/
def execGsample (loom slot : Nat) (s : State) : Host.Outcome State Fault Refusal :=
  .next (s.cardEvent loom slot .execute (isOp 0x39) (State.runExec runGsample))

/-- HALT. -/
def execHalt (loom slot : Nat) (e : Engine) (s : State) : Host.Outcome State Fault Refusal :=
  .next (s.cardEvent loom slot e (isOp 0x3F) (State.runHalt e))

end Sys2Proof.Machine
end

