-- ==== Sys2Proof/Machine/Security.lean ====
section
/-!
DEFINITION. The commands of groups 0x07 and 0x08 (R424 to R428, R504 to R524) and the debug port (R525).
-/
namespace Sys2Proof.Machine

open Sys2Proof

/-! ### Keys (R506, R507) -/

/-- R506: the key-generation seed of the DIK. -/
def dikSeed : List Byte := kdf (ascii "identity") 48

/-- R506: the digest of the running firmware manifest. -/
def State.manifestDigest (s : State) : List Byte := Crypto.digest s.bark.runManifest

/-- R506: the key-generation seed of the AK. -/
def State.akSeed (s : State) : List Byte := kdf (ascii "attest" ++ s.manifestDigest ++ [s.bark.lifecycle]) 48

/-- R506: d and z of the KTK. -/
def ktkSeed : List Byte := kdf (ascii "transport") 64

/-- The serial number as signed objects hold it. -/
def serialBytes : List Byte := beBytes 8 Config.serial.toNat

/-- R507: the current key store. -/
def State.keyStore (s : State) : KeyStore := if s.flash.keysCurrent then s.flash.keys1 else s.flash.keys0

/-- R507: a key store written to the copy that is not current, which then is. -/
def State.writeKeyStore (s : State) (k : KeyStore) : State :=
  let k := { k with generation := s.keyStore.generation + 1 }
  if s.flash.keysCurrent then { s with flash := { s.flash with keys0 := k, keysCurrent := false } }
  else { s with flash := { s.flash with keys1 := k, keysCurrent := true } }

/-- R506: the slots of a kind. -/
def KeyStore.kind (k : KeyStore) (kind : Nat) : List KeySlot :=
  match kind with
  | 0 => k.cak
  | 1 => k.debugKeys
  | _ => k.model

/-- A slot of a kind set. -/
def KeyStore.setSlot (k : KeyStore) (kind slot : Nat) (v : KeySlot) : KeyStore :=
  match kind with
  | 0 => { k with cak := k.cak.set slot v }
  | 1 => { k with debugKeys := k.debugKeys.set slot v }
  | _ => { k with model := k.model.set slot v }

/-! ### ATTEST (R519, R520) -/

/-- R519: DEBUG: the highest live grant level. -/
def State.debugLevel (s : State) : Nat := (s.bark.grants.map (·.level)).foldl max 0

/-- R520 bit 4: a slot's KIND, SLOT and GENERATION, with the public key of KIND 1. -/
def State.slotItem (s : State) (kind slot : Nat) : List Byte :=
  let k := nth (s.keyStore.kind kind) slot .empty
  beBytes 1 kind ++ beBytes 1 slot ++ beBytes 4 k.generation.toNat ++ (if kind == 1 then k.payload else [])

/-- R520 bit 5: a Committed model's item. -/
def Model.item (m : Model) : List Byte :=
  beBytes 4 m.id.toNat ++ beBytes 8 m.bytes ++ beBytes 1 (if m.encrypted then 1 else 0) ++ beBytes 4 m.keyId.toNat
    ++ Crypto.digest (m.segments.flatMap (·.2))

/-- R520: the item of a measurement. -/
def State.measured (s : State) (bit : Nat) : List Byte :=
  match bit with
  | 0 => Config.seedRom
  | 1 => s.bark.runManifest
  | 2 => if s.currentImage.isEmpty then zeros 32 else s.currentImage
  | 3 => s.live.table1.flatten ++ s.live.table2.flatten ++ s.live.table3.flatten ++ s.live.table4.flatten
      ++ s.live.table5.flatten ++ s.live.table6.flatten
  | 4 => (List.range 3).flatMap fun k => (List.range 4).flatMap fun i => s.slotItem k i
  | 5 => (sortBy (fun m => m.id.toNat) (s.sched.models.filter (·.committed))).flatMap Model.item
  | 6 => (sortBy (fun (d : Deck) => d.number) s.sched.decks).flatMap fun d =>
      beBytes 4 d.number ++ d.image.deckId ++ beBytes 4 d.model.toNat ++ beBytes 8 d.offset
  | 7 => s.units.dentMap.flatMap (fun l => beBytes 1 (l.getD 0xFF)) ++ beBytes 16 s.failedLooms ++ beBytes 1 s.degraded
  | 8 => beBytes 1 (s.links.device.getD 0xFF) ++ beBytes 1 s.links.devices ++ beBytes 1 s.phase
  | _ => (sortBy (fun (g : Grant) => g.id.toNat) s.bark.grants).flatMap fun g =>
      beBytes 4 g.id.toNat ++ beBytes 1 g.level ++ beBytes 2 g.flags.toNat ++ g.signer

/-- R519: the AK certificate, signed by the DIK. -/
def State.akCert (s : State) : List Byte :=
  Config.falconSign dikSeed
    (ascii "AKC1" ++ serialBytes ++ [s.bark.lifecycle] ++ s.manifestDigest ++ Config.falconPublic s.akSeed) 0

/-- R519: a quote before its signature. -/
def State.quoteBody (s : State) (nonce : List Byte) (select : Nat) : List Byte :=
  beBytes 4 0x51544531 ++ [1, s.bark.lifecycle] ++ beBytes 1 s.debugLevel ++ [if Config.variantE then 1 else 0]
    ++ serialBytes ++ [0xB1] ++ zeros 3 ++ beBytes 4 select ++ beBytes 4 s.recorder.cycles.toNat
    ++ beBytes 4 s.recorder.minutes.toNat ++ beBytes 8 s.rollbackValue ++ beBytes 4 s.bark.fwVersion.toNat ++ zeros 4
    ++ nonce ++ ((List.range 10).filter (bitOf select)).flatMap (fun b => Crypto.digest (s.measured b))
    ++ (if bitOf select 31 then Config.kemPublic ktkSeed else []) ++ (if bitOf select 30 then Config.dikCert else [])
    ++ s.akCert ++ Config.falconPublic s.akSeed

/-- R424, R519: ATTEST. -/
def attestBody (ps : List Byte) (s : State) : Answer :=
  if ps.length != 36 then badLength s
  else
    let select := be ps 32 4
    if bitsOf select 29 10 != 0 || (bitOf select 30 && bitOf select 31) then badParam 32 s
    else
      let q := s.quoteBody (ps.take 32) select
      let n := s.bark.signatures + 1
      ok (q ++ Config.falconSign s.akSeed q n) { s with bark := { s.bark with signatures := n } }

/-- ATTEST. -/
def execAttest (h : Hdr) (ps : List Byte) (s : State) : Host.Outcome State Fault Refusal :=
  .next (s.command (.attest h ps) 0x0701 h ps false attestBody)

/-! ### KEY_INSTALL (R512, R524) -/

/-- R524: LOCKED in Manufacture and Returned. -/
def State.keysLocked (s : State) : Bool := s.bark.lifecycle == 0 || s.bark.lifecycle == 3

/-- R512: PAYLOAD_LEN of a kind. -/
def payloadLen (kind : Nat) (delete : Bool) : Nat :=
  if delete then 0
  else match kind with
    | 0 => 80
    | 1 => 1793
    | _ => 40

/-- R512: bytes of the ciphertext. -/
def cipherLen (kind : Nat) (delete : Bool) : Nat := if delete || kind == 1 then 0 else 1568

/-- R512: bytes of an envelope. -/
def envelopeLen (kind : Nat) (delete : Bool) : Nat := 32 + cipherLen kind delete + payloadLen kind delete + trailerBytes

/-- R512: the fields of an envelope `e` that answer BAD_PARAM; offsets are those of the command's parameters. -/
def envelopeChecks (e : List Byte) (kind slot : Nat) : List (Nat × Bool) :=
  let delete := bitOf (be e 7 1) 0
  let at_ := 32 + cipherLen kind delete
  let p := slice e at_ (payloadLen kind delete)
  let cak := kind == 0 && !delete
  [(4, be e 0 4 == 0x4B455931), (8, be e 4 1 == 1), (9, be e 5 1 == kind), (10, be e 6 1 == slot), (11, be e 7 1 ≤ 1),
   (24, be e 20 2 == payloadLen kind delete), (26, zeroAt e 22 10),
   (4 + at_, !cak || (1 ≤ be p 0 1 && be p 0 1 ≤ 32)), (5 + at_, !cak || zeroAt p 1 7),
   (12 + at_, !cak || zeroAt p (8 + be p 0 1) (32 - be p 0 1))]

/-- R512: install_kek. -/
def installKek (e : List Byte) (kind slot : Nat) : List Byte :=
  Crypto.kmac256 (Config.kemDecaps ktkSeed (slice e 32 1568))
    (beBytes 1 kind ++ beBytes 1 slot ++ serialBytes ++ slice e 16 4) 256 (ascii "CQ9600 key install")

/-- R512: what an accepted envelope puts into its slot; none when the unwrap fails. -/
def envelopePayload (e : List Byte) (kind slot : Nat) : Option (List Byte) :=
  if bitOf (be e 7 1) 0 then some []
  else
    let p := slice e (32 + cipherLen kind false) (payloadLen kind false)
    match kind with
    | 0 => (Crypto.unwrapKey (installKek e kind slot) (slice p 40 40)).map fun k => p.take 40 ++ k
    | 1 => some p
    | _ => Crypto.unwrapKey (installKek e kind slot) p

/-- R512: a slot changes; the MKA participant of a CAK slot restarts, without its associations. -/
def State.installKey (s : State) (kind slot : Nat) (v : KeySlot) : State :=
  let s := s.writeKeyStore (s.keyStore.setSlot kind slot v)
  if kind == 0 && s.net.mkaSlot == some slot then { s with net := s.net.unsecure } else s

/-- R424, R512: KEY_INSTALL. -/
def keyInstallBody (ps : List Byte) (s : State) : Answer :=
  let kind := be ps 0 1; let slot := be ps 1 1
  let e := ps.drop 4
  if ps.length < 12 || ps.length != 4 + envelopeLen kind (bitOf (be e 7 1) 0) then badLength s
  else
    match firstBad ([(0, decide (kind ≤ 2)), (1, decide (slot ≤ 3)), (2, zeroAt ps 2 2)] ++ envelopeChecks e kind slot) with
    | some off => badParam off s
    | none =>
      let old := nth (s.keyStore.kind kind) slot .empty
      if s.keysLocked then failWith .locked s
      else if slice e 8 8 != serialBytes || be e 16 4 ≤ old.generation.toNat || !signedBy [s.bark.ownerDigest] e then
        failWith .authFail s
      else
        match envelopePayload e kind slot with
        | none => failWith .authFail s
        | some p => ok [] (s.installKey kind slot ⟨BitVec.ofNat 32 (be e 16 4), p⟩)

/-- KEY_INSTALL. -/
def execKeyInstall (h : Hdr) (ps : List Byte) (s : State) : Host.Outcome State Fault Refusal :=
  .next (s.command (.keyInstall h ps) 0x0702 h ps false keyInstallBody)

/-! ### LIFECYCLE (R508 to R511) -/

/-- R509: the digests that may sign a transition; none for a transition that is not allowed. -/
def State.lifecycleSigners (s : State) (target : Nat) : Option (List (List Byte)) :=
  match s.bark.lifecycle.toNat, target with
  | 0, 1 => some [Config.yilathDigest 1]
  | 0, 3 => some [Config.yilathDigest 1]
  | 1, 2 => some [s.bark.ownerDigest]
  | 1, 3 => some [s.bark.ownerDigest]
  | 2, 3 => some [s.bark.ownerDigest]
  | _, _ => none

/-- R511 step 3: every job cancelled, every stream closed, every model unloaded. -/
def State.emptyDevice (s : State) : State :=
  let s := (s.audio.streams.map (·.id)).foldl State.closeStream s.cancelAll
  { s with sched := { s.sched with models := [], decks := [] } }

/-- R511 steps 1 to 4. -/
def State.burnLifecycle (s : State) (target : Nat) (owner : List Byte) : State :=
  let fromCode := s.bark.lifecycle
  let s := { s with bark := { s.bark with sealedGrants := [] } }.keepGrants []
  let s := { s with bark := { s.bark with
    lifecycle := BitVec.ofNat 8 target, ownerDigest := if target == 1 then owner else s.bark.ownerDigest } }
  let s := s.lifetime 0x0001 0xFF 0 0 ([fromCode] ++ leBytes 1 target)
  if target == 3 then s.emptyDevice.eraseSecrets.eraseMemory else s

/-- R424, R509 to R511: LIFECYCLE. -/
def lifecycleBody (ps : List Byte) (s : State) : Answer :=
  let target := be ps 0 1
  let t := ps.drop 4
  if ps.length < 4 || ps.length != 4 + (if target == 0xFF then 0 else 48 + trailerBytes) then badLength s
  else
    match firstBad ([(0, target ≤ 3 || target == 0xFF), (1, zeroAt ps 1 3)] ++
        (if target == 0xFF then [] else
          [(4, be t 0 4 == 0x4C435431), (8, be t 4 1 == 1), (10, be t 6 1 == target), (11, zeroAt t 7 1),
           (20, target == 1 || zeroAt t 16 32)])) with
    | some off => badParam off s
    | none =>
      if target == 0xFF then ok ([s.bark.lifecycle] ++ zeros 3) s
      else
        match s.lifecycleSigners target with
        | none => failWith .wrongState s
        | some signers =>
          if be t 5 1 != s.bark.lifecycle.toNat then failWith .wrongState s
          else if slice t 8 8 != serialBytes || !signedBy signers t then failWith .authFail s
          else
            let s := s.burnLifecycle target (slice t 16 32)
            { ok ([s.bark.lifecycle] ++ zeros 3) s with post := State.coldReset }

/-- LIFECYCLE, TARGET 0 to 3. -/
def execLifecycleTransition (h : Hdr) (ps : List Byte) (s : State) : Host.Outcome State Fault Refusal :=
  .next (s.command (.lifecycleTransition h ps) 0x0703 h ps false lifecycleBody)

/-- LIFECYCLE, TARGET 0xFF. -/
def execLifecycleRead (h : Hdr) (ps : List Byte) (s : State) : Host.Outcome State Fault Refusal :=
  .next (s.command (.lifecycleRead h ps) 0x0703 h ps false lifecycleBody)

/-! ### FW_INSTALL (R425, R514, R567) -/

/-- R425: an open install set. -/
def State.setInstall (s : State) (i : Option Install) : State := { s with bark := { s.bark with install := i } }

/-- R425, R514, R515: OP 0. -/
def fwManifest (h : Hdr) (ps : List Byte) (s : State) : Answer :=
  let m := ps.drop 4
  if m.length != 64 + trailerBytes then badLength s
  else
    match firstBad [(1, zeroAt ps 1 3), (4, be m 0 4 == 0x464D4631), (8, be m 4 1 == 1), (9, zeroAt m 5 3),
        (16, 1 ≤ manifestImageBytes m && manifestImageBytes m ≤ 33554432), (60, zeroAt m 56 8)] with
    | some off => badParam off s
    | none =>
      if !manifestSigned m then failWith .authFail s
      else if manifestSvn m < s.rollbackValue then failWith .rollback s
      else
        let s := { s with flash := { s.flash with manifest := [] } }
        ok (beBytes 4 0) (s.setInstall (some ⟨h.iface.master, m, 0, manifestImageBytes m⟩))

/-- Bytes written into the image region of the boot flash. -/
def writeImage (image : List Byte) (off : Nat) (data : List Byte) : List Byte :=
  padTo off image ++ data ++ image.drop (off + data.length)

/-- R425: OP 1. -/
def fwChunk (h : Hdr) (ps : List Byte) (s : State) : Answer :=
  let off := be ps 4 4; let len := be ps 8 4
  if ps.length < 12 || ps.length != 12 + len then badLength s
  else
    match firstBad [(1, zeroAt ps 1 3), (8, 1 ≤ len && len ≤ 2097152)] with
    | some o => badParam o s
    | none =>
      match s.bark.install with
      | none => failWith .wrongState s
      | some i =>
        if i.owner != h.iface.master then failWith .wrongState s
        else if i.bytes < off + len then badParam 4 s
        else if off == i.next then
          let s := { s with flash := { s.flash with image := writeImage s.flash.image off (ps.drop 12) } }
          ok (beBytes 4 (i.next + len)) (s.setInstall (some { i with next := i.next + len }))
        else if off + len ≤ i.next then ok (beBytes 4 i.next) s
        else failWith .wrongState s

/-- R425, R566, R567: OP 2. -/
def fwFinish (h : Hdr) (ps : List Byte) (s : State) : Answer :=
  if ps.length != 4 then badLength s
  else if !zeroAt ps 1 3 then badParam 1 s
  else
    match s.bark.install with
    | none => failWith .wrongState s
    | some i =>
      if i.owner != h.iface.master || i.next < i.bytes then failWith .wrongState s
      else
        let closed := s.setInstall none
        if !imageMatches i.manifest s.flash.image then failWith .authFail closed
        else
          let s := { closed with
            flash := { closed.flash with manifest := i.manifest }, bark := { closed.bark with imageCopy := none } }
          { ok [] s with post := State.leaveNetworkBoot }

/-- R425: OP 3. -/
def fwRead (ps : List Byte) (s : State) : Answer :=
  if ps.length != 4 then badLength s
  else if !zeroAt ps 1 3 then badParam 1 s
  else
    match s.bark.install with
    | none => ok (zeros 8) s
    | some i => ok ([1] ++ zeros 3 ++ beBytes 4 i.next) s

/-- R424, R425: FW_INSTALL. -/
def fwInstallBody (h : Hdr) (ps : List Byte) (s : State) : Answer :=
  if ps.length < 4 then badLength s
  else
    match be ps 0 1 with
    | 0 => fwManifest h ps s
    | 1 => fwChunk h ps s
    | 2 => fwFinish h ps s
    | 3 => fwRead ps s
    | _ => badParam 0 s

/-- FW_INSTALL, OP 0. -/
def execFwInstallManifest (h : Hdr) (ps : List Byte) (s : State) : Host.Outcome State Fault Refusal :=
  .next (s.command (.fwInstallManifest h ps) 0x0704 h ps false (fwInstallBody h))

/-- FW_INSTALL, OP 1. -/
def execFwInstallChunk (h : Hdr) (ps : List Byte) (s : State) : Host.Outcome State Fault Refusal :=
  .next (s.command (.fwInstallChunk h ps) 0x0704 h ps false (fwInstallBody h))

/-- FW_INSTALL, OP 2. -/
def execFwInstallFinish (h : Hdr) (ps : List Byte) (s : State) : Host.Outcome State Fault Refusal :=
  .next (s.command (.fwInstallFinish h ps) 0x0704 h ps false (fwInstallBody h))

/-- FW_INSTALL, OP 3. -/
def execFwInstallRead (h : Hdr) (ps : List Byte) (s : State) : Host.Outcome State Fault Refusal :=
  .next (s.command (.fwInstallRead h ps) 0x0704 h ps false (fwInstallBody h))

/-! ### MODEL_KEY (R517) -/

/-- R517: the key that the first model authority slot unwraps. -/
def State.modelKeyUnwrap (s : State) (keyId cipher wrapped : List Byte) : Option (List Byte) :=
  let ss := Config.kemDecaps ktkSeed cipher
  (s.keyStore.model.filter fun k => !k.payload.isEmpty).findSome? fun k =>
    Crypto.unwrapKey (Crypto.kmac256 ss (k.payload ++ keyId ++ serialBytes) 256 (ascii "CQ9600 model kek")) wrapped

/-- R424, R517: MODEL_KEY. -/
def modelKeyBody (ps : List Byte) (s : State) : Answer :=
  let op := be ps 0 1; let id : Word := BitVec.ofNat 32 (be ps 4 4)
  if ps.length != 8 + (if op == 0 then 1608 else 0) then badLength s
  else
    match firstBad [(0, op ≤ 1), (1, zeroAt ps 1 3), (4, id != 0)] with
    | some off => badParam off s
    | none =>
      if s.keysLocked then failWith .locked s
      else if op == 0 then
        if s.bark.modelKeys.any fun k => k.1 == id then failWith .busy s
        else if 32 ≤ s.bark.modelKeys.length then failWith .noSpace s
        else
          match s.modelKeyUnwrap (slice ps 4 4) (slice ps 8 1568) (slice ps 1576 40) with
          | none => failWith .authFail s
          | some k => ok [] { s with bark := { s.bark with modelKeys := s.bark.modelKeys ++ [(id, k)] } }
      else if s.sched.models.any fun m => !m.committed && m.encrypted && m.keyId == id then failWith .busy s
      else ok [] { s with bark := { s.bark with modelKeys := s.bark.modelKeys.filter fun k => k.1 != id } }

/-- MODEL_KEY, OP 0. -/
def execModelKeyInstall (h : Hdr) (ps : List Byte) (s : State) : Host.Outcome State Fault Refusal :=
  .next (s.command (.modelKeyInstall h ps) 0x0705 h ps false modelKeyBody)

/-- MODEL_KEY, OP 1. -/
def execModelKeyDelete (h : Hdr) (ps : List Byte) (s : State) : Host.Outcome State Fault Refusal :=
  .next (s.command (.modelKeyDelete h ps) 0x0705 h ps false modelKeyBody)

/-! ### DEBUG_UNLOCK and DEBUG_LOCK (R426, R521, R522, R524) -/

/-- R524: the digests that may sign a token of a level; none where the level is LOCKED. -/
def State.tokenSigners (s : State) (level : Nat) : Option (List (List Byte)) :=
  match s.bark.lifecycle.toNat, level with
  | 0, 1 => some [Config.yilathDigest 2]
  | 1, 1 | 2, 1 =>
    some (s.bark.ownerDigest :: (s.keyStore.debugKeys.filter fun k => !k.payload.isEmpty).map fun k => Crypto.digest k.payload)
  | 3, 2 => some [Config.yilathDigest 3]
  | _, _ => none

/-- R522: a grant issued: at most four are live, the oldest lapsing; with its lifetime record. -/
def State.issueGrant (s : State) (level : Nat) (flags : Half) (notAfter : Word) (signer : List Byte) : State :=
  let id := s.bark.nextGrant
  let live := if 4 ≤ s.bark.grants.length then s.bark.grants.drop 1 else s.bark.grants
  let g : Grant := ⟨id, level, flags, notAfter, signer⟩
  let s := { s with bark := { s.bark with grants := live ++ [g], nextGrant := id + 1 } }
  s.lifetime 0x0002 0xFF 0 0 (leBytes 4 id.toNat ++ leBytes 1 level ++ zeros 1 ++ leBytes 2 flags.toNat
    ++ leBytes 4 notAfter.toNat ++ signer.take 16)

/-- R426, R521: DEBUG_UNLOCK. -/
def debugUnlockBody (ps : List Byte) (s : State) : Answer :=
  let level := be ps 0 1
  let t := ps.drop 4
  if ps.length != 4 + 32 + trailerBytes then badLength s
  else
    match firstBad [(0, level == 1 || level == 2), (1, zeroAt ps 1 3), (4, be t 0 4 == 0x44475431), (8, be t 4 1 == 1),
        (9, be t 5 1 == level), (10, be t 6 2 ≤ 3), (28, zeroAt t 24 8)] with
    | some off => badParam off s
    | none =>
      match s.tokenSigners level with
      | none => failWith .locked s
      | some signers =>
        if slice t 8 8 != serialBytes || be t 16 4 != s.recorder.cycles.toNat || be t 20 4 ≤ s.recorder.minutes.toNat
            || !signedBy signers t then failWith .authFail s
        else
          let id := s.bark.nextGrant
          ok (beBytes 4 id.toNat) (s.issueGrant level (BitVec.ofNat 16 (be t 6 2)) (BitVec.ofNat 32 (be t 20 4))
            (Crypto.digest (signerOf t)))

/-- DEBUG_UNLOCK. -/
def execDebugUnlock (h : Hdr) (ps : List Byte) (s : State) : Host.Outcome State Fault Refusal :=
  .next (s.command (.debugUnlock h ps) 0x0801 h ps false debugUnlockBody)

/-- R426, R522: DEBUG_LOCK. -/
def debugLockBody (ps : List Byte) (s : State) : Answer :=
  if ps.length != 4 then badLength s
  else
    let id : Word := BitVec.ofNat 32 (be ps 0 4)
    if id == 0 then ok [] (s.keepGrants [])
    else if s.bark.grants.any fun g => g.id == id then ok [] (s.keepGrants (s.bark.grants.filter fun g => g.id != id))
    else failWith .noContext s

/-- DEBUG_LOCK. -/
def execDebugLock (h : Hdr) (ps : List Byte) (s : State) : Host.Outcome State Fault Refusal :=
  .next (s.command (.debugLock h ps) 0x0802 h ps false debugLockBody)

/-! ### TRACE_CTRL (R427) -/

/-- R426: LOCKED without a live grant. -/
def State.debugLocked (s : State) : Bool := s.bark.grants.isEmpty

/-- R427: where a trace ring lies: its dent, when it is inside one dent window slot's job region. -/
def State.traceDent (s : State) (dest records : Nat) : Option Nat :=
  match s.direct dest (traceBytes * records) with
  | some ((false, d), _) => some d
  | _ => none

/-- R427: TRACE_CTRL. -/
def traceCtrlBody (ps : List Byte) (s : State) : Answer :=
  if ps.length != 16 then badLength s
  else
    let op := be ps 0 1; let first := be ps 1 1; let count := be ps 2 1; let records := be ps 4 4; let dest := be ps 8 8
    let ring := s.traceDent dest records
    match firstBad [(0, op ≤ 1), (1, op == 0 || first + count ≤ 68), (3, zeroAt ps 3 1),
        (4, op == 0 || (1024 ≤ records && records ≤ 1048576)), (8, op == 0 || ring.isSome)] with
    | some off => badParam off s
    | none =>
      if s.debugLocked then failWith .locked s
      else if op == 0 then ok [] { s with bark := { s.bark with trace := none } }
      else if s.bark.trace.isSome || ring.any (fun d => s.memBusy (false, d)) then failWith .busy s
      else ok [] { s with bark := { s.bark with
        trace := some { first := first, count := count, records := records, dest := dest, written := 0 } } }

/-- TRACE_CTRL, OP 1. -/
def execTraceCtrlStart (h : Hdr) (ps : List Byte) (s : State) : Host.Outcome State Fault Refusal :=
  .next (s.command (.traceCtrlStart h ps) 0x0803 h ps false traceCtrlBody)

/-- TRACE_CTRL, OP 0. -/
def execTraceCtrlStop (h : Hdr) (ps : List Byte) (s : State) : Host.Outcome State Fault Refusal :=
  .next (s.command (.traceCtrlStop h ps) 0x0803 h ps false traceCtrlBody)

/-! ### LOOM_HALT and LOOM_STEP (R428, R118) -/

/-- R428: LOOM_HALT. -/
def loomHaltBody (ps : List Byte) (s : State) : Answer :=
  if ps.length != 4 then badLength s
  else
    let loom := be ps 0 1; let op := be ps 1 1
    match firstBad [(0, loom < 68), (1, op ≤ 1), (2, zeroAt ps 2 2)] with
    | some off => badParam off s
    | none =>
      if s.debugLocked then failWith .locked s
      else if (s.loom loom).failed || !s.domainOn loom then failWith .wrongState s
      else ok [] (s.mapLoom loom fun u => { u with halted := op == 0 })

/-- LOOM_HALT, OP 0. -/
def execLoomHalt (h : Hdr) (ps : List Byte) (s : State) : Host.Outcome State Fault Refusal :=
  .next (s.command (.loomHalt h ps) 0x0804 h ps false loomHaltBody)

/-- LOOM_HALT, OP 1. -/
def execLoomResume (h : Hdr) (ps : List Byte) (s : State) : Host.Outcome State Fault Refusal :=
  .next (s.command (.loomResume h ps) 0x0804 h ps false loomHaltBody)

/-- R428: up to `n` cards of a context on one engine; the cards issued. -/
def State.stepCards : Nat → State → Nat → Nat → Engine → Nat → State × Nat
  | 0, s, _, _, _, done => (s, done)
  | n + 1, s, loom, slot, e, done =>
    let s := s.refresh loom
    match s.resident? loom slot with
    | none => (s, done)
    | some c =>
      match s.nextCard c e with
      | none => (s, done)
      | some card =>
        if s.ready c e then
          State.stepCards n (((s.traceCard loom slot e c card).runCard e c card).refresh loom) loom slot e (done + 1)
        else (s, done)

/-- R428: LOOM_STEP. -/
def loomStepBody (ps : List Byte) (s : State) : Answer :=
  if ps.length != 8 then badLength s
  else
    let loom := be ps 0 1; let slot := be ps 1 1
    match firstBad [(0, loom < 68), (1, slot < 16), (2, be ps 2 1 ≤ 1), (3, zeroAt ps 3 1), (4, be ps 4 2 != 0),
        (6, zeroAt ps 6 2)] with
    | some off => badParam off s
    | none =>
      if s.debugLocked then failWith .locked s
      else if !(s.loom loom).halted then failWith .wrongState s
      else
        match s.resident? loom slot with
        | none => failWith .noContext s
        | some c =>
          let e : Engine := if be ps 2 1 == 0 then .fetch else .execute
          let r := State.stepCards (be ps 4 2) s loom slot e 0
          let now := (r.1.ctx? c.job c.position).getD c
          ok (beBytes 2 r.2 ++ zeros 2 ++ r.1.archRecord now now.arch) r.1

/-- LOOM_STEP. -/
def execLoomStep (h : Hdr) (ps : List Byte) (s : State) : Host.Outcome State Fault Refusal :=
  .next (s.command (.loomStep h ps) 0x0805 h ps false loomStepBody)

/-! ### The debug port (R525) -/

/-- R525: the reach codes. -/
inductive Reach where
  | z | b | x | s | f | u
deriving DecidableEq, Repr

/-- R525: the reach in the present lifecycle, power state and grants; one of a grant needs its JTAG flag. -/
def State.reach (s : State) : Reach :=
  let jtag := s.bark.grants.any fun g => g.flags.getLsbD 1
  if s.power.boot != .ready || s.power.state == .deepSleep || s.power.state == .off || !s.padsOpen 126 then .z
  else
    match s.bark.lifecycle.toNat, jtag with
    | 0, false => .s
    | 1, false => .x
    | 2, false => .b
    | 3, false => .x
    | 3, true => .u
    | _, true => .f
    | _, false => .b

/-- R525: whether a TAP instruction is in reach; none for a DAP access. -/
def tapReach (r : Reach) (t : DapTarget) : Option Bool :=
  match t with
  | .idcode | .bypass | .samplePreload => some (r != .z)
  | .extest | .clamp | .highz => some (r != .z && r != .b)
  | .scanTest => some (r == .s || r == .u)
  | _ => none

/-- R525: bytes of a model space offset that lie in an encrypted model. -/
def State.encryptedAt (s : State) (off : Nat) : Bool :=
  s.sched.models.any fun m => m.encrypted && decide (m.base ≤ off) && decide (off < m.base + modelRange m.bytes)

/-- R525: whether a DAP access is in reach; R506 excludes Bark's secrets always. -/
def State.dapReach (s : State) (t : DapTarget) : Bool :=
  let r := s.reach
  let both := r == .f || r == .u
  let memory := s.power.state != .sleep && !s.power.canopySelf
  match t with
  | .loomState n => both && n < 68 && s.domainOn n
  | .shuttleState c p => both && c < 16 && p < 17 && s.domainOn (68 + c)
  | .ringRecorder => both && s.domainOn 127
  | .jobRegion v off =>
    both && memory && s.units.home.contains (some v) && off < s.jobRegion && s.domainOn (122 + v / 17)
  | .systemSpace v off => both && memory && s.units.sysVaults.contains v && off < 2 ^ 30 && s.domainOn (122 + v / 17)
  | .channel n off => both && memory && s.units.present.getLsbD n && off < (if r == .u then s.usable else s.extJob)
  | .modelRegion off => both && memory && off < s.modelCapacity && (r == .u || !s.encryptedAt off)
  | .retention | .settingsStore => r == .u
  | .otherUnit => r == .u
  | _ => false

/-- R525: a memory access outside system space: the location that it names. -/
def State.dapLoc (s : State) (t : DapTarget) : Option Loc :=
  match t with
  | .jobRegion v off => some (.vault (vaultKey v off))
  | .channel n off => some (.chan (chanKey n off))
  | .modelRegion off => (s.modelLoc off).map .chan
  | _ => none

/-- R260, R525: an access to system space: what the byte is part of. -/
def State.dapSys (s : State) (t : DapTarget) : Option SysPlace :=
  match t with
  | .systemSpace v off => s.sysPlace v off
  | _ => none

/-- R525: an access in reach: a byte of memory read or written; what a read of another unit gives is free (log 27). -/
def State.dapAnswer (s : State) (a : DapAccess) : State :=
  match s.dapLoc a.target, a.write with
  | some l, some b => (s.writeLoc l [b]).emit (.dap (some []))
  | some l, none => s.emit (.dap (some (s.readLoc l 1)))
  | none, some b => (s.dapSys a.target).elim (s.emit (.dap (some []))) fun p => (s.sysWrite p b).emit (.dap (some []))
  | none, none =>
    match s.dapSys a.target with
    | some p => s.emit (.dap (some [s.sysByte p]))
    | none => { s with free := s.free + 1 }.emit (.dap (some (Config.dapData s.free)))

/-- R255, R525: a write to a model region, out of reach but for code U: a loaded model's bytes do not change (log 172, DEDUCED). -/
def State.modelKept (s : State) (a : DapAccess) : Bool :=
  match a.target, a.write with
  | .modelRegion _, some _ => s.reach != .u
  | _, _ => false

/-- R525: a TAP instruction or DAP access: answered in reach, an error response out of it, and nothing where the port is
off. -/
def State.dapAccess (s : State) (a : DapAccess) : State :=
  if s.reach == .z then s
  else
    let good := (tapReach s.reach a.target).getD (s.dapReach a.target) && !s.modelKept a
    if good then s.dapAnswer a else s.emit (.dap none)

/-- DAP_ACCESS. -/
def execDapAccess (a : DapAccess) (s : State) : Host.Outcome State Fault Refusal := .next (s.dapAccess a)

end Sys2Proof.Machine
end

