-- ==== Sys2Proof/Machine/Net.lean ====
section
/-!
DEFINITION. The events of received packets and of the host link (R328, R333 to R335, R351, R357).
-/
namespace Sys2Proof.Machine

open Sys2Proof

/-! ### Packets and fragments (R351, R356, R357) -/

/-- MALFORMED_PACKET: the bytes of a packet as an interface delivers them. In Sleep and Deep sleep Heartwood takes what comes on
the wake bus. -/
def execMalformedPacket (iface : Iface) (src : Endpoint) (bytes : List Byte) (s : State) : Host.Outcome State Fault Refusal :=
  .next (if iface == .wakeBus && s.power.boot == .ready && s.busWakes then s.wake 1 else s.receiveRaw iface src bytes)

/-- FRAGMENT_RECEIVED: a packet with MORE 1. -/
def execFragmentReceived (opcode : Half) (h : Hdr) (ps : List Byte) (s : State) : Host.Outcome State Fault Refusal :=
  .next (s.command (.fragmentReceived opcode h ps) opcode.toNat h ps true fun _ s => ok [] s)

/-- R357: whether an assembly has received no fragment for 2,000 ms. -/
def Assembly.expired (a : Assembly) (now : Nat) : Bool := a.lastMs + 2000 ≤ now

/-- FRAGMENT_ASSEMBLY_EXPIRY. -/
def execFragmentAssemblyExpiry (m : MasterId) (opcode : Half) (context hostTag : Word) (s : State) :
    Host.Outcome State Fault Refusal :=
  let named := fun (a : Assembly) =>
    a.opcode == opcode && a.context == context && a.hostTag == hostTag && a.expired s.recorder.windows
  .next (if (s.master m).assemblies.any named then
      s.mapMaster m fun ms =>
        { ms with assemblies := ms.assemblies.filter (fun a => !named a), fragExpired := satAdd ms.fragExpired 1 }
    else s)

/-! ### The host link's frames (R334) -/

/-- Whether the host link receives: up, powered, its pads not latched, at READY or in the network boot. -/
def State.linkReceives (s : State) : Bool := s.started && s.net.rate != 0 && s.padsOpen 106

/-- R480: whether the Ethernet port answers by itself, the Treadle being off. -/
def State.asleep (s : State) : Bool := s.power.state != .run && s.power.state != .idle

/-- R334, R480: an ARP request, a neighbour solicitation or an echo request for one of the device's addresses is answered. -/
def State.answerFrame (s : State) (f : NetFrame) : State :=
  match f with
  | .arp target ip mac => if s.ownAddr false target then s.emit (.netAnswer 0 mac (beBytes 6 Config.mac.toNat ++ target ++ ip)) else s
  | .ndp target ip mac => if s.ownAddr true target then s.emit (.netAnswer 1 mac (beBytes 6 Config.mac.toNat ++ target ++ ip)) else s
  | .echo v6 dst src payload =>
    if s.asleep then s else if s.ownAddr v6 dst then s.emit (.netAnswer 2 src payload) else s.discard 1
  | .head h => s.takeHead h
  | .other => s.discard 1

/-- R333, R334: a frame's content by what the link carries: with MACSEC 2 and no association it can only be unsecured, and is
discarded and counted. -/
def State.onLinkUp (s : State) (k : State → State) : State :=
  if !s.linkReceives then s else if s.hostLinkUp then k s else s.discard 1

/-- NETWORK_CONTROL_FRAME. -/
def execNetworkControlFrame (f : NetFrame) (s : State) : Host.Outcome State Fault Refusal :=
  .next (match f with
    | .head h => if s.linkReceives then s.takeHead h else s
    | f => s.onLinkUp fun s => s.answerFrame f)

/-- R331, R334: a configuration frame, used when DHCP4 or SLAAC is 1 and no static address replaces what it would form. -/
def State.configure (s : State) (f : DhcpFrame) : State :=
  let dhcp := s.net.config.getLsbD 9; let slaac := s.net.config.getLsbD 8
  match f with
  | .lease addr gw pfx =>
    if !dhcp then s.discard 1
    else if s.net.addr.getD 4 0 != 0 then s else { s with net := { s.net with lease := some (addr, gw, pfx) } }
  | .leaseLost => if !dhcp then s.discard 1 else { s with net := { s.net with lease := none } }
  | .routerAdv prefix64 router =>
    if !slaac then s.discard 1
    else
      let s := { s with net := { s.net with router := some router } }
      if s.net.addr.getD 32 0 != 0 then s else s.tryV6 (padTo 8 prefix64 ++ interfaceId)
  | .other => s.discard 1

/-- DHCP_REPLY. -/
def execDhcpReply (f : DhcpFrame) (s : State) : Host.Outcome State Fault Refusal :=
  .next (if s.asleep then s else s.onLinkUp fun s => s.configure f)

/-- R333: an EAPOL frame reaches MKA, which may make the secure associations live or end them; it needs the CAK of its
participant's slot, and never runs in the network boot (R566) or with MACSEC 0. -/
def State.takeEapol (s : State) (bytes : List Byte) : State :=
  let made := Config.mka s.net.eapol bytes
  let runs := s.power.boot == .ready && fld s.net.config 15 14 != 0
    && (s.keyStore.cak[made.1]?).any fun k => !k.payload.isEmpty
  let n := if runs then s.net.associate made.1 made.2.1 made.2.2 else s.net
  { s with net := { n with eapol := n.eapol + 1 } }.drainEvents

/-- EAPOL_FRAME. -/
def execEapolFrame (bytes : List Byte) (s : State) : Host.Outcome State Fault Refusal :=
  .next (if s.linkReceives && !s.asleep then s.takeEapol bytes else s)

/-! ### IP reassembly (R335) -/

/-- R335: the datagram that a fragment belongs to. -/
def IpAssembly.has (a : IpAssembly) (f : IpFrag) : Bool :=
  a.v6 == f.v6 && a.src == f.src && a.dst == f.dst && a.ident == f.ident && (f.v6 || a.proto == f.proto)

/-- R335: a fragment overlaps one that is there, or does not fit the datagram's length. -/
def IpAssembly.clashes (a : IpAssembly) (f : IpFrag) : Bool :=
  let stop := f.offset + f.data.length
  a.pieces.any (fun p => p.1 < stop && f.offset < p.1 + p.2.length)
    || (f.more && f.data.length % 8 != 0)
    || a.total.any (fun t => t < stop || !f.more)
    || (!f.more && a.pieces.any fun p => stop < p.1 + p.2.length)

/-- R335: a fragment joins. -/
def IpAssembly.join (a : IpAssembly) (f : IpFrag) : IpAssembly :=
  { a with
    pieces := a.pieces ++ [(f.offset, f.data)], total := if f.more then a.total else some (f.offset + f.data.length) }

/-- R335: a datagram whose fragments are all there, as one byte string. -/
def IpAssembly.whole (a : IpAssembly) : Option (List Byte) :=
  let have_ := (a.pieces.map fun p => p.2.length).foldl (· + ·) 0
  if a.total == some have_ then some ((sortBy (fun p => p.1) a.pieces).flatMap (·.2)) else none

/-- R334, R335: the command packet that a datagram carries: UDP to CMD_PORT at one of the device's addresses, of at most
8,996 bytes; its source port and payload. -/
def State.datagramPacket (s : State) (a : IpAssembly) (d : List Byte) : Option (Nat × List Byte) :=
  let good := a.proto == 17 && 8 ≤ d.length && s.ownAddr a.v6 a.dst && be d 2 2 == fld s.net.config 63 48
    && be d 4 2 == d.length && d.length - 8 ≤ 8996
  if good then some (be d 0 2, d.drop 8) else none

/-- R335: the reassembly with a datagram left out or replaced. -/
def State.setIp (s : State) (f : IpFrag) (a : Option IpAssembly) : State :=
  { s with proto := { s.proto with ip := s.proto.ip.filter (fun b => !b.has f) ++ a.toList } }

/-- R335: a fragment in the datagram that it opens or joins. -/
def State.joinFrag (s : State) (a : IpAssembly) (f : IpFrag) : State :=
  if a.clashes f then (s.setIp f none).discard (a.pieces.length + 1)
  else
    let b := a.join f
    match b.whole with
    | none => s.setIp f (some b)
    | some d =>
      let s := s.setIp f none
      match s.datagramPacket b d with
      | none => s.discard b.pieces.length
      | some (port, payload) => s.receiveRaw .hostLink ⟨f.src, port⟩ payload

/-- R335: a fragment; one that would open a 17th datagram is discarded. -/
def State.takeFrag (s : State) (f : IpFrag) : State :=
  match s.proto.ip.find? fun a => a.has f with
  | some a => s.joinFrag a f
  | none =>
    if 16 ≤ s.proto.ip.length then s.discard 1
    else
      s.joinFrag
        { v6 := f.v6, src := f.src, dst := f.dst, ident := f.ident, startMs := s.recorder.windows, proto := f.proto, pieces := [],
          total := none } f

/-- IP_FRAGMENT_RECEIVED. -/
def execIpFragmentReceived (f : IpFrag) (s : State) : Host.Outcome State Fault Refusal :=
  .next (s.onLinkUp fun s => s.takeFrag f)

/-- IP_REASSEMBLY_EXPIRY: 2 s after the first fragment. -/
def execIpReassemblyExpiry (v6 : Bool) (src dst : List Byte) (ident : Word) (s : State) : Host.Outcome State Fault Refusal :=
  let named := fun (a : IpAssembly) =>
    a.v6 == v6 && a.src == src && a.dst == dst && a.ident == ident && a.startMs + 2000 ≤ s.recorder.windows
  let gone := ((s.proto.ip.filter named).map fun a => a.pieces.length).foldl (· + ·) 0
  .next ({ s with proto := { s.proto with ip := s.proto.ip.filter fun a => !named a } }.discard gone)

/-! ### The link (R328, R329) -/

/-- R566: whether the host link comes up at all: not in the network boot when MACSEC is 2. -/
def State.linkAllowed (s : State) : Bool :=
  s.started && s.padsOpen 106 && !(s.power.boot == .networkBoot && fld s.net.config 15 14 == 2)

/-- R328: the link comes up at a rate, or changes to it; low-power idle is agreed when both ends enable it. -/
def State.linkUpAt (s : State) (rate : BitVec 2) (leader lpi : Bool) : State :=
  let old := s.net.rate
  let s := { s with net := { s.net.unsecure with
      rate := rate, leader := leader, lpi := lpi && s.net.config.getLsbD 12, trainFails := 0,
      linkDowns := if old == 0 || old == rate then s.net.linkDowns else satAdd s.net.linkDowns 1 } }
  let s := if old == rate then s else s.recordLink old rate
  if old != 0 then s
  else
    let dropped := s.net.droppedDown
    let s := { s with net := { s.net with droppedDown := 0 } }.formV6
    (s.faultEvent .ok .hostLink 0 dropped [] []).drainEvents

/-- HOST_LINK_UP: at a rate that the port advertises; in forced mode at the highest rate enabled, in the role that ROLE names. -/
def execHostLinkUp (rate : BitVec 2) (leader lpi : Bool) (s : State) : Host.Outcome State Fault Refusal :=
  let terms := linkTerms s.net.config s.net.advertised rate leader
  .next (if s.linkAllowed && terms.1 != 0 then s.linkUpAt terms.1 terms.2 lpi else s)

/-- HOST_LINK_DOWN. -/
def execHostLinkDown (s : State) : Host.Outcome State Fault Refusal :=
  .next (if s.started && s.domainOn 106 then s.linkLost else s)

/-- TRAINING_FAILED: the third failure in a row drops the rate from the advertisement, unless it is the lowest. -/
def execTrainingFailed (s : State) : Host.Outcome State Fault Refusal :=
  .next (if !s.linkAllowed || s.net.rate != 0 then s
    else
      let fails := s.net.trainFails + 1
      if fails < 3 || fld s.net.config 11 10 != 0 then { s with net := { s.net with trainFails := fails } }
      else
        let less := setBit s.net.advertised (topRate s.net.advertised) false
        { s with net := { s.net with trainFails := 0, advertised := if less == 0 then s.net.advertised else less } })

/-- READVERTISE_TIMER: the link has been down for 10 s. -/
def execReadvertiseTimer (s : State) : Host.Outcome State Fault Refusal :=
  .next (if !s.linkAllowed || s.net.rate != 0 then s
    else { s with net := { s.net with advertised := BitVec.ofNat 3 (fld s.net.config 2 0), trainFails := 0 } })

end Sys2Proof.Machine
end

