-- ==== Sys2Proof/Machine/Records.lean ====
section
/-!
DEFINITION. The commands of groups 0x09 and 0x0A: the recorder, the tables and the settings (R429 to R438, R560).
-/
namespace Sys2Proof.Machine

open Sys2Proof

/-! ### RING_INFO and RING_READ (R429, R560) -/

/-- R547: slots and RECORD_BYTES of a class. -/
def ringShape (cls : Nat) : Nat × Nat := if cls == 0 then (lifetimeSlots, 64) else (serviceSlots, 32)

/-- A class of the recorder. -/
def Recorder.class (r : Recorder) (cls : Nat) : RingClass := if cls == 0 then r.lifetime else r.service

/-- R429: the entry of a class. -/
def Recorder.info (r : Recorder) (cls : Nat) : List Byte :=
  let c := r.class cls; let shape := ringShape cls
  beBytes 1 cls ++ beBytes 1 (if shape.1 ≤ c.slots.length then 1 else 0) ++ beBytes 2 shape.2 ++ beBytes 4 shape.1
    ++ beBytes 4 c.slots.length ++ beBytes 4 (c.slots.countP slotBad)

/-- R429: RING_INFO. -/
def ringInfoBody (ps : List Byte) (s : State) : Answer :=
  if ps.isEmpty then ok (s.recorder.info 0 ++ s.recorder.info 1) s else badLength s

/-- RING_INFO. -/
def execRingInfo (h : Hdr) (ps : List Byte) (s : State) : Host.Outcome State Fault Refusal :=
  .next (s.command (.ringInfo h ps) 0x0901 h ps false ringInfoBody)

/-- R429: RING_READ. -/
def ringReadBody (ps : List Byte) (s : State) : Answer :=
  if ps.length != 10 then badLength s
  else
    let cls := be ps 0 1; let first := be ps 4 4; let count := be ps 8 2
    let most := if cls == 0 then 139 else 279
    match firstBad [(0, cls ≤ 1), (1, zeroAt ps 1 3), (4, first < (ringShape cls).1), (8, 1 ≤ count && count ≤ most)] with
    | some off => badParam off s
    | none =>
      let rs := ((s.recorder.class cls).slots.drop first).take count
      ok (beBytes 1 cls ++ zeros 1 ++ beBytes 4 first ++ beBytes 2 rs.length ++ rs.flatten) s

/-- RING_READ. -/
def execRingRead (h : Hdr) (ps : List Byte) (s : State) : Host.Outcome State Fault Refusal :=
  .next (s.command (.ringRead h ps) 0x0902 h ps false ringReadBody)

/-! ### TABLE_WRITE and TABLE_READ (R430 to R436) -/

/-- R431: entries and entry size of a table. -/
def tableSize (t : Nat) : Option (Nat × Nat) :=
  match t with
  | 7 => some (256, 16)
  | 8 => some (143, 8)
  | t => tableShape t

/-- The entries of a table. -/
def State.tableEntries (s : State) (t : Nat) : List (List Byte) :=
  match t with
  | 7 => table7
  | 8 => table8
  | t => s.live.table t

/-- The step programs of the loaded models (R207, R380). -/
def State.loadedPrograms (s : State) : List Program :=
  s.sched.models.flatMap fun m => (s.programsOf m).map fun p => s.programAt p.2

/-- R149: a position of a deck names a curve. -/
def Position.namesCurve (p : Position) (i : Nat) : Bool := p.execute.any fun c => fld c 127 120 == 0x19 && fld c 45 40 == i

/-- R78, R149, R207, R287, R430: whether an entry of a table is in use. -/
def State.entryBusy (s : State) (t i : Nat) : Bool :=
  match t with
  | 1 => (s.sched.decks.any fun d => d.image.ufMask.getLsbD i) || s.loadedPrograms.any fun p => bitOf p.ufMask i
  | 2 =>
    (s.sched.decks.any fun d => d.image.positions.any fun p => p.namesCurve i)
      || s.loadedPrograms.any fun p => p.steps.any fun c => microOp c == 3 && fld c 36 31 == i
  | 3 => s.power.transition.isSome
  | 4 => s.audio.streams.any fun x => x.viaEntry == some i
  | 5 => s.audio.ingress.any fun g => g.curve == i || g.settings.any fun c => c.curve == some i
  | 6 => (List.range 16).any fun n => (s.reed (16 + n)).running && fld (s.reedConfig (16 + n)) 31 28 == i
  | _ => false

/-- R430: the contents of a table with entries replaced from `first` on. -/
def replaceEntries (c : List (List Byte)) (first : Nat) (es : List (List Byte)) : List (List Byte) :=
  c.take first ++ es ++ c.drop (first + es.length)

/-- R430: TABLE_WRITE. -/
def tableWriteBody (ps : List Byte) (s : State) : Answer :=
  if ps.length < 8 then badLength s
  else
    let t := be ps 0 1; let first := be ps 2 2; let count := be ps 4 2
    match tableSize t with
    | none => badParam 0 s
    | some (n, size) =>
      if ps.length != 8 + count * size then badLength s
      else
        let es := chunk size count (ps.drop 8)
        let c := replaceEntries (s.live.table t) first es
        match firstBad [(0, 1 ≤ t && t ≤ 6), (1, zeroAt ps 1 1), (2, first ≤ n), (4, first + count ≤ n), (6, zeroAt ps 6 2),
            (8, tableWriteOk t es c)] with
        | some off => badParam off s
        | none =>
          if (List.range count).any fun i => s.entryBusy t (first + i) then failWith .busy s
          else ok [] { s with live := s.live.setTable t c }

/-- TABLE_WRITE. -/
def execTableWrite (h : Hdr) (ps : List Byte) (s : State) : Host.Outcome State Fault Refusal :=
  .next (s.command (.tableWrite h ps) 0x0A01 h ps false tableWriteBody)

/-- R430: TABLE_READ. -/
def tableReadBody (ps : List Byte) (s : State) : Answer :=
  if ps.length != 8 then badLength s
  else
    let t := be ps 0 1; let first := be ps 2 2; let count := be ps 4 2
    match tableSize t with
    | none => badParam 0 s
    | some (n, size) =>
      match firstBad [(1, zeroAt ps 1 1), (2, first ≤ n), (4, first + count ≤ n), (6, zeroAt ps 6 2),
          (4, 8 + count * size ≤ 8960)] with
      | some off => badParam off s
      | none =>
        ok (ps ++ (((s.tableEntries t).drop first).take count).flatten) s

/-- TABLE_READ. -/
def execTableRead (h : Hdr) (ps : List Byte) (s : State) : Host.Outcome State Fault Refusal :=
  .next (s.command (.tableRead h ps) 0x0A02 h ps false tableReadBody)

/-! ### SETTINGS_COMMIT and SETTINGS_READ (R437, R438) -/

/-- R437: the settings image of the present values, in the slot that is not current; it becomes current. -/
def State.commitSettings (s : State) : Nat × State :=
  let gen := (imageGeneration s.currentImage + 1) % 2 ^ 32
  let img := settingsImage s.live gen s.bark.lifecycle
  let f := match s.flash.current with
    | some false => { s.flash with slot1 := img, current := some true }
    | some true | none => { s.flash with slot0 := img, current := some false }
  (gen, { s with flash := { f with heartwoodCopy := img } })

/-- R437: both slots invalidated. -/
def State.invalidateSettings (s : State) : State :=
  { s with flash := { s.flash with slot0 := [], slot1 := [], current := none, heartwoodCopy := [] } }

/-- R437: SETTINGS_COMMIT, both forms. -/
def settingsCommitBody (ps : List Byte) (s : State) : Answer :=
  if ps.length != 4 then badLength s
  else
    match firstBad [(0, be ps 0 1 ≤ 1), (1, zeroAt ps 1 3)] with
    | some off => badParam off s
    | none =>
      if be ps 0 1 == 1 then ok (beBytes 4 0) s.invalidateSettings
      else ok (beBytes 4 s.commitSettings.1) s.commitSettings.2

/-- SETTINGS_COMMIT with FLAGS[0] 0. -/
def execSettingsCommit (h : Hdr) (ps : List Byte) (s : State) : Host.Outcome State Fault Refusal :=
  .next (s.command (.settingsCommit h ps) 0x0A03 h ps false settingsCommitBody)

/-- SETTINGS_COMMIT with FLAGS[0] 1. -/
def execSettingsInvalidate (h : Hdr) (ps : List Byte) (s : State) : Host.Outcome State Fault Refusal :=
  .next (s.command (.settingsInvalidate h ps) 0x0A03 h ps false settingsCommitBody)

/-- R438: SETTINGS_READ. -/
def settingsReadBody (ps : List Byte) (s : State) : Answer :=
  if ps.length != 8 then badLength s
  else
    let off := be ps 0 4; let len := be ps 4 4
    let img := s.currentImage
    match firstBad [(4, len ≤ 8944), (0, off + len ≤ img.length)] with
    | some off => badParam off s
    | none =>
      ok (beBytes 4 (imageGeneration img) ++ beBytes 4 img.length ++ [s.flash.source, if s.dirty then 1 else 0] ++ zeros 6
        ++ slice img off len) s

/-- SETTINGS_READ. -/
def execSettingsRead (h : Hdr) (ps : List Byte) (s : State) : Host.Outcome State Fault Refusal :=
  .next (s.command (.settingsRead h ps) 0x0A04 h ps false settingsReadBody)

end Sys2Proof.Machine
end

