-- ==== Sys2Proof/Machine/System.lean ====
section
/-!
DEFINITION. The commands of group 0x0B (R308, R312, R320, R402 to R404), the routes of a system (R325), and what its devices
tell each other (R309, R311, R313, R324).
-/
namespace Sys2Proof.Machine

open Sys2Proof

/-! ### Link streams of bindings (R179, R312) -/

/-- R179, R180: a link stream just bound. -/
def LinkStream.bound (lsid : Byte) (binding base size : Nat) : LinkStream :=
  { lsid := lsid, binding := binding, base := base, size := size, lost := false, valid := false, zpm := false, fn := 0,
    channels := 0, elements := 0, sse := 0, drift := 0, expTag := 0, expSeq := 0, data := [], records := [], ready := [],
    recovering := false, recoveries := 0 }

/-- The link streams of a binding released, with their scale registers. -/
def Selvage.release (p : Selvage) (binding : Nat) : Selvage :=
  let mine := p.streams.filter fun t => t.binding == binding
  { p with
    streams := p.streams.filter fun t => t.binding != binding,
    scales := p.scales.filter fun r => !mine.any fun t => t.base ≤ r.1 && r.1 < t.base + t.size }

/-- R193, R403: the link streams of a binding released at every port. -/
def State.releaseStreams (s : State) (binding : Nat) : State :=
  { s with links := { s.links with ports := s.links.ports.map fun p => p.release binding } }

/-- A link stream placed at a port, in place of one that its ended binding left. -/
def State.placeLink (s : State) (port : Nat) (t : LinkStream) : State :=
  s.mapPort port fun p => { p with streams := p.streams.filter (fun u => u.lsid != t.lsid) ++ [t] }

/-- R312: an end of another binding with the same device, port and LSID. -/
def Binding.shares (b o : Binding) : Bool :=
  (b.send :: b.recvs).any fun e => (o.send :: o.recvs).any fun f => e.device == f.device && e.port == f.port && e.lsid == f.lsid

/-- R312: a binding is known here, with the link streams of its ends on this device; what its ends were bound to before is
forgotten. -/
def State.placeBinding (s : State) (b : Binding) : State :=
  let s := s.releaseStreams b.number
  let old := fun (o : Binding) => o.number == b.number || (o.ended && b.shares o)
  let s := { s with links := { s.links with bindings := s.links.bindings.filter (fun o => !old o) ++ [b] } }
  let s := if b.send.device == s.deviceNo then s.placeLink b.send.port (.bound b.send.lsid b.number b.base b.window) else s
  (b.recvs.filter fun e => e.device == s.deviceNo).foldl
    (fun s e => s.placeLink e.port (.bound e.lsid b.number 0 0)) s

/-- R403: a binding forgotten. -/
def State.dropBinding (s : State) (n : Nat) : State :=
  { s with links := { s.links with bindings := s.links.bindings.filter fun b => b.number != n } }.releaseStreams n

/-- R193, R325: a binding fails: it ends, its store and its link streams are released on every device, and the jobs of its ends end
with LINK_DOWN. -/
def State.failBinding (s : State) (n : Nat) : State :=
  match s.binding? n with
  | none => s
  | some b =>
    if b.ended then s
    else
      let s := s.mapBinding n fun b => { b with ended := true, store := [] }
      ((s.tellAll (.failed n)).releaseStreams n).stopEnds (b.send :: b.recvs.filter (·.live)) .linkDown

/-! ### Routes (R325) -/

/-- R325: an end's new route, and the blocks resent over it, when its old route has failed. -/
def State.moveEnd (s : State) (b : Binding) (i : Nat) (e : BindEnd) : State :=
  let e' := s.onRoute b e
  let s := s.mapBinding b.number fun b => { b with recvs := b.recvs.set i e' }
  (b.store.filter fun blk => !e.has blk.1).foldl (fun s blk => s.sendBlock b e' blk) s

/-- R325: the blocks of a binding of this device move to the new routes of its ends whose own routes have lost a link. -/
def State.moveBinding (s : State) (b : Binding) : State :=
  if b.send.device != s.deviceNo || b.ended then s
  else
    b.recvs.zipIdx.foldl (fun s x =>
      if x.1.live && x.1.path.any fun q => !linkUp s.links.devices s.links.wires q.1 q.2 then s.moveEnd b x.2 x.1 else s) s

/-- R325: whether a binding with an end here has an end that cannot be reached. -/
def State.cutOff (s : State) (b : Binding) : Bool :=
  let ends := b.send :: b.recvs.filter (·.live)
  !b.ended && ends.any (fun e => e.device == s.deviceNo)
    && ends.any fun e => e.device != s.deviceNo && (s.routePort e.device b.odd).isNone

/-- R325: new routes installed: the bindings that they cut off fail, and the others move where their route has failed. -/
def State.installRoutes (s : State) (wires : List (Nat × Nat)) : State :=
  let s := s.setWires wires
  let s := ((s.links.bindings.filter s.cutOff).map (·.number)).foldl State.failBinding s
  s.links.bindings.foldl (fun s b => s.moveBinding b) s

/-- R309: a device that has become unreachable, or that has rejoined and is told its number again. -/
def State.noteDevice (before : List (Option (Nat × Nat))) (s : State) (d : Nat) : State :=
  let was := ((before[d]?).join).isSome; let is := ((s.links.routes[d]?).join).isSome
  if was && !is then s.faultEvent .linkDown (.device d) 0 0 [] []
  else if !was && is then
    (s.tell d (.number d s.links.devices s.links.wires)).faultEvent .ok (.device d) 0 0 [] []
  else s

/-- R325: the root recomputes every route after a change of the links, and installs it on every device. -/
def State.recompute (s : State) (wires : List (Nat × Nat)) : State :=
  let before := s.links.routes
  let s := ((s.installRoutes wires).tellAll (.routes wires))
  let s := s.replied fun d => !s.routed d
  ((List.range s.links.devices).filter (· != 0)).foldl (State.noteDevice before) s

/-- R325: the links with that of a port up or down. -/
def State.wiresWith (s : State) (device port : Nat) (up : Bool) : List (Nat × Nat) :=
  let rest := s.links.wires.filter fun w => w != (device, port)
  if up then rest ++ [(device, port)] else rest

/-- R325: the link of a port of a device has come up or gone down, as the root learns it. -/
def State.wireChange (s : State) (device port : Nat) (up : Bool) : State :=
  s.recompute (s.wiresWith device port up)

/-- R325: a port of this device has changed its state: the root recomputes, another device tells the root. -/
def State.portChanged (s : State) (n : Nat) : State :=
  let up := (s.port n).state == .up
  if s.links.isRoot then s.wireChange 0 n up
  else if s.links.device.isSome then
    (s.installRoutes (s.wiresWith s.deviceNo n up)).tell 0 (.linkChange s.deviceNo n up)
  else s

/-! ### System control received (R308, R309, R311, R313, R320, R324) -/

/-- R311: the root has been reset: jobs end, streams close, the device is unenumerated; memory and models stay. -/
def State.rootGone (s : State) : State :=
  let s := ((s.sched.jobs.filter fun j => !j.ready).map (·.id)).foldl (fun s id => s.endJob id .superseded) s
  let s := (s.audio.streams.map (·.id)).foldl State.closeStream s
  { s with links := { s.links with
      device := none, devices := 0, isRoot := false, phases := Links.fresh.phases, routes := [], wires := [],
      bindings := s.links.bindings.map fun b => { b with ended := true } } }

/-- An end of a binding as it is told: device, port, LSID, position and job. -/
def endOf (e : Nat × Nat × Byte × Nat × Word) : BindEnd :=
  { device := e.1, port := e.2.1, lsid := e.2.2.1, position := e.2.2.2.1, job := e.2.2.2.2, acked := 0, attached := true,
    live := true, via := none, path := [] }

/-- R312: a binding from its parts. -/
def bindingOf (number kind maxBlock window base : Nat) (narrowed : Bool) (send : BindEnd) (recvs : List BindEnd) : Binding :=
  { number := number, kind := kind, narrowed := narrowed, maxBlock := maxBlock, window := window, base := base, send := send,
    recvs := recvs, nextSeq := 0, tag := 0, store := [], ended := false }

/-- R303, R308: the numbers of the neighbours, once the device knows its own. -/
def State.nameNeighbours (s : State) : State :=
  let f := fun (x : Selvage × Nat) =>
    { x.1 with neighbour := BitVec.ofNat 8 (((farEnd s.links.devices s.deviceNo x.2).map (·.1)).getD 0xFF) }
  { s with links := { s.links with ports := s.links.ports.zipIdx.map f } }

/-- R308: the device learns its number, the system's size and the links; its phase is general. -/
def State.numbered (s : State) (d n : Nat) (wires : List (Nat × Nat)) : State :=
  { s with links := { s.links with
    device := some d, devices := n, phases := Links.fresh.phases } }.nameNeighbours.installRoutes wires

/-- R301: a port that has found a partner. -/
def Selvage.partnered (p : Selvage) : Bool := p.state == .up || p.state == .miswired

/-- R326: ports without a partner switched off. -/
def State.portsOff (s : State) (ports : List Nat) : State :=
  (ports.filter fun p => p < 6 && !(s.port p).partnered && (s.port p).state != .retraining).foldl
    (fun s p => s.switchOff (100 + p)) s

/-- R324, R398: a stream of another device has closed: the jobs whose token sink it is are cancelled. -/
def State.sinkClosed (s : State) (device : Nat) (stream : Word) : State :=
  ((s.sched.jobs.filter fun j => !j.ready && j.tokenSink == stream && j.tokenDev == device).map (·.id)).foldl State.cancelJob s

/-- R314: what this device does with system control. -/
def State.obey (s : State) (c : Control) : State :=
  match c with
  | .number d n wires => if s.links.isRoot then s else s.numbered d n wires
  | .rootReset => if s.links.isRoot then s else s.rootGone
  | .routes wires => if s.links.isRoot then s else s.installRoutes wires
  | .miswired p => s.mapPort p fun q => if q.partnered then { q with state := .miswired } else q
  | .portsOff ports => s.portsOff ports
  | .phase code => { s with links := { s.links with phases := s.links.phases.set s.deviceNo code } }
  | .bind n k m w base narrowed ends =>
    match ends.map endOf with
    | send :: recvs => s.placeBinding (bindingOf n k m w base narrowed send recvs)
    | [] => s
  | .unbind n => s.dropBinding n
  | .ended n => s.mapBinding n fun b => { b with ended := true }
  | .failed n => (s.mapBinding n fun b => { b with ended := true, store := [] }).releaseStreams n
  | .attached n i is => s.mapBinding n fun b => { b with recvs := b.recvs.modify i fun e => { e with attached := is } }
  | .left n i =>
    s.mapBinding n fun b => { b with recvs := b.recvs.modify i fun e => { e with live := false } }.prune.settle
  | .stopJob job => s.stopJob job .linkDown
  | .linkChange d p up => if s.links.isRoot then s.wireChange d p up else s
  | .tokens stream tokens => s.feedLocal stream tokens
  | .sinkClosed device stream => s.sinkClosed device stream

/-! ### SYS_ENUMERATE (R308, R326, R402) -/

/-- R366, R308: whether this device holds a job or an open stream. -/
def State.holdsWork (s : State) : Bool := !s.sched.jobs.isEmpty || !s.audio.streams.isEmpty

/-- R308: the links of this device's own ports. -/
def State.ownLinks (s : State) : List FoundLink :=
  (List.range 6).filterMap fun n =>
    if (s.port n).partnered then some (Config.serial, n, (s.port n).farSerial, (s.port n).farPort.toNat) else none

/-- R308: a port's own mark after the walk. -/
def markPort (devices : Nat) (ns : List (Nat × DWord)) (l : FoundLink) (p : Selvage) : Selvage :=
  if misWired devices ns l then { p with state := .miswired }
  else { p with state := .up, neighbour := BitVec.ofNat 8 ((numberOf ns l.2.2.1).getD 0xFF) }

/-- R308: the ends of a mis-wired link are told: the neighbour over the link itself, another device by its number. -/
def State.tellMisWired (ns : List (Nat × DWord)) (s : State) (l : FoundLink) : State :=
  if l.1 == Config.serial then s.messageBy l.2.1 0 7 0 0 0 0 (Config.controlBody (.miswired l.2.2.2))
  else
    [(l.1, l.2.1), (l.2.2.1, l.2.2.2)].foldl (fun s x =>
      (numberOf ns x.1).elim s fun d => s.tell d (.miswired x.2)) s

/-- R308, R326: the device is the root of a system of n devices; each device learns its number, and ports without a partner are
switched off everywhere. -/
def State.becomeRoot (s : State) (n : Nat) (wires : List (Nat × Nat)) : State :=
  let s := { s with links := { s.links with
      device := some 0, devices := n, isRoot := true, phases := Links.fresh.phases, wires := wires,
      routes := routesOf n wires 0 } }
  let s := (List.range n).foldl (fun s d => s.tell d (.number d n wires)) s
  let s := (List.range n).foldl (fun s d =>
    s.tell d (.portsOff ((List.range 6).filter fun p => !wires.contains (d, p)))) s
  s.portsOff (List.range 6)

/-- R308, R402: SYS_ENUMERATE. -/
def sysEnumerateBody (h : Hdr) (ps : List Byte) (s : State) : Answer :=
  if ps.length != 4 then badLength s
  else
    let n := be ps 0 1
    match firstBad [(wholeOffset, h.device == 0), (0, (shapeOf n).isSome), (1, zeroAt ps 1 3)] with
    | some off => badParam off s
    | none =>
      if s.links.device.isSome && !s.links.isRoot then failWith .wrongState s
      else
        let own := s.ownLinks
        let links := own ++ if n == 1 then [] else Config.foundLinks s.free
        let ns := walk n (bothWays links) Config.serial
        let s1 := own.foldl (fun s l => s.mapPort l.2.1 (markPort n ns l)) { s with free := s.free + 1 }
        let s1 := (links.filter (misWired n ns)).foldl (State.tellMisWired ns) s1
        let whole := (List.range n).all fun d => ns.any fun x => x.1 == d
        if !whole || links.any (misWired n ns) then failWith .wrongState s1
        else if s.holdsWork || (List.range n).any (fun d => d != 0 && Config.remoteBusy s.free d) then failWith .busy s1
        else ok (beBytes 1 n ++ zeros 3) (s1.becomeRoot n (wiresFound ns (bothWays links)))

/-- SYS_ENUMERATE. -/
def execSysEnumerate (h : Hdr) (ps : List Byte) (s : State) : Host.Outcome State Fault Refusal :=
  .next (s.command (.sysEnumerate h ps) 0x0B01 h ps false (sysEnumerateBody h))

/-! ### SYS_PHASE_ASSIGN (R320, R402) -/

/-- R320: a device's phase set, and told to it. -/
def State.setPhase (s : State) (d : Nat) (code : Byte) : State :=
  { s with links := { s.links with phases := s.links.phases.set d code } }.tell d (.phase code)

/-- R320, R402: SYS_PHASE_ASSIGN. -/
def sysPhaseAssignBody (h : Hdr) (ps : List Byte) (s : State) : Answer :=
  if ps.length != 64 then badLength s
  else if h.device != 0 then badParam wholeOffset s
  else if s.links.devices == 0 then failWith .wrongState s
  else
    let named := (List.range 64).filter fun d => be ps d 1 != 0xFF
    match firstBad (named.map fun d => (d, be ps d 1 ≤ 3 && d < s.links.devices)) with
    | some off => badParam off s
    | none =>
      let s1 := { s with free := s.free + 1 }
      if named.any fun d => if d == 0 then s.holdsWork else Config.remoteBusy s.free d then failWith .busy s1
      else ok [] (named.foldl (fun s d => s.setPhase d (ps.getD d 0)) s1)

/-- SYS_PHASE_ASSIGN. -/
def execSysPhaseAssign (h : Hdr) (ps : List Byte) (s : State) : Host.Outcome State Fault Refusal :=
  .next (s.command (.sysPhaseAssign h ps) 0x0B02 h ps false (sysPhaseAssignBody h))

/-! ### SYS_ROUTE (R312, R320, R403) -/

/-- R403: an end entry at an offset. -/
def endAt (ps : List Byte) (o : Nat) : BindEnd :=
  endOf (be ps o 1, be ps (o + 1) 1, ps.getD (o + 2) 0, be ps (o + 3) 1, BitVec.ofNat 32 (be ps (o + 4) 4))

/-- An end as it is told. -/
def BindEnd.told (e : BindEnd) : Nat × Nat × Byte × Nat × Word := (e.device, e.port, e.lsid, e.position, e.job)

/-- The bindings that have not ended. -/
def State.liveBindings (s : State) : List Binding := s.links.bindings.filter fun b => !b.ended

/-- R312: whether an end's port and LSID are bound. -/
def State.pairBound (s : State) (e : BindEnd) : Bool :=
  s.liveBindings.any fun b => (b.send :: b.recvs.filter (·.live)).any fun o =>
    o.device == e.device && o.port == e.port && o.lsid == e.lsid

/-- R312: no two ends of one binding share a device, port and LSID. -/
def endsApart : List BindEnd → Bool
  | [] => true
  | e :: rest => !(rest.any fun o => o.device == e.device && o.port == e.port && o.lsid == e.lsid) && endsApart rest

/-- R190, R312: bytes of a receive window: 8 blocks, with the scale record of each for a narrowed link stream. -/
def windowBytes (narrowed : Bool) (maxBlock window : Nat) : Nat :=
  8 * (64 * maxBlock + if narrowed then roundUp (16 + 8 * window + ceilDiv window 8) 64 else 0)

/-- R312: bytes of a port's 1 MiB receive store that live bindings have reserved. -/
def State.receiveUsed (s : State) (device port : Nat) : Nat :=
  (s.liveBindings.map fun b =>
    (b.recvs.countP fun e => e.live && e.device == device && e.port == port) * windowBytes b.narrowed b.maxBlock b.window).foldl
    (· + ·) 0

/-- R312: the receive windows of a binding fit. -/
def State.windowsFit (s : State) (narrowed : Bool) (maxBlock window : Nat) (recvs : List BindEnd) : Bool :=
  let w := windowBytes narrowed maxBlock window
  recvs.all fun e =>
    let here := recvs.countP fun o => o.device == e.device && o.port == e.port
    s.receiveUsed e.device e.port + here * w ≤ 1048576

/-- R179: the lowest place for a window of scale registers among the 4,096 of a port. -/
def State.scalePlace (s : State) (device port size : Nat) : Option Nat :=
  let used := (s.liveBindings.filter fun b => b.send.device == device && b.send.port == port && b.window != 0).map fun b =>
    (b.base, b.base + b.window)
  let starts := (0 :: used.map (·.2)).filter fun b =>
    b + size ≤ 4096 && used.all fun r => b + size ≤ r.1 || r.2 ≤ b
  match starts with
  | [] => none
  | b :: bs => some (bs.foldl min b)

/-- R320: the rule of a kind at SYS_ROUTE. -/
def State.phasesAllow (s : State) (kind send : Nat) (recvs : List Nat) : Bool :=
  let phase := fun (d : Nat) => (nth s.links.phases d 0).toNat
  match kind with
  | 2 => (phase send == 1 || phase send == 2) && recvs.all fun d => phase d == 3
  | 3 => phase send == 3 && recvs.all fun d => phase d == 2
  | _ => true

/-- R312: whether a device can be reached from another. -/
def State.linked (s : State) (a b : Nat) : Bool :=
  a == b || ((pathOf s.links.devices s.links.wires false a b).isSome && (pathOf s.links.devices s.links.wires true a b).isSome)

/-- R312: the lowest free binding number. -/
def State.freeBinding (s : State) : Option Nat :=
  (List.range 65536).find? fun n => !s.liveBindings.any fun b => b.number == n

/-- R312, R403: the checks of the parameters of OP 0. -/
def State.bindChecks (s : State) (ps : List Byte) : List (Nat × Bool) :=
  let kind := be ps 1 1; let narrowed := kind == 1 || bitOf kind 7
  let n := be ps 8 1
  let devices := max 1 s.links.devices
  let good := fun (e : BindEnd) => e.device < devices && e.port ≤ 5
  let offs := (List.range n).map fun i => 24 + 8 * i
  [(1, [0, 1, 2, 3, 0x82, 0x83].contains kind), (2, zeroAt ps 2 2), (4, 1 ≤ be ps 4 2 && be ps 4 2 ≤ 4096),
   (6, if narrowed then 1 ≤ be ps 6 2 && be ps 6 2 ≤ 4096 else be ps 6 2 == 0), (8, 1 ≤ n && n ≤ 16), (9, zeroAt ps 9 7),
   (16, good (endAt ps 16) && !s.pairBound (endAt ps 16))]
  ++ offs.map (fun o => (o, good (endAt ps o) && !s.pairBound (endAt ps o)))
  ++ [(24, endsApart (endAt ps 16 :: offs.map (endAt ps)))]

/-- R312: the binding is made, and told to every device: those on its routes tell by it which port of a pair its blocks take, and
where they are copied (R305, R319; log 176). -/
def State.bindNow (s : State) (b : Binding) : State :=
  let told := Control.bind b.number b.kind b.maxBlock b.window b.base b.narrowed ((b.send :: b.recvs).map BindEnd.told)
  (s.placeBinding b).tellAll told

/-- R312: OP 0. -/
def sysBind (ps : List Byte) (s : State) : Answer :=
  match firstBad (s.bindChecks ps) with
  | some off => badParam off s
  | none =>
    let kind := be ps 1 1; let narrowed := kind == 1 || bitOf kind 7
    let maxBlock := be ps 4 2; let window := be ps 6 2
    let send := endAt ps 16
    let recvs := (List.range (be ps 8 1)).map fun i => endAt ps (24 + 8 * i)
    if !s.phasesAllow (kind % 128) send.device (recvs.map (·.device)) then failWith .wrongState s
    else if (send :: recvs).any fun e => !s.linked send.device e.device || !s.linked e.device send.device then
      failWith .linkDown s
    else if !s.windowsFit narrowed maxBlock window recvs then failWith .noSpace s
    else
      match s.scalePlace send.device send.port window, s.freeBinding with
      | some base, some n =>
        let b := bindingOf n (kind % 128) maxBlock window base narrowed send recvs
        ok (beBytes 2 n ++ zeros 2) (s.bindNow b)
      | _, _ => failWith .noSpace s

/-- R403: whether the job at an end is Not ready. -/
def State.endNotReady (s : State) (e : BindEnd) : Bool :=
  if e.device == s.deviceNo then (s.job? e.job).any fun j => !j.ready else Config.remoteJob s.free e.device e.job

/-- R403: OP 1. -/
def sysUnbind (ps : List Byte) (s : State) : Answer :=
  let n := be ps 2 2
  match s.liveBindings.find? fun b => b.number == n with
  | none => failWith .noContext s
  | some b =>
    let s1 := { s with free := s.free + 1 }
    if (b.send :: b.recvs.filter (·.live)).any s.endNotReady then failWith .busy s1
    else ok [] ((s1.dropBinding n).tellAll (.unbind n))

/-- R403: SYS_ROUTE, both forms. -/
def sysRouteBody (h : Hdr) (ps : List Byte) (s : State) : Answer :=
  if ps.length < 24 || ps.length != 24 + 8 * be ps 8 1 then badLength s
  else
    match firstBad [(wholeOffset, h.device == 0), (0, be ps 0 1 ≤ 1), (9, be ps 0 1 == 0 || zeroAt ps 9 7)] with
    | some off => badParam off s
    | none => if be ps 0 1 == 0 then sysBind ps s else sysUnbind ps s

/-- SYS_ROUTE, OP 0. -/
def execSysRouteBind (h : Hdr) (ps : List Byte) (s : State) : Host.Outcome State Fault Refusal :=
  .next (s.command (.sysRouteBind h ps) 0x0B03 h ps false (sysRouteBody h))

/-- SYS_ROUTE, OP 1. -/
def execSysRouteUnbind (h : Hdr) (ps : List Byte) (s : State) : Host.Outcome State Fault Refusal :=
  .next (s.command (.sysRouteUnbind h ps) 0x0B03 h ps false (sysRouteBody h))

/-! ### LINK_STATUS (R180, R303, R404) -/

/-- R303: STATE. -/
def PortState.code (p : PortState) : Nat :=
  match p with
  | .off => 0
  | .training => 1
  | .up => 2
  | .retraining => 3
  | .failed => 4
  | .miswired => 5

/-- R303: NEIGHBOUR: 0xFF before enumeration or while the port is not up. -/
def State.neighbourOf (s : State) (p : Selvage) : Byte :=
  if s.links.device.isNone || p.state != .up then 0xFF else p.neighbour

/-- R303: the port record. -/
def State.selvageRecord (s : State) (n : Nat) : List Byte :=
  let p := s.port n
  beBytes 4 p.fecFixed.toNat ++ beBytes 4 p.resends.toNat
    ++ beBytes 8 ((s.neighbourOf p).toNat * 2 ^ 56 + p.farPort.toNat * 2 ^ 53 + p.lanesGood.toNat * 2 ^ 45 + p.width * 2 ^ 43
      + p.state.code * 2 ^ 40 + p.retrains.toNat * 2 ^ 32 + p.e2eFails.toNat * 2 ^ 16 + p.farSerial.toNat % 2 ^ 16)

/-- R180: the window register of a link stream. -/
def LinkStream.register (t : LinkStream) : Nat :=
  t.base * 2 ^ 44 + (t.size - 1) * 2 ^ 32 + (if t.lost then 2 ^ 29 else 0) + (if t.valid then 2 ^ 28 else 0)
    + (if t.zpm then 2 ^ 27 else 0) + t.fn.toNat * 2 ^ 23 + (t.channels - 1)

/-- R404: the record of a link stream. -/
def LinkStream.record (t : LinkStream) (port : Nat) : List Byte :=
  beBytes 1 port ++ [t.lsid] ++ beBytes 2 t.binding ++ zeros 4 ++ beBytes 8 t.register ++ beBytes 8 t.elements.toNat
    ++ beBytes 8 t.sse.toNat ++ beBytes 4 t.drift.toNat ++ zeros 4

/-- R180: scale register i of a port; one that nothing has loaded reads zero. -/
def Selvage.scaleRecord (p : Selvage) (i : Nat) : List Byte :=
  match p.scales.find? fun r => r.1 == i with
  | some r => beBytes 8 (if r.2.const then 1 else 0) ++ beBytes 4 r.2.scale.toNat ++ beBytes 4 r.2.zp.toNat
  | none => zeros 16

/-- R404: the bound link streams of a port from an LSID on, in ascending order. -/
def State.boundStreams (s : State) (port first count : Nat) : List LinkStream :=
  let live := fun (t : LinkStream) => s.liveBindings.any fun b => b.number == t.binding
  (List.range count).filterMap fun i =>
    (s.port port).streams.find? fun t => t.lsid.toNat == first + i && live t

/-- R404: the counters of a port cleared. -/
def Selvage.cleared (p : Selvage) : Selvage := { p with fecFixed := 0, resends := 0, retrains := 0, e2eFails := 0 }

/-- R404: the counts of the link streams read cleared. -/
def Selvage.clearStreams (p : Selvage) (read : List Byte) : Selvage :=
  { p with streams := p.streams.map fun t => if read.contains t.lsid then { t with elements := 0, sse := 0, drift := 0 } else t }

/-- R404: LINK_STATUS. -/
def linkStatusBody (ps : List Byte) (s : State) : Answer :=
  if ps.length != 8 then badLength s
  else
    let ports := be ps 0 1; let flags := be ps 1 1; let sport := be ps 2 1
    let first := be ps 4 2; let count := be ps 6 2
    let streams := bitOf flags 1; let scales := bitOf flags 2
    match firstBad [(0, ports < 64), (1, flags < 32 && !(streams && scales)), (2, sport ≤ 5 || !(streams || scales)),
        (3, zeroAt ps 3 1),
        (4, (!streams || first + count ≤ 256) && (!scales || first + count ≤ 4096)),
        (6, (!streams || (1 ≤ count && count ≤ 200)) && (!scales || (1 ≤ count && count ≤ 512)))] with
    | some off => badParam off s
    | none =>
      let named := (List.range 6).filter (bitOf ports)
      let read := if streams then s.boundStreams sport first count else []
      let reply := named.flatMap s.selvageRecord ++ read.flatMap (fun t => t.record sport)
        ++ if scales then (List.range count).flatMap fun i => (s.port sport).scaleRecord (first + i) else []
      let s := if bitOf flags 3 then named.foldl (fun s n => s.mapPort n .cleared) s else s
      let s := if bitOf flags 4 then s.mapPort sport fun p => p.clearStreams (read.map (·.lsid)) else s
      ok reply s

/-- LINK_STATUS. -/
def execLinkStatus (h : Hdr) (ps : List Byte) (s : State) : Host.Outcome State Fault Refusal :=
  .next (s.command (.linkStatus h ps) 0x0B04 h ps false linkStatusBody)

end Sys2Proof.Machine
end

