-- ==== Sys2Proof/Machine/Selvages.lean ====
section
/-!
DEFINITION. The events of the Selvage ports: flits (R298 to R300, R307), training (R301, R302), messages (R314, R317, R319), blocks and
their acknowledgements (R191 to R193, R316, R317, R321), Scale unit faults (R542).
-/
namespace Sys2Proof.Machine

open Sys2Proof

/-! ### Flits (R298 to R300) -/

/-- Whether a port receives: powered, trained, its pads not latched, and the device past its boot. -/
def State.portListens (s : State) (n : Nat) : Bool := s.started && s.portSends n

/-- R298, R303: the data bytes of a received flit, none when a segment or the CRC fails, and the segments corrected. -/
def readFlit (bytes : List Byte) : Option (List Byte) × Nat :=
  let segs := (List.range 8).map fun n => rsDecode (padTo 64 (slice bytes (64 * n) 64))
  if bytes.length != 512 then (none, 0)
  else
    let parts := segs.filterMap id
    let data := parts.flatMap (·.1)
    let whole := parts.length == 8 && le data 476 4 == (crc32c (data.take 476)).toNat
    (if whole then some data else none, parts.countP (·.2))

/-- R298: the fields that are used hold values that are used. -/
def flitOk (d : List Byte) : Bool :=
  let type := bitsOf (le d 0 1) 3 0
  type ≤ 2 && bitsOf (le d 0 1) 6 4 ≤ 4 && bitsOf (le d 6 2) 10 8 ≤ 4 && le d 10 2 ≤ 464

/-- R300: the flits of the replay buffer from a SEQ on; those before it are acknowledged. -/
def Selvage.unackedFrom (p : Selvage) (ack : BitVec 12) : List (BitVec 12 × TxFlit) :=
  if p.replay.any (fun f => f.1 == ack) then p.replay.dropWhile fun f => f.1 != ack
  else if ack == p.txSeq then [] else p.replay

/-- R299, R300: the ACK, NAK and CREDIT of a received flit. -/
def State.takeAck (s : State) (n : Nat) (d : List Byte) : State :=
  let ack : BitVec 12 := BitVec.ofNat 12 (le d 4 2)
  let nak := bitOf (le d 4 2) 12
  let credit := bitsOf (le d 6 2) 7 0; let cls := bitsOf (le d 6 2) 10 8
  let rest := (s.port n).unackedFrom ack
  let s := s.mapPort n fun p => { p with replay := rest, credits := p.credits.modify cls (· + credit) }
  let s := if nak then s.resendFlits n rest true else s
  s.pumpPort n

/-- The key of the message in progress of a source and class. -/
def partialKey (src : Byte) (cls : Nat) : Nat := 8 * src.toNat + cls

/-- R298, R314: a flit's payload joins its message; the last flit completes it. -/
def Selvage.gather (p : Selvage) (src : Byte) (cls : Nat) (first last : Bool) (payload : List Byte) : Selvage :=
  let key := partialKey src cls
  let before := if first then [] else ((p.partials.find? fun x => x.1 == key).map (·.2)).getD []
  let rest := p.partials.filter fun x => x.1 != key
  let bytes := before ++ payload
  if last then { p with partials := rest, messages := p.messages ++ [(src, bytes)] }
  else { p with partials := rest ++ [(key, bytes)] }

/-- R305, R307: whether a message on its way is of a binding of odd number: the one whose receive end it names, or, on class 4, comes
from. -/
def State.passesOdd (s : State) (cls : Nat) (src dest : Byte) (m : List Byte) : Bool :=
  let device := if cls == 4 then src.toNat else dest.toNat
  let names := fun (e : BindEnd) => e.live && e.device == device && e.port == le m 1 1 && e.lsid == m.getD 2 0
  cls != 0 && (s.links.bindings.find? fun b => !b.ended && b.recvs.any names).any Binding.odd

/-- R305 to R307: the port of this device on the route between two devices; this device's own route where it lies on no such route. -/
def State.portBetween (s : State) (odd : Bool) (src dest : Nat) : Option Nat :=
  (((pathOf s.links.devices s.links.wires odd src dest).bind fun path => path.find? fun x => x.1 == s.ownNumber).map (·.2)).or
    (s.routePort dest odd)

/-- R307: a flit for another device goes on by its route's next port; the flits of a message all take the port of the first. -/
def State.passOn (s : State) (n : Nat) (f : TxFlit) : State :=
  let key := (f.src, f.cls, f.dest)
  let odd :=
    if f.first then s.passesOdd f.cls f.src f.dest f.payload
    else ((s.port n).passing.find? fun x => x.1 == key).any (·.2)
  let s := s.mapPort n fun p =>
    let rest := p.passing.filter fun x => x.1 != key
    { p with passing := if f.last then rest else rest ++ [(key, odd)] }
  match s.portBetween odd f.src.toNat f.dest.toNat with
  | some m => s.queueFlits m [f]
  | none => s

/-- R298, R307: the content of an accepted data flit: of a message for this device, or on its way to another. -/
def State.takePayload (s : State) (n : Nat) (d : List Byte) : State :=
  let cls := bitsOf (le d 0 1) 6 4
  let first := bitOf (le d 1 1) 0; let last := bitOf (le d 1 1) 1
  let dest := d.getD 8 0; let src := d.getD 9 0
  let payload := slice d 12 (le d 10 2)
  if s.links.device.isNone || dest.toNat == s.deviceNo then s.mapPort n fun p => p.gather src cls first last payload
  else s.passOn n ⟨cls, dest, src, first, last, payload, true⟩

/-- R300: a data flit: accepted when its SEQ is the expected one, and acknowledged by the 32nd. -/
def State.takeData (s : State) (n : Nat) (d : List Byte) : State :=
  let seq : BitVec 12 := BitVec.ofNat 12 (le d 2 2)
  if seq != (s.port n).rxSeq then s
  else
    let cls := bitsOf (le d 0 1) 6 4
    let s := s.mapPort n fun p =>
      { p with rxSeq := p.rxSeq + 1, nakked := false, unacked := p.unacked + 1, owed := p.owed.modify cls (· + 1) }
    let s := s.takePayload n d
    if 32 ≤ (s.port n).unacked then s.acknowledge n else s

/-- R300: a flit that failed is discarded, and the first of a run is answered by a NAK. -/
def State.badFlit (s : State) (n : Nat) : State :=
  if (s.port n).nakked then s else (s.sendControlFlit n true).mapPort n fun p => { p with nakked := true }

/-- R298 to R300: a received flit. -/
def State.takeFlit (s : State) (n : Nat) (bytes : List Byte) : State :=
  let (data, fixed) := readFlit bytes
  let s := s.mapPort n fun p => { p with fecFixed := satAdd p.fecFixed fixed }
  match data with
  | none => s.badFlit n
  | some d =>
    if !flitOk d then s
    else
      let s := s.takeAck n d
      if bitsOf (le d 0 1) 3 0 == 1 then s.takeData n d else s

/-- FLIT_RECEIVED. -/
def execFlitReceived (port : Nat) (bytes : List Byte) (s : State) : Host.Outcome State Fault Refusal :=
  .next (if s.portListens port then s.takeFlit port bytes else s)

/-- ACK_TIMER: 128 word periods after the oldest unacknowledged receipt. -/
def execAckTimer (port : Nat) (s : State) : Host.Outcome State Fault Refusal :=
  .next (if s.portListens port && (s.port port).unacked != 0 then s.acknowledge port else s)

/-- REPLAY_TIMEOUT: 4,096 word periods without an ACK. -/
def execReplayTimeout (port : Nat) (s : State) : Host.Outcome State Fault Refusal :=
  .next (if s.portListens port then s.resendFlits port (s.port port).replay true else s)

/-! ### Training (R301, R302) -/

/-- R302, R559: the code of a retraining's cause. -/
def causeCode (c : RetrainCause) : Nat :=
  match c with
  | .resends => 0
  | .lockLost => 1
  | .noFlit => 2

/-- PORT_RETRAIN. -/
def execPortRetrain (port : Nat) (cause : RetrainCause) (s : State) : Host.Outcome State Fault Refusal :=
  .next (if s.portListens port then
      let s := s.mapPort port fun p =>
        { p with state := .retraining, retrains := satAdd p.retrains 1, cause := some (causeCode cause) }
      s.portChanged port
    else s)

/-- R301 step 5: the width that the lanes allow, as WIDTH codes it; 0 when the training fails. -/
def widthOf (lanes : BitVec 8) : Nat :=
  if lanes == 0xFF then 2 else if fld lanes 3 0 == 15 || fld lanes 7 4 == 15 then 1 else 0

/-- R301, R308: whether an enumerated device's port has the partner that R305 gives it. -/
def State.partnerRight (s : State) (port : Nat) (t : Training) : Bool :=
  match s.links.device, t.farDevice with
  | some d, some f => farEnd s.links.devices d port == some (f, t.farPort.toNat)
  | _, _ => true

/-- R309, R301: NEIGHBOUR of a port that has trained. The root knows whom it has numbered, and tells a partner that has
lost its number. -/
def State.partnerNumber (s : State) (port : Nat) (t : Training) : Byte :=
  match t.farDevice with
  | some f => BitVec.ofNat 8 f
  | none => BitVec.ofNat 8 (((s.links.device.bind fun d => farEnd s.links.devices d port).map (·.1)).getD 0xFF)

/-- R301: a training succeeds. -/
def State.trained (s : State) (port : Nat) (t : Training) : State :=
  let again := (s.port port).cause
  let width := widthOf t.lanesGood
  let near := s.partnerNumber port t
  let st : PortState := if s.partnerRight port t then .up else .miswired
  let s := s.mapPort port fun p =>
    { p with
      state := st, width := width, lanesGood := t.lanesGood, neighbour := near, farPort := t.farPort,
      farSerial := t.farSerial, farRevision := t.farRevision, coeffs := true, trainFails := 0, cause := none }
  let s := match again with
    | some c => s.service 0x8020 (leBytes 1 port ++ leBytes 1 c ++ leBytes 1 width)
    | none => s
  let s := s.resendFlits port (s.port port).replay false
  (s.pumpPort port).portChanged port

/-- R301, R302: a training fails; the third in a row fails the port. -/
def State.untrained (s : State) (port : Nat) (lanes : Option (BitVec 8)) : State :=
  let dead := 3 ≤ (s.port port).trainFails + 1
  let s := s.mapPort port fun p =>
    { p with
      trainFails := p.trainFails + 1, lanesGood := lanes.getD 0, width := 0, state := if dead then .failed else p.state }
  if dead then ((s.service 0x8021 (leBytes 1 port)).mapPort port fun p => { p with cause := none }).portChanged port else s

/-- R301: whether a port trains now. -/
def State.portTrains (s : State) (port : Nat) : Bool :=
  s.started && s.padsOpen (100 + port) && ((s.port port).state == .training || (s.port port).state == .retraining)

/-- R301 step 4: a port's identity flit, sent to the partner with which it has aligned. -/
def State.identify (s : State) (port : Nat) : State := s.emitFlit port (Config.identityFlit Config.serial port 0xB1 s.links.device)

/-- PORT_TRAINING. -/
def execPortTraining (port : Nat) (found : Option Training) (s : State) : Host.Outcome State Fault Refusal :=
  .next (if !s.portTrains port then s
    else
      match found with
      | none => s.untrained port none
      | some t =>
        let s := s.identify port
        if widthOf t.lanesGood == 0 then s.untrained port (some t.lanesGood) else s.trained port t)

/-- FAILED_PORT_RETRY. -/
def execFailedPortRetry (port : Nat) (s : State) : Host.Outcome State Fault Refusal :=
  .next (if s.started && s.padsOpen (100 + port) && (s.port port).state == .failed then
      s.mapPort port fun p => { p with state := .training }
    else s)

/-! ### Acknowledgements and resending (R191, R192, R316, R317, R321) -/

/-- R321: the block numbers that a detached end may now be sent: its first 8 unacknowledged ones, those of them that it was
not sent before. -/
def Binding.newlySent (b : Binding) (before after : Word) : List (Word × Byte × List Byte × List Byte) :=
  b.store.filter fun blk => (blk.1 - after).toNat < 8 && 8 ≤ (blk.1 - before).toNat

/-- R321: a detached end that has acknowledged every block that all attached ends have acknowledged is attached again. -/
def Binding.reattach (b : Binding) (i : Nat) : Binding :=
  let attached := b.recvs.filter fun e => e.live && e.attached
  let most := (attached.map b.behind).foldl max 0
  { b with recvs := b.recvs.modify i fun e => if b.behind e ≤ most then { e with attached := true } else e }

/-- R316, R321: a receive end acknowledges every block up to one: store room is free, and a detached end gets more. -/
def State.ackBlock (s : State) (b : Binding) (i : Nat) (e : BindEnd) (seq : Word) : State :=
  let next := seq + 1
  if e.has seq || 2 ^ 31 ≤ (b.nextSeq - next).toNat then s
  else
    let more := if e.attached then [] else b.newlySent e.acked next
    let b1 := { b with recvs := b.recvs.modify i fun e => { e with acked := next } }
    let b2 := if e.attached then b1 else b1.reattach i
    let b3 := b2.prune.settle
    let s := ((s.mapBinding b.number fun _ => b3).tellAttached b1 b2).tellLeft b b3
    more.foldl (fun s blk => s.sendBlock b e blk) s

/-- R192, R317: the blocks of the store from one on, sent again to a receive end. -/
def State.resendFrom (s : State) (b : Binding) (e : BindEnd) (seq : Word) : State :=
  (b.store.filter fun blk => (blk.1 - seq).toNat < 2 ^ 31).foldl (fun s blk => s.sendBlock b e blk) s

/-- A live receive end of a binding that sends from this device. -/
def State.sendingTo (s : State) (binding i : Nat) : Option (Binding × BindEnd) :=
  (s.binding? binding).bind fun b =>
    if b.ended || b.send.device != s.deviceNo then none
    else (b.recvs[i]?).bind fun e => if e.live then some (b, e) else none

/-- BLOCK_ACK. -/
def execBlockAck (binding recvEnd : Nat) (blockSeq : Word) (s : State) : Host.Outcome State Fault Refusal :=
  .next (match s.sendingTo binding recvEnd with
    | some (b, e) => if s.started then s.ackBlock b recvEnd e blockSeq else s
    | none => s)

/-- RETRANSMIT_REQUEST. -/
def execRetransmitRequest (binding recvEnd : Nat) (blockSeq : Word) (s : State) : Host.Outcome State Fault Refusal :=
  .next (match s.sendingTo binding recvEnd with
    | some (b, e) => if s.started then s.resendFrom b e blockSeq else s
    | none => s)

/-! ### Recovery and pairing (R191 to R193) -/

/-- The binding and receive end of a link stream at a port of this device. -/
def State.receiving (s : State) (port : Nat) (lsid : Byte) : Option (Binding × BindEnd) :=
  s.links.bindings.findSome? fun b =>
    (b.recvs.find? fun e => e.live && !b.ended && e.device == s.deviceNo && e.port == port && e.lsid == lsid).map
      fun e => (b, e)

/-- R192: recovery starts: what is unmatched is discarded, DRIFT_COUNT rises, and the expected block is asked for; R193: the
fourth start in a row fails the link stream. -/
def State.recover (s : State) (port : Nat) (b : Binding) (e : BindEnd) (t : LinkStream) : State :=
  if 4 ≤ t.recoveries + 1 then s.failBinding b.number
  else
    let s := s.mapLinkStream port t.lsid fun t =>
      { t with
        data := [], records := [], drift := satAdd t.drift 1, recovering := true, recoveries := t.recoveries + 1 }
    s.sendMessage none b.odd b.send.device 6 e.port e.lsid 0 t.expSeq []

/-- R191: the oldest block and record form a pair of the expected tag: it is whole, acknowledged, and the tag advances. -/
def State.pair (s : State) (port : Nat) (b : Binding) (e : BindEnd) (t : LinkStream) (block record : List Byte) : State :=
  let s := s.mapLinkStream port t.lsid fun t =>
    { t with
      data := t.data.drop 1, records := t.records.drop 1, ready := t.ready ++ [(t.expSeq, block, record)],
      expTag := t.expTag + 1, expSeq := t.expSeq + 1, recovering := false, recoveries := 0 }
  s.sendAck b e t.expSeq

/-- R191, R192: the oldest data block and the oldest scale record of a link stream, when both are there. -/
def State.matchPair (s : State) (port : Nat) (lsid : Byte) : State :=
  match s.receiving port lsid, s.linkStream? port lsid with
  | some (b, e), some t =>
    match t.data.head?, t.records.head? with
    | some d, some r =>
      if d.1 == t.expTag && r.1 == t.expTag then s.pair port b e t d.2 r.2 else s.recover port b e t
    | _, _ => s
  | _, _ => s

/-- PAIR_MATCH. -/
def execPairMatch (port : Nat) (lsid : Byte) (s : State) : Host.Outcome State Fault Refusal :=
  .next (if s.started && s.domainOn (100 + port) then s.matchPair port lsid else s)

/-! ### Messages (R310, R314, R317) -/

/-- R317: whether a block precedes the one that its end expects. -/
def LinkStream.past (t : LinkStream) (seq : Word) : Bool := decide (1 ≤ (t.expSeq - seq).toNat) && decide ((t.expSeq - seq).toNat ≤ 2 ^ 31)

/-- R316, R317: the first block that waits to be taken: those before it have been acknowledged. -/
def LinkStream.oldest (t : LinkStream) : Word := (t.ready.head?.map (·.1)).getD t.expSeq

/-- R317: a block that an end has had before is acknowledged again, once it has been. -/
def State.ackAgain (s : State) (b : Binding) (e : BindEnd) (t : LinkStream) (seq : Word) : State :=
  let done := if b.narrowed then true else decide (1 ≤ (t.oldest - seq).toNat) && decide ((t.oldest - seq).toNat ≤ 2 ^ 31)
  if done then s.sendAck b e seq else s

/-- R317: a raw block: the next one is whole in the window; one that follows a missing block is not taken. -/
def State.takeRaw (s : State) (port : Nat) (b : Binding) (e : BindEnd) (t : LinkStream) (seq : Word) (body : List Byte) : State :=
  if t.past seq then s.ackAgain b e t seq
  else if seq != t.expSeq then s
  else s.mapLinkStream port t.lsid fun t => { t with ready := t.ready ++ [(seq, body, [])], expSeq := t.expSeq + 1 }

/-- R191: the oldest block and record both carry the expected tag. -/
def LinkStream.paired (t : LinkStream) : Bool :=
  t.data.head?.any (fun d => d.1 == t.expTag) && t.records.head?.any fun r => r.1 == t.expTag

/-- R191, R192, R317: a code block or a scale record joins its stream; during recovery only those of the expected tag do. -/
def State.takeCoded (s : State) (port : Nat) (b : Binding) (e : BindEnd) (t : LinkStream) (isRecord : Bool) (tag : Byte)
    (seq : Word) (body : List Byte) : State :=
  if t.past seq then s.ackAgain b e t seq
  else if t.recovering && tag != t.expTag && !t.paired then s
  else
    s.mapLinkStream port t.lsid fun t =>
      if isRecord then { t with records := t.records ++ [(tag, body)] } else { t with data := t.data ++ [(tag, body)] }

/-- R317: a message whose MCRC fails is discarded and counted, and a block is asked for again. -/
def State.badMessage (s : State) (n mtype dport : Nat) (lsid : Byte) (seq : Word) : State :=
  let s := s.mapPort n fun p => { p with e2eFails := satAdd p.e2eFails 1 }
  match s.receiving dport lsid, s.linkStream? dport lsid with
  | some (b, e), some t =>
    if mtype == 2 then s.sendMessage none b.odd b.send.device 6 e.port e.lsid 0 seq []
    else if mtype == 3 || mtype == 4 then s.recover dport b e t else s
  | _, _ => s

/-- R314, R316: the send end's binding and the receive end that an acknowledgement or request came from. -/
def State.ackedEnd (s : State) (src : Byte) (dport : Nat) (lsid : Byte) : Option (Binding × Nat × BindEnd) :=
  s.links.bindings.findSome? fun b =>
    if b.ended || b.send.device != s.deviceNo then none
    else
      (b.recvs.zipIdx.find? fun x =>
        x.1.live && x.1.device == src.toNat && x.1.port == dport && x.1.lsid == lsid).map fun x => (b, x.2, x.1)

/-- R310, R503: a packet on class 0: a reply or event that the root passes to the host, which an entry of its own may await, or a
command. -/
def State.takePacket (s : State) (bytes : List Byte) : State :=
  if fld (bytes.getD 3 0) 1 0 != 0 then
    let s := if s.links.isRoot && s.hostLinkUp then s.emit (.relay bytes) else s
    let answers := s.power.transition.any fun t =>
      bitOf (be bytes 3 1) 0 && be bytes 4 2 == 0x0601 && t.asked.any fun a => a.2.1.toNat == be bytes 8 4
    if answers then s.replied fun d => d == be bytes 12 1 else s
  else s.receiveRaw .selvage ⟨[], 0⟩ bytes

/-- R319: the binding whose send end a group message names, and those of its ends whose routes lead here by the port that it came
in by. -/
def State.groupOf (s : State) (n : Nat) (src : Byte) (sport : Nat) (lsid : Byte) : Option (Binding × List BindEnd) :=
  let sends := fun (b : Binding) => !b.ended && b.send.device == src.toNat && b.send.port == sport && b.send.lsid == lsid
  (s.links.bindings.find? sends).map fun b =>
    let here := fun (e : BindEnd) =>
      (pathOf s.links.devices s.links.wires b.odd src.toNat e.device).any fun path =>
        path.any fun x => farEnd s.links.devices x.1 x.2 == some (s.ownNumber, n)
    (b, b.recvs.filter fun e => e.live && e.attached && here e)

/-- R314: a message with the receive end that it is for. -/
def addressTo (m : List Byte) (e : BindEnd) : List Byte := m.take 1 ++ leBytes 1 e.port ++ [e.lsid] ++ m.drop 3

/-- R319: a block of several receive ends goes on where their routes divide: one copy by each port, and one to each end on this
device. -/
def State.spread (s : State) (n : Nat) (src : Byte) (mtype sport : Nat) (lsid : Byte) (m : List Byte) : State :=
  match s.groupOf n src sport lsid with
  | none => s
  | some (b, ends) =>
    let near := ends.filter fun e => e.device == s.ownNumber
    let far := ends.filterMap fun e =>
      if e.device == s.ownNumber then none else (s.portBetween b.odd src.toNat e.device).map fun p => (p, e)
    let s := near.foldl (fun s e => s.mapPort e.port fun p => { p with messages := p.messages ++ [(src, addressTo m e)] }) s
    ((far.map (·.1)).eraseDups).foldl (fun s p =>
      match far.filter fun x => x.1 == p with
      | [x] => s.messageFrom src p x.2.device mtype (addressTo m x.2)
      | _ => s.messageFrom src p (((farEnd s.links.devices s.ownNumber p).map (·.1)).getD 0) mtype m) s

/-- R314 to R317, R319: a whole message that has reached this device. -/
def State.takeMessage (s : State) (n : Nat) (src : Byte) (m : List Byte) : State :=
  let mtype := le m 0 1; let dport := le m 1 1; let lsid := m.getD 2 0; let tag := m.getD 3 0
  let seq : Word := BitVec.ofNat 32 (le m 4 4)
  let body := m.drop 16
  if 128 ≤ dport && 2 ≤ mtype && mtype ≤ 4 then s.spread n src mtype (dport - 128) lsid m
  else if m.length < 16 || le m 8 4 != body.length || le m 12 4 != (crc32c body).toNat then s.badMessage n mtype dport lsid seq
  else
    match mtype with
    | 1 => s.takePacket body
    | 2 | 3 | 4 =>
      match s.receiving dport lsid, s.linkStream? dport lsid with
      | some (b, e), some t =>
        if mtype == 2 then (if b.narrowed then s else s.takeRaw dport b e t seq body)
        else if b.narrowed then s.takeCoded dport b e t (mtype == 4) tag seq body else s
      | _, _ => s
    | 5 => (s.ackedEnd src dport lsid).elim s fun x => s.ackBlock x.1 x.2.1 x.2.2 seq
    | 6 => (s.ackedEnd src dport lsid).elim s fun x => s.resendFrom x.1 x.2.2 seq
    | 7 => (Config.controlOf body).elim s s.obey
    | _ => s

/-- LINK_MESSAGE: the oldest whole message of a port. -/
def execLinkMessage (port : Nat) (s : State) : Host.Outcome State Fault Refusal :=
  .next (match (s.port port).messages with
    | [] => s
    | (src, m) :: rest =>
      if s.started then (s.mapPort port fun p => { p with messages := rest }).takeMessage port src m else s)

/-! ### Scale unit faults (R193, R542) -/

/-- R542: the Scale unit of a port abandons the card that it runs. -/
def State.scaleAbandoned (s : State) (port : Nat) : State :=
  match (s.sched.scale.find? fun q => q.1 == port).bind fun q => s.ctx? q.2.1 q.2.2 with
  | some c => s.abandonScale c
  | none => s

/-- SCALE_UNIT_FAULT: the card in progress is abandoned and issues again; a third fault within 60 operating minutes fails the link
streams of the port. -/
def execScaleUnitFault (port : Nat) (s : State) : Host.Outcome State Fault Refusal :=
  .next (if !(s.started && s.domainOn (100 + port)) then s
    else
      let faults := recentFaults (s.port port).scaleFaults s.recorder.minutes
      let s := (s.scaleAbandoned port).mapPort port fun p => { p with scaleFaults := faults }
      if faults.length < 3 then s
      else ((s.port port).streams.map (·.binding)).eraseDups.foldl State.failBinding s)

end Sys2Proof.Machine
end

