-- ==== Sys2Proof/Machine/Dispatch.lean ====
section
/-!
DEFINITION. One arm per constructor of `Instr`: the meaning that each command calls.
-/
namespace Sys2Proof.Machine

open Sys2Proof

/-- The effect of a command on everything but the queue. -/
def exec (i : Instr) (s : State) : Host.Outcome State Fault Refusal :=
  match i with
  | .hello h ps => Sys2Proof.Machine.execHello h ps s
  | .identify h ps => Sys2Proof.Machine.execIdentify h ps s
  | .ping h ps => Sys2Proof.Machine.execPing h ps s
  | .status h ps => Sys2Proof.Machine.execStatus h ps s
  | .reset h ps => Sys2Proof.Machine.execReset h ps s
  | .paceRead h ps => Sys2Proof.Machine.execPaceRead h ps s
  | .modelLoadOpen h ps => Sys2Proof.Machine.execModelLoadOpen h ps s
  | .modelLoadSegment h ps => Sys2Proof.Machine.execModelLoadSegment h ps s
  | .modelLoadCommit h ps => Sys2Proof.Machine.execModelLoadCommit h ps s
  | .modelVerify h ps => Sys2Proof.Machine.execModelVerify h ps s
  | .modelUnload h ps => Sys2Proof.Machine.execModelUnload h ps s
  | .memWrite h ps => Sys2Proof.Machine.execMemWrite h ps s
  | .memLayoutWrite h ps => Sys2Proof.Machine.execMemLayoutWrite h ps s
  | .memRead h ps => Sys2Proof.Machine.execMemRead h ps s
  | .deckLoad h ps => Sys2Proof.Machine.execDeckLoad h ps s
  | .deckUnload h ps => Sys2Proof.Machine.execDeckUnload h ps s
  | .jobSubmit h ps => Sys2Proof.Machine.execJobSubmit h ps s
  | .jobCancel h ps => Sys2Proof.Machine.execJobCancel h ps s
  | .jobStatus h ps => Sys2Proof.Machine.execJobStatus h ps s
  | .resultFetch h ps => Sys2Proof.Machine.execResultFetch h ps s
  | .resultRelease h ps => Sys2Proof.Machine.execResultRelease h ps s
  | .sharesSetClient h ps => Sys2Proof.Machine.execSharesSetClient h ps s
  | .sharesReadClient h ps => Sys2Proof.Machine.execSharesReadClient h ps s
  | .schedConfigWrite h ps => Sys2Proof.Machine.execSchedConfigWrite h ps s
  | .schedConfigRead h ps => Sys2Proof.Machine.execSchedConfigRead h ps s
  | .accountRead h ps => Sys2Proof.Machine.execAccountRead h ps s
  | .streamOpen h ps => Sys2Proof.Machine.execStreamOpen h ps s
  | .streamFeed h ps => Sys2Proof.Machine.execStreamFeed h ps s
  | .streamMarkPhrase h ps => Sys2Proof.Machine.execStreamMarkPhrase h ps s
  | .streamMarkEnd h ps => Sys2Proof.Machine.execStreamMarkEnd h ps s
  | .streamClose h ps => Sys2Proof.Machine.execStreamClose h ps s
  | .streamRoute h ps => Sys2Proof.Machine.execStreamRoute h ps s
  | .streamFallbackThreshold h ps => Sys2Proof.Machine.execStreamFallbackThreshold h ps s
  | .streamFallbackClear h ps => Sys2Proof.Machine.execStreamFallbackClear h ps s
  | .streamFallbackReturn h ps => Sys2Proof.Machine.execStreamFallbackReturn h ps s
  | .streamStatus h ps => Sys2Proof.Machine.execStreamStatus h ps s
  | .portConfigWrite h ps => Sys2Proof.Machine.execPortConfigWrite h ps s
  | .portConfigRead h ps => Sys2Proof.Machine.execPortConfigRead h ps s
  | .portStart h ps => Sys2Proof.Machine.execPortStart h ps s
  | .portStop h ps => Sys2Proof.Machine.execPortStop h ps s
  | .portStatus h ps => Sys2Proof.Machine.execPortStatus h ps s
  | .cardConfigOpen h ps => Sys2Proof.Machine.execCardConfigOpen h ps s
  | .cardConfigClose h ps => Sys2Proof.Machine.execCardConfigClose h ps s
  | .cardGain h ps => Sys2Proof.Machine.execCardGain h ps s
  | .cardTapStart h ps => Sys2Proof.Machine.execCardTapStart h ps s
  | .cardTapStop h ps => Sys2Proof.Machine.execCardTapStop h ps s
  | .cardStats h ps => Sys2Proof.Machine.execCardStats h ps s
  | .powerState h ps => Sys2Proof.Machine.execPowerState h ps s
  | .powerStateRead h ps => Sys2Proof.Machine.execPowerStateRead h ps s
  | .domainCtrlOff h ps => Sys2Proof.Machine.execDomainCtrlOff h ps s
  | .domainCtrlOn h ps => Sys2Proof.Machine.execDomainCtrlOn h ps s
  | .domainCtrlRead h ps => Sys2Proof.Machine.execDomainCtrlRead h ps s
  | .padRelease h ps => Sys2Proof.Machine.execPadRelease h ps s
  | .voltagePolicyWrite h ps => Sys2Proof.Machine.execVoltagePolicyWrite h ps s
  | .voltagePolicyRead h ps => Sys2Proof.Machine.execVoltagePolicyRead h ps s
  | .powerCeilingSet h ps => Sys2Proof.Machine.execPowerCeilingSet h ps s
  | .powerCeilingRead h ps => Sys2Proof.Machine.execPowerCeilingRead h ps s
  | .attest h ps => Sys2Proof.Machine.execAttest h ps s
  | .keyInstall h ps => Sys2Proof.Machine.execKeyInstall h ps s
  | .lifecycleTransition h ps => Sys2Proof.Machine.execLifecycleTransition h ps s
  | .lifecycleRead h ps => Sys2Proof.Machine.execLifecycleRead h ps s
  | .fwInstallManifest h ps => Sys2Proof.Machine.execFwInstallManifest h ps s
  | .fwInstallChunk h ps => Sys2Proof.Machine.execFwInstallChunk h ps s
  | .fwInstallFinish h ps => Sys2Proof.Machine.execFwInstallFinish h ps s
  | .fwInstallRead h ps => Sys2Proof.Machine.execFwInstallRead h ps s
  | .modelKeyInstall h ps => Sys2Proof.Machine.execModelKeyInstall h ps s
  | .modelKeyDelete h ps => Sys2Proof.Machine.execModelKeyDelete h ps s
  | .debugUnlock h ps => Sys2Proof.Machine.execDebugUnlock h ps s
  | .debugLock h ps => Sys2Proof.Machine.execDebugLock h ps s
  | .traceCtrlStart h ps => Sys2Proof.Machine.execTraceCtrlStart h ps s
  | .traceCtrlStop h ps => Sys2Proof.Machine.execTraceCtrlStop h ps s
  | .loomHalt h ps => Sys2Proof.Machine.execLoomHalt h ps s
  | .loomResume h ps => Sys2Proof.Machine.execLoomResume h ps s
  | .loomStep h ps => Sys2Proof.Machine.execLoomStep h ps s
  | .ringInfo h ps => Sys2Proof.Machine.execRingInfo h ps s
  | .ringRead h ps => Sys2Proof.Machine.execRingRead h ps s
  | .tableWrite h ps => Sys2Proof.Machine.execTableWrite h ps s
  | .tableRead h ps => Sys2Proof.Machine.execTableRead h ps s
  | .settingsCommit h ps => Sys2Proof.Machine.execSettingsCommit h ps s
  | .settingsInvalidate h ps => Sys2Proof.Machine.execSettingsInvalidate h ps s
  | .settingsRead h ps => Sys2Proof.Machine.execSettingsRead h ps s
  | .sysEnumerate h ps => Sys2Proof.Machine.execSysEnumerate h ps s
  | .sysPhaseAssign h ps => Sys2Proof.Machine.execSysPhaseAssign h ps s
  | .sysRouteBind h ps => Sys2Proof.Machine.execSysRouteBind h ps s
  | .sysRouteUnbind h ps => Sys2Proof.Machine.execSysRouteUnbind h ps s
  | .linkStatus h ps => Sys2Proof.Machine.execLinkStatus h ps s
  | .malformedPacket iface src bytes => Sys2Proof.Machine.execMalformedPacket iface src bytes s
  | .fragmentReceived opcode h ps => Sys2Proof.Machine.execFragmentReceived opcode h ps s
  | .fragmentAssemblyExpiry m opcode context hostTag => Sys2Proof.Machine.execFragmentAssemblyExpiry m opcode context hostTag s
  | .ipFragmentReceived f => Sys2Proof.Machine.execIpFragmentReceived f s
  | .ipReassemblyExpiry v6 src dst ident => Sys2Proof.Machine.execIpReassemblyExpiry v6 src dst ident s
  | .networkControlFrame f => Sys2Proof.Machine.execNetworkControlFrame f s
  | .dhcpReply f => Sys2Proof.Machine.execDhcpReply f s
  | .eapolFrame bytes => Sys2Proof.Machine.execEapolFrame bytes s
  | .hostLinkUp rate leader lpi => Sys2Proof.Machine.execHostLinkUp rate leader lpi s
  | .hostLinkDown => Sys2Proof.Machine.execHostLinkDown s
  | .trainingFailed => Sys2Proof.Machine.execTrainingFailed s
  | .readvertiseTimer => Sys2Proof.Machine.execReadvertiseTimer s
  | .load loom slot => Sys2Proof.Machine.execLoad loom slot s
  | .store loom slot => Sys2Proof.Machine.execStore loom slot s
  | .loadC loom slot => Sys2Proof.Machine.execLoadC loom slot s
  | .storeC loom slot => Sys2Proof.Machine.execStoreC loom slot s
  | .peerSend loom slot => Sys2Proof.Machine.execPeerSend loom slot s
  | .peerReceive loom slot => Sys2Proof.Machine.execPeerReceive loom slot s
  | .wait loom slot eng => Sys2Proof.Machine.execWait loom slot eng s
  | .signal loom slot eng => Sys2Proof.Machine.execSignal loom slot eng s
  | .knot loom slot => Sys2Proof.Machine.execKnot loom slot s
  | .loop loom slot eng => Sys2Proof.Machine.execLoop loom slot eng s
  | .endLoop loom slot eng => Sys2Proof.Machine.execEndLoop loom slot eng s
  | .mma loom slot => Sys2Proof.Machine.execMma loom slot s
  | .mmaG loom slot => Sys2Proof.Machine.execMmaG loom slot s
  | .vop loom slot => Sys2Proof.Machine.execVop loom slot s
  | .curve loom slot => Sys2Proof.Machine.execCurve loom slot s
  | .reduce loom slot => Sys2Proof.Machine.execReduce loom slot s
  | .norm loom slot => Sys2Proof.Machine.execNorm loom slot s
  | .scan loom slot => Sys2Proof.Machine.execScan loom slot s
  | .conv loom slot => Sys2Proof.Machine.execConv loom slot s
  | .qstat loom slot => Sys2Proof.Machine.execQstat loom slot s
  | .narrow loom slot => Sys2Proof.Machine.execNarrow loom slot s
  | .widen loom slot => Sys2Proof.Machine.execWiden loom slot s
  | .grainKeyLoad loom slot => Sys2Proof.Machine.execGrainKeyLoad loom slot s
  | .grainFill loom slot => Sys2Proof.Machine.execGrainFill loom slot s
  | .gsample loom slot => Sys2Proof.Machine.execGsample loom slot s
  | .halt loom slot eng => Sys2Proof.Machine.execHalt loom slot eng s
  | .pieceIssue loom => Sys2Proof.Machine.execPieceIssue loom s
  | .pieceComplete loom piece => Sys2Proof.Machine.execPieceComplete loom piece s
  | .jobStart => Sys2Proof.Machine.execJobStart s
  | .contextAdmit loom => Sys2Proof.Machine.execContextAdmit loom s
  | .waySpilled loom => Sys2Proof.Machine.execWaySpilled loom s
  | .sliceEnd loom slot => Sys2Proof.Machine.execSliceEnd loom slot s
  | .releaseToKnot loom => Sys2Proof.Machine.execReleaseToKnot loom s
  | .resultExpiry job => Sys2Proof.Machine.execResultExpiry job s
  | .batchStepStart job => Sys2Proof.Machine.execBatchStepStart job s
  | .batchStepEnd job => Sys2Proof.Machine.execBatchStepEnd job s
  | .phraseJobStart stream => Sys2Proof.Machine.execPhraseJobStart stream s
  | .tokenRecord job => Sys2Proof.Machine.execTokenRecord job s
  | .frameRecord stream => Sys2Proof.Machine.execFrameRecord stream s
  | .frameCommit stream => Sys2Proof.Machine.execFrameCommit stream s
  | .batchStart cluster pos => Sys2Proof.Machine.execBatchStart cluster pos s
  | .microMv cluster pos => Sys2Proof.Machine.execMicroMv cluster pos s
  | .microEw cluster pos => Sys2Proof.Machine.execMicroEw cluster pos s
  | .microCrv cluster pos => Sys2Proof.Machine.execMicroCrv cluster pos s
  | .microCvt cluster pos => Sys2Proof.Machine.execMicroCvt cluster pos s
  | .microOut cluster pos => Sys2Proof.Machine.execMicroOut cluster pos s
  | .microDraw cluster pos => Sys2Proof.Machine.execMicroDraw cluster pos s
  | .microEnd cluster pos => Sys2Proof.Machine.execMicroEnd cluster pos s
  | .batchEnd cluster pos => Sys2Proof.Machine.execBatchEnd cluster pos s
  | .contextMoveStart stream => Sys2Proof.Machine.execContextMoveStart stream s
  | .contextMoveArrive stream => Sys2Proof.Machine.execContextMoveArrive stream s
  | .programLoadCluster cluster program => Sys2Proof.Machine.execProgramLoadCluster cluster program s
  | .tallyEvaluation stream => Sys2Proof.Machine.execTallyEvaluation stream s
  | .egressStart stream => Sys2Proof.Machine.execEgressStart stream s
  | .releaseInstant stream => Sys2Proof.Machine.execReleaseInstant stream s
  | .reedInputLock n => Sys2Proof.Machine.execReedInputLock n s
  | .reedInputLockLoss n => Sys2Proof.Machine.execReedInputLockLoss n s
  | .reedInputFrame n f => Sys2Proof.Machine.execReedInputFrame n f s
  | .wclkLock n => Sys2Proof.Machine.execWclkLock n s
  | .wclkLockLoss n => Sys2Proof.Machine.execWclkLockLoss n s
  | .reedStartTick port => Sys2Proof.Machine.execReedStartTick port s
  | .reedDataStart port => Sys2Proof.Machine.execReedDataStart port s
  | .reedOutputFrame port => Sys2Proof.Machine.execReedOutputFrame port s
  | .reedOutputClockLoss n => Sys2Proof.Machine.execReedOutputClockLoss n s
  | .rateMeasureWindow port rate => Sys2Proof.Machine.execRateMeasureWindow port rate s
  | .cardingStripe => Sys2Proof.Machine.execCardingStripe s
  | .paceWindow w => Sys2Proof.Machine.execPaceWindow w s
  | .thermalSensorConversion cs => Sys2Proof.Machine.execThermalSensorConversion cs s
  | .thermalTrip sensor tempC => Sys2Proof.Machine.execThermalTrip sensor tempC s
  | .vcoreUndervoltage f => Sys2Proof.Machine.execVcoreUndervoltage f s
  | .domainPowerGood report => Sys2Proof.Machine.execDomainPowerGood report s
  | .regulatorAck rail => Sys2Proof.Machine.execRegulatorAck rail s
  | .regulatorTimeout rail => Sys2Proof.Machine.execRegulatorTimeout rail s
  | .wakePin heldUs => Sys2Proof.Machine.execWakePin heldUs s
  | .wakeBusFrame addr bytes => Sys2Proof.Machine.execWakeBusFrame addr bytes s
  | .wakeBusRead addr => Sys2Proof.Machine.execWakeBusRead addr s
  | .wakeBusStall => Sys2Proof.Machine.execWakeBusStall s
  | .selfRefreshSupervision temps => Sys2Proof.Machine.execSelfRefreshSupervision temps s
  | .canopyRefresh quadrant tempC => Sys2Proof.Machine.execCanopyRefresh quadrant tempC s
  | .patrolScrub vault corrected => Sys2Proof.Machine.execPatrolScrub vault corrected s
  | .wckDriftCheck ch drift => Sys2Proof.Machine.execWckDriftCheck ch drift s
  | .uncorrectableWord canopy unit offset reader => Sys2Proof.Machine.execUncorrectableWord canopy unit offset reader s
  | .loomFault loom mech test => Sys2Proof.Machine.execLoomFault loom mech test s
  | .handshakeWatchdog unit => Sys2Proof.Machine.execHandshakeWatchdog unit s
  | .shuttleFault cluster pos mech test => Sys2Proof.Machine.execShuttleFault cluster pos mech test s
  | .faultNoSpare unit mech => Sys2Proof.Machine.execFaultNoSpare unit mech s
  | .scaleUnitFault port => Sys2Proof.Machine.execScaleUnitFault port s
  | .flitReceived port bytes => Sys2Proof.Machine.execFlitReceived port bytes s
  | .ackTimer port => Sys2Proof.Machine.execAckTimer port s
  | .replayTimeout port => Sys2Proof.Machine.execReplayTimeout port s
  | .portRetrain port cause => Sys2Proof.Machine.execPortRetrain port cause s
  | .portTraining port found => Sys2Proof.Machine.execPortTraining port found s
  | .failedPortRetry port => Sys2Proof.Machine.execFailedPortRetry port s
  | .linkMessage port => Sys2Proof.Machine.execLinkMessage port s
  | .blockAck binding recvEnd blockSeq => Sys2Proof.Machine.execBlockAck binding recvEnd blockSeq s
  | .retransmitRequest binding recvEnd blockSeq => Sys2Proof.Machine.execRetransmitRequest binding recvEnd blockSeq s
  | .pairMatch port lsid => Sys2Proof.Machine.execPairMatch port lsid s
  | .operatingMinute => Sys2Proof.Machine.execOperatingMinute s
  | .recordWrite => Sys2Proof.Machine.execRecordWrite s
  | .entropyFailure => Sys2Proof.Machine.execEntropyFailure s
  | .vaonApplied => Sys2Proof.Machine.execVaonApplied s
  | .resetNRelease => Sys2Proof.Machine.execResetNRelease s
  | .coldBoot f => Sys2Proof.Machine.execColdBoot f s
  | .warmReset f => Sys2Proof.Machine.execWarmReset f s
  | .vaonRemoved bitsWritten => Sys2Proof.Machine.execVaonRemoved bitsWritten s
  | .resetNLow heldUs => Sys2Proof.Machine.execResetNLow heldUs s
  | .dapAccess a => Sys2Proof.Machine.execDapAccess a s

end Sys2Proof.Machine
end

