-- ==== Sys2Proof/Machine/Step.lean ====
section
/-!
DEFINITION. One step of the block: the command at the front of the queue, or, on an empty queue, the packets that the
Treadle's firmware queue holds.
-/
namespace Sys2Proof.Machine

open Sys2Proof

/-- R364: of packets in the order of their acceptance, the stream commands that wait for none, and the others. -/
def turns : List Instr → List Instr → List Instr × List Instr
  | _, [] => ([], [])
  | before, i :: rest =>
    let waits := (packetOf i).any fun q => before.any (waitsBehind q.1 q.2.1 false)
    let first := streamPacket i && !waits
    let r := turns (if first then before else before ++ [i]) rest
    if first then (i :: r.1, r.2) else (r.1, i :: r.2)

/-- R364: the packets in the order of their turns: a stream command does not wait behind firmware commands of other objects. -/
def inTurn (is : List Instr) : List Instr := (turns [] is).1 ++ (turns [] is).2

/-- DESIGN CHOICE (log 1): on an empty queue the packets of the firmware queue that the Treadle can now interpret become the
waiting commands; with none, the block idles. The host link sends what it holds meanwhile (log 173). -/
def State.idle (s : State) : State :=
  let s := s.linkDrain
  let go := inTurn (s.proto.fwQueue.filter s.interprets)
  if go.isEmpty then s
  else
    { s with pending := go, proto := { s.proto with fwQueue := s.proto.fwQueue.filter fun i => !s.interprets i } }

/-- Take the command at the front of the queue and run it on the state with the queue's rest. -/
def step (s : State) : Host.Outcome State Fault Refusal :=
  match s.pending with
  | [] => .next s.idle
  | c :: rest => exec c { s with pending := rest }

/-- The host's placing of a command: the one that a word of the table spells, in front of the queue. -/
def State.withFetchWord (s : State) (nbits w : Nat) : State :=
  match decodeTableWord nbits w with
  | some c => { s with pending := c :: s.pending }
  | none => s

end Sys2Proof.Machine
end

