-- ==== Sys2Proof/Safety.lean ====
section
/-!
DEFINITION. What a safe step is, and the words that the statements use: when the block takes a packet, what its reply
leaves, and the canonical form of memory.
-/
namespace Sys2Proof.Safety

open Sys2Proof Sys2Proof.Machine

/-- A step is safe when it neither faults nor refuses. -/
def SafeStep (s : State) : Prop := ∃ s', step s = .next s'

/-- A state is safe for `n` steps when each of the next `n` steps is safe. -/
def SafeFor : Nat → State → Prop
  | 0, _ => True
  | n + 1, s => ∃ s', step s = .next s' ∧ SafeFor n s'

/-- The block takes a packet now: its interface listens, the power state lets it run, it waits behind no other packet, it is
for this device, its sequence number is new, it belongs to no open assembly, and no command of the other master conflicts with
it or is identical to it (R309, R310, R351 to R353, R357, R361, R362, R364, R371, R402, R480). -/
abbrev Takes (s : State) (op : Nat) (h : Hdr) (ps : List Byte) : Prop :=
  s.power.boot = .ready ∧ s.listens h.iface = true ∧ (h.iface = .wakeBus → s.busWakes = false) ∧ s.gate op h ps = .run
    ∧ (h.iface = .hostLink → s.links.device = none ∨ s.links.isRoot = true ∨ op = 0x0B01) ∧ s.verdict op h = .execute
    ∧ s.isHeld h = false ∧ s.mustWait op h false = false ∧ (s.master h.iface.master).classify h.seq = .fresh
    ∧ s.lastFragment op h = none ∧ (s.master h.iface.master).assembly? op h = none ∧ opcodeKnown h op = true
    ∧ ((s.master h.iface.master).session = true ∨ (1 ≤ op ∧ op ≤ 4))
    ∧ (∀ d ∈ s.proto.doomed, ¬ (d.master = h.iface.master ∧ d.seq = h.seq)) ∧ s.twin? h = none
    ∧ s.entryWins (op, h, ps) = none
    ∧ ∀ q ∈ (s.pending ++ s.proto.fwQueue).filterMap packetOf,
        conflicting (op, h, ps) (s.joined q) = false ∧ identical (op, h, ps) (s.joined q) = false

/-- R353: the state once a packet's new sequence number is recorded. -/
def accepted (s : State) (h : Hdr) : State := s.mapMaster h.iface.master fun ms => ms.accept h.seq

/-- R355, R358: the state once the command's one reply is kept for duplicates and sent. -/
def answered (op : Nat) (h : Hdr) (s : State) (st : Status) (context : Word) (rep : Bool) (params : List Byte) : State :=
  let p := s.replyTo op h st context rep params
  (s.mapMaster h.iface.master fun ms => ms.keepReply h.seq p).sendPacket p

/-- The command answers a next state: the reply OK with these parameters and the CONTEXT of the packet, after the changes
that lead from `s` to `s'`. -/
def Replies (i : Instr) (op : Nat) (h : Hdr) (s s' : State) (params : List Byte) : Prop :=
  exec i s = .next (answered op h s' .ok h.context false params)

/-- R93, R273: an engine's choice on a Loom that runs is this context, in this slot, whose next card is this one. -/
def Chooses (s : State) (loom slot : Nat) (e : Engine) (c : Ctx) (card : Card) : Prop :=
  s.computing = true ∧ (s.loom loom).halted = false ∧ (s.refresh loom).resident? loom slot = some c
    ∧ (s.refresh loom).ctx? c.job c.position = some c ∧ (s.refresh loom).nextCard c e = some card
    ∧ (s.refresh loom).choose loom e = some slot

/-- R274, R427: the state in which a chosen card runs; a QSTAT or NARROW in progress was traced as it began. -/
def issued (s : State) (loom slot : Nat) (e : Engine) (c : Ctx) (card : Card) : State :=
  let begun := (s.refresh loom).sched.scale.any fun q => e == .execute && q.2 == (c.job, c.position)
  if begun then s.refresh loom else (s.refresh loom).traceCard loom slot e c card

/-- The command answers a next state, in which the context holds this. -/
def Leaves (i : Instr) (s : State) (c : Ctx) (holds : State → Ctx → Prop) : Prop :=
  ∃ t c', exec i s = .next t ∧ t.ctx? c.job c.position = some c' ∧ holds t c'

/-- The command answers a next state, in which the stream is there and holds this. -/
def LeavesStream (i : Instr) (s : State) (id : Word) (holds : State → Stream → Prop) : Prop :=
  ∃ t u, exec i s = .next t ∧ t.stream? id = some u ∧ holds t u

/-- R93, R101, R233, R273: an execute card has completed with these results, which took `waves` waves: the execute engine is
past it, its SIG token is added, and its draw is counted; the rest of the architectural state is as it was. -/
def ExecuteDone (c c' : Ctx) (card : Card) (o : CardOut) (waves : Nat) : Prop :=
  c'.scratch = o.scratch ∧ c'.stripe = o.stripe ∧ c'.arch.arithFlags = o.flags
    ∧ c'.arch.execute = { c.arch.execute with card := c.arch.execute.card + 1 } ∧ c'.arch.fetch = c.arch.fetch
    ∧ c'.arch.bobbins = (if sigOf card then c.arch.bobbins.modify (bobbinOf card) (· ++ [0]) else c.arch.bobbins)
    ∧ c'.arch.execStep = c.arch.execStep + (if c.drawsExec card then 1 else 0)
    ∧ c'.arch.waves = c.arch.waves + BitVec.ofNat 64 waves
    ∧ c'.arch.key = c.arch.key ∧ c'.arch.fetchKey = c.arch.fetchKey ∧ c'.arch.fetchStep = c.arch.fetchStep
    ∧ c'.arch.knotCount = c.arch.knotCount ∧ c'.knot = c.knot

/-- R150: the exact function of factory curve e, of its scaled input xs. -/
noncomputable def exactCurve (e : Nat) (x : ℝ) : ℝ :=
  match e with
  | 0 | 1 => (2 : ℝ) ^ x
  | 2 => Real.log x
  | 3 => 1 / (1 + Real.exp (-x))
  | 4 => Real.tanh x
  | 5 => x * (1 + 2 / Real.sqrt Real.pi * ∫ t in (0 : ℝ)..(x / Real.sqrt 2), Real.exp (-t ^ 2)) / 2
  | 6 => x / (1 + Real.exp (-x))
  | _ => Real.log (1 + Real.exp x)

/-- R150: the bound of the Error column on curve e at a point where the exact function is y. -/
noncomputable def curveBound (e : Nat) (y : ℝ) : ℝ :=
  match e with
  | 0 | 1 => |y| / 2 ^ 21
  | 2 => 1 / 2 ^ 21
  | 3 | 4 => 1 / 2 ^ 9
  | _ => 1 / 2 ^ 8

/-- R150: the part's factory coefficients keep the Error column, beside the rounding of FP32 results, which for the larger
results exceeds it. The manual gives no coefficient, so a claim about a curve's values takes this as its premise (log 6). -/
def CurvesAccurate : Prop :=
  ∀ e, e < 8 → ∀ xs : Word, finite32 xs = true →
    let c := curveOf (nth Factory.table2 e [])
    (f32 c.xLo).rat ≤ (f32 xs).rat → (f32 xs).rat ≤ (f32 c.xHi).rat →
    let y := exactCurve e ((f32 xs).rat : ℝ)
    finite32 (curveInside c xs).1 = true →
      |((f32 (curveInside c xs).1).rat : ℝ) - y| < curveBound e y + |y| / 2 ^ 22 + 1 / 2 ^ 149

/-- R596: the rates that a window reports are those of the part: within 2 % of its pace at VCORE and the hottest reading, in units of
1,000 waves/s; a unit that waits part of a window completes fewer. A window's rates come from outside the model, so a claim about them takes this as its premise (log 170). -/
def WindowOfPart (w : Sys2Proof.Window) (s : State) : Prop :=
  let pace := paceAt s.power.vcoreMv s.hottest
  ∀ e ∈ w.waves, 100 * (e.2.2.1 : Rat) ≤ 102 * pace
    ∧ 98 * pace ≤ 100 * (e.2.2.2 : Rat) ∧ 100 * (e.2.2.2 : Rat) ≤ 102 * pace

/-- Memory as before, apart from what a debug write has left in a block of system space that is written anew (R260, R525). -/
def KeepsMemory (s t : State) : Prop := { t.memory with altered := s.memory.altered } = s.memory

/-- The memories keep their canonical form. -/
def MemoryCanonical (s : State) : Prop := Mem.wf s.memory.vault = true ∧ Mem.wf s.memory.ext = true

end Sys2Proof.Safety
end

