-- ==== Sys2Proof/WellFormed.lean ====
section
/-!
DEFINITION. Which instructions are well formed: a command row carries the form that its name says, its parameters fit
the longest command (R356), and an event names a unit that exists.
-/
namespace Sys2Proof

open Sys2Proof.Machine

/-- A Loom number (R21). -/
def loomOk (n : Nat) : Bool := n < 68

/-- A Loom and a context slot (R91). -/
def slotOk (n slot : Nat) : Bool := n < 68 && slot < 16

/-- A Shuttle's cluster and position (R21, R196). -/
def shuttleOk (c p : Nat) : Bool := c < 16 && p < 17

/-- A byte string of exactly `n` bytes. -/
def sized (n : Nat) (bs : List Byte) : Bool := bs.length == n

/-- The row that a command's packet selects is the command's own row, and its parameters fit 256 fragments (R356). -/
def commandOk (i : Instr) : Bool :=
  match packetOf i with
  | some (op, h, ps) => decide (instrOf op h ps = some i) && decide (ps.length ≤ 256 * 8960)
  | none => true

/-- What an event's operands must be. -/
def eventOk (i : Instr) : Bool :=
  match i with
  | .fragmentReceived _ _ ps => decide (ps.length ≤ 8960)
  | .ipReassemblyExpiry v6 src dst _ => sized (if v6 then 16 else 4) src && sized (if v6 then 16 else 4) dst
  | .ipFragmentReceived f => sized (if f.v6 then 16 else 4) f.src && sized (if f.v6 then 16 else 4) f.dst
  | .hostLinkUp rate _ _ => rate != 0
  | .load l s | .store l s | .loadC l s | .storeC l s | .peerSend l s | .peerReceive l s | .knot l s | .mma l s
  | .mmaG l s | .vop l s | .curve l s | .reduce l s | .norm l s | .scan l s | .conv l s | .qstat l s | .narrow l s
  | .widen l s | .grainKeyLoad l s | .grainFill l s | .gsample l s | .sliceEnd l s => slotOk l s
  | .wait l s _ | .signal l s _ | .loop l s _ | .endLoop l s _ | .halt l s _ => slotOk l s
  | .pieceIssue l | .contextAdmit l | .waySpilled l | .releaseToKnot l => loomOk l
  | .pieceComplete l e => loomOk l && decide (e.tag < 64)
  | .batchStart c p | .microMv c p | .microEw c p | .microCrv c p | .microCvt c p | .microOut c p | .microDraw c p
  | .microEnd c p | .batchEnd c p => shuttleOk c p
  | .programLoadCluster c _ => decide (c < 16)
  | .reedInputLock n | .reedInputLockLoss n | .reedInputFrame n _ | .reedOutputClockLoss n => decide (n < 16)
  | .wclkLock n | .wclkLockLoss n => decide (n < 4)
  | .reedStartTick p | .reedDataStart p | .reedOutputFrame p => decide (p < 32)
  | .rateMeasureWindow p _ => decide (p < 36)
  | .thermalTrip n _ => decide (n < 80)
  | .thermalSensorConversion cs => cs.all fun c => decide (c.sensor < 80)
  | .domainPowerGood r => decide (r.domain < 129)
  | .canopyRefresh q _ => decide (q < 4)
  | .patrolScrub v _ => decide (v < 68)
  | .wckDriftCheck c _ => decide (c < 16)
  | .uncorrectableWord canopy u _ _ => decide (u < (if canopy then 68 else 16))
  | .loomFault l _ _ => loomOk l
  | .shuttleFault c p _ _ => shuttleOk c p
  | .scaleUnitFault p | .flitReceived p _ | .ackTimer p | .replayTimeout p | .portRetrain p _ | .portTraining p _
  | .failedPortRetry p | .linkMessage p | .pairMatch p _ => decide (p < 6)
  | _ => true

/-- An instruction is well formed. -/
def Instr.wellFormed (i : Instr) : Bool := commandOk i && eventOk i

end Sys2Proof
end

