-- ==== Sys2Proof/Certificates/Slice0/Obligations.lean ====
section
/-!
DEFINITION. The statements for the provers.
-/

open Sys2Proof Sys2Proof.Machine Sys2Proof.Safety

/-! ### Groups 0x00 to 0x02: session, models, memory, decks, jobs -/

/-- R352, R374 to R376: HELLO opens the session with its mask, address and sequence; IDENTIFY, PING and STATUS answer their
records and change nothing else; RESET makes its reset pending. -/
def Obligations.SessionCommandsComplete : Prop :=
  ∀ (s : State) (h : Hdr) (ps : List Byte),
    (Takes s 0x0001 h ps → ps.length = 4 → be ps 0 2 < 64 → zeroAt ps 2 2 = true →
      Replies (.hello h ps) 0x0001 h s
        ((accepted s h).mapMaster h.iface.master fun ms =>
          { ms with session := true, eventMask := BitVec.ofNat 16 (be ps 0 2), dest := h.src, iface := h.iface,
                    newest := some h.seq, seen := [⟨h.seq, none⟩], eventSeq := 0, assemblies := [] })
        (beBytes 2 8960 ++ zeros 2 ++ beBytes 4 s.bark.fwVersion.toNat)) ∧
    (Takes s 0x0002 h [] → Replies (.identify h []) 0x0002 h s (accepted s h) s.identity) ∧
    (Takes s 0x0003 h ps → ps.length ≤ 8960 → Replies (.ping h ps) 0x0003 h s (accepted s h) ps) ∧
    (Takes s 0x0004 h [] → Replies (.status h []) 0x0004 h s (accepted s h) (accepted s h).statusRecord) ∧
    (Takes s 0x0005 h ps → ps.length = 4 → be ps 0 1 ≤ 1 → zeroAt ps 1 3 = true →
      Replies (.reset h ps) 0x0005 h s
        ((accepted s h).mapPower fun p => { p with boot := if be ps 0 1 = 0 then .warmPending else .coldPending }) [])

/-- R378: OPEN of a new model takes the lowest free range of model space; OPEN with RESUME changes nothing; both answer the
base, the number of segments and what is missing. R379, R380, R381, R382: a SEGMENT with the right digest, of an encrypted model
one whose tag opens, is written as its plain bytes and kept, or, when present, left alone; COMMIT of a complete model makes it
Committed with its programs and hot ranges, whose copies it writes;
MODEL_VERIFY answers how many segments' digests differ and the first, and a model with one returns to Loading; MODEL_UNLOAD of a model out of use removes it. -/
def Obligations.ModelLoadingCompletes : Prop :=
  (∀ (s : State) (h : Hdr) (ps : List Byte) (base : Nat) (m : Model),
     let enc := bitOf (be ps 1 1) 1
     let key : Word := BitVec.ofNat 32 (be ps 16 4)
     Takes s 0x0101 h ps → ps.length = 24 → be ps 0 1 = 0 → be ps 1 1 < 4 → zeroAt ps 2 2 = true →
     be ps 4 4 ≠ 0 → 1 ≤ be ps 8 8 → be ps 8 8 ≤ 2 ^ 41 - 2 ^ 21 → (enc = true ∨ key = 0) → zeroAt ps 20 4 = true →
     (enc = true → (s.modelKey? key).isSome = true) →
     (bitOf (be ps 1 1) 0 = false → s.model? (BitVec.ofNat 32 (be ps 4 4)) = none → s.modelPlace (be ps 8 8) = some base →
       s.sched.models.length < 64 →
       let new : Model :=
         { id := BitVec.ofNat 32 (be ps 4 4), bytes := be ps 8 8, base := base, encrypted := enc, keyId := key,
           committed := false, segments := [], plain := [], hot := [], programs := [] }
       Replies (.modelLoadOpen h ps) 0x0101 h s
         { accepted s h with sched := { s.sched with models := s.sched.models ++ [new] } }
         (beBytes 8 base ++ beBytes 4 (segmentsOf (be ps 8 8)) ++ beBytes 4 0 ++ beBytes 4 (segmentsOf (be ps 8 8)))) ∧
     (bitOf (be ps 1 1) 0 = true → s.model? (BitVec.ofNat 32 (be ps 4 4)) = some m → m.committed = false →
       m.encrypted = enc → m.bytes = be ps 8 8 → m.keyId = key →
       Replies (.modelLoadOpen h ps) 0x0101 h s (accepted s h)
         (beBytes 8 m.base ++ beBytes 4 (segmentsOf m.bytes) ++ beBytes 4 (m.missing.headD 0xFFFFFFFF)
           ++ beBytes 4 m.missing.length))) ∧
  (∀ (s : State) (h : Hdr) (ps bytes : List Byte) (m : Model),
     s.model? m.id = some m →
     (let opened := (s.modelKey? m.keyId).bind fun k => openSegment m k (be ps 8 4) (slice ps 48 16) (ps.drop 64)
      Takes s 0x0101 h ps → 64 ≤ ps.length → be ps 0 1 = 1 → zeroAt ps 1 3 = true → be ps 4 4 = m.id.toNat →
       m.committed = false → be ps 8 4 < segmentsOf m.bytes → be ps 12 4 = m.segmentLen (be ps 8 4) →
       ps.length = 64 + be ps 12 4 → Crypto.digest (ps.drop 64) = slice ps 16 32 →
       (m.encrypted = false → zeroAt ps 48 16 = true ∧ bytes = ps.drop 64) → (m.encrypted = true → opened = some bytes) →
       (m.has (be ps 8 4) = false →
         let kept := insertSegment (be ps 8 4) (slice ps 16 32) m.segments
         Replies (.modelLoadSegment h ps) 0x0101 h s
           (((accepted s h).modelWrite (m.base + 2097152 * be ps 8 4) bytes).mapModel m.id fun k =>
             { k with
               segments := kept
               plain := if m.encrypted then insertSegment (be ps 8 4) (Crypto.digest bytes) m.plain else m.plain })
           (Model.progress { m with segments := kept })) ∧
       (m.has (be ps 8 4) = true → Replies (.modelLoadSegment h ps) 0x0101 h s (accepted s h) m.progress)) ∧
     (let hc := be ps 8 2
      let pc := be ps 10 2
      let hots := hotEntries ps hc
      let progs := (List.range pc).map fun i => be ps (16 + 24 * hc + 8 * i) 8
      let m' : Model := { m with committed := true, hot := hots, programs := progs }
      let others := s.sched.models.filter fun o => o.id != m.id
      let mine := (s.programsOf m').map (·.1)
      Takes s 0x0101 h ps → ps.length = 16 + 24 * hc + 8 * pc → be ps 0 1 = 2 → zeroAt ps 1 3 = true →
       be ps 4 4 = m.id.toNat → hc ≤ 64 → pc ≤ 256 → zeroAt ps 12 4 = true → m.committed = false → m.missing = [] →
       (∀ x ∈ hots, x.offset % 8192 = 0 ∧ x.length % 8192 = 0 ∧ x.offset + x.length ≤ m.bytes) →
       (∀ o ∈ progs, o % 512 = 0 ∧ o + 128 ≤ m.bytes ∧ s.programOk (m.base + o) (m.bytes - o) = true) →
       (∀ p ∈ mine, p ∉ (others.flatMap s.programsOf).map (·.1) ∧ mine.count p = 1) →
       (∀ d < 64, hotBytes hots d = 0 ∨
         hotBytes (hots ++ others.flatMap (·.hot)) d ≤ 64 * 2 ^ 20 * fld s.units.layout 3 0) →
       Replies (.modelLoadCommit h ps) 0x0101 h s ((accepted s h).commitModel m') (beBytes 8 m.base)) ∧
     (let bad := s.badSegments m (be ps 4 4) (be ps 8 4)
      Takes s 0x0102 h ps → ps.length = 12 → be ps 0 4 = m.id.toNat → 1 ≤ be ps 8 4 → be ps 8 4 ≤ 4096 →
       be ps 4 4 + be ps 8 4 ≤ segmentsOf m.bytes →
       (bad = [] → Replies (.modelVerify h ps) 0x0102 h s (accepted s h) (beBytes 4 0 ++ beBytes 4 0xFFFFFFFF)) ∧
       (∀ first more, bad = first :: more →
         let t := (accepted s h).mapModel m.id fun m =>
           { m with
             segments := m.segments.filter (fun p => !bad.contains p.1)
             plain := m.plain.filter (fun p => !bad.contains p.1), committed := false }
         Replies (.modelVerify h ps) 0x0102 h s
           { t with sched := { t.sched with
               decks := if m.committed then s.sched.decks.filter fun d => d.model != m.id else s.sched.decks } }
           (beBytes 4 bad.length ++ beBytes 4 first))) ∧
     (Takes s 0x0103 h ps → ps.length = 4 → be ps 0 4 = m.id.toNat → s.modelBusy m = false →
       Replies (.modelUnload h ps) 0x0103 h s
         { accepted s h with sched := { s.sched with models := s.sched.models.filter fun k => k.id != m.id } } []))

/-- R258, R383: MEM_WRITE of device memory writes its bytes, and clears the tag of a dent whose slot it changes; MEM_WRITE of
MEM_LAYOUT changes the live value alone; MEM_READ answers the bytes, or MEM_LAYOUT, and changes nothing. -/
def Obligations.MemoryCommandsComplete : Prop :=
  ∀ (s : State) (h : Hdr) (ps : List Byte) (n : Nat) (where_ : Bool × Nat) (loc : Loc),
    (Takes s 0x0104 h ps → ps.length = 16 + n → be ps 0 1 = 0 → zeroAt ps 1 3 = true → be ps 12 4 = n → 1 ≤ n → n ≤ 2097152 →
      s.direct (be ps 4 8) n = some (where_, loc) → s.memBusy where_ = false →
      Replies (.memWrite h ps) 0x0104 h s
        (let t := (accepted s h).writeLoc loc (ps.drop 16)
         { t with units := { t.units with tags := if where_.1 then s.units.tags else s.units.tags.set where_.2 none } }) []) ∧
    (Takes s 0x0104 h ps → ps.length = 24 → be ps 0 1 = 1 → zeroAt ps 1 3 = true → be ps 4 8 = 0 → be ps 12 4 = 8 →
      memLayoutOk (BitVec.ofNat 64 (beNat (ps.drop 16))) = true →
      Replies (.memLayoutWrite h ps) 0x0104 h s
        { accepted s h with live :=
            { s.live with memLayout := memLayoutRetained (BitVec.ofNat 64 (beNat (ps.drop 16))) } } []) ∧
    (Takes s 0x0105 h ps → ps.length = 16 → be ps 0 1 = 0 → zeroAt ps 1 3 = true → be ps 12 4 = n → 1 ≤ n → n ≤ 8960 →
      s.direct (be ps 4 8) n = some (where_, loc) → s.memBusy where_ = false →
      Replies (.memRead h ps) 0x0105 h s (accepted s h) (s.readLoc loc n)) ∧
    (Takes s 0x0105 h ps → ps.length = 16 → be ps 0 1 = 1 → zeroAt ps 1 3 = true → be ps 4 8 = 0 → be ps 12 4 = 8 →
      Replies (.memRead h ps) 0x0105 h s (accepted s h) (beBytes 8 s.memLayout.toNat))

/-- R384, R385: DECK_LOAD of a good image in a Committed model adds the deck under the lowest free number, which its reply
carries in CONTEXT; DECK_UNLOAD of an unused deck removes it. -/
def Obligations.DeckCommandsComplete : Prop :=
  ∀ (s : State) (h : Hdr) (ps : List Byte) (m : Model) (n : Nat),
    (Takes s 0x0106 h ps → 20 ≤ ps.length → ps.length = 20 + 4 * be ps 16 1 → be ps 16 1 ≤ 8 → zeroAt ps 17 3 = true →
      s.model? (BitVec.ofNat 32 (be ps 0 4)) = some m → m.committed = true → be ps 4 8 % 16 = 0 →
      be ps 4 8 + be ps 12 4 ≤ m.bytes →
      let image := s.modelRead (m.base + be ps 4 8) (be ps 12 4)
      let binds := (List.range (be ps 16 1)).map fun i => BitVec.ofNat 32 (be ps (20 + 4 * i) 4)
      s.deckFault image (be ps 12 4) = none → s.bindFault binds = none →
      (∀ d ∈ s.sched.decks, d.image.deckId ≠ (deckImage image).deckId) → s.freeDeck = some n →
      exec (.deckLoad h ps) s = .next (answered 0x0106 h
        { accepted s h with sched := { s.sched with decks := s.sched.decks ++
            [{ number := n, model := BitVec.ofNat 32 (be ps 0 4), offset := be ps 4 8, length := be ps 12 4, binds := binds,
               image := deckImage image }] } }
        .ok (BitVec.ofNat 32 n) false [])) ∧
    (Takes s 0x0107 h [] → (s.deck? h.context.toNat).isSome = true →
      (∀ j ∈ s.sched.jobs, ¬ (j.deck = h.context.toNat ∧ j.ready = false)) →
      (∀ t ∈ s.audio.streams, t.deck ≠ h.context.toNat) →
      Replies (.deckUnload h []) 0x0107 h s
        { accepted s h with sched := { s.sched with decks := s.sched.decks.filter fun d => d.number != h.context.toNat } } [])

/-- R386, R388, R389: a JOB_SUBMIT without a fault makes a job with a new id, which its reply carries, with the fields that it
names, not started; JOB_CANCEL of a Ready job changes nothing, and of another is ACCEPTED and cancels it. -/
def Obligations.JobSubmitAndCancelComplete : Prop :=
  ∀ (s : State) (h : Hdr) (ps : List Byte) (blocks : List (Nat × Nat)) (s1 : State) (j : Job),
    (Takes s 0x0201 h ps → 72 ≤ ps.length → ps.length = 72 + 4 * be ps 64 4 → firstBad (s.jobChecks ps) = none →
      (be ps 24 1 = 0 ∨ be ps 24 1 = s.deviceNo ∨ s.routed (be ps 24 1) = true) →
      s.submitMissing (be ps 5 1) (s.deck? (be ps 0 4)) (BitVec.ofNat 32 (be ps 16 4)) (BitVec.ofNat 32 (be ps 20 4)) = false →
      (∀ b, s.job? (BitVec.ofNat 32 (be ps 20 4)) = some b → be ps 5 1 = 2 → b.ready = false) →
      (∀ t, s.stream? (BitVec.ofNat 32 (be ps 16 4)) = some t → t.eos = false) → s.jobLimit (be ps 4 1) = false →
      (be ps 5 1 = 0 → be ps 12 4 ≠ 0 → s.freeTokenPort.isSome = true) →
      State.allocBlocks (ceilDiv (if be ps 5 1 = 2 then 4 * be ps 48 4 else be ps 40 4) blockBytes) 3 (accepted s h)
        = some (blocks, s1) →
      ∃ k : Job, exec (.jobSubmit h ps) s = .next (answered 0x0201 h (s1.enterJob k) .accepted s.freshJob false [])
        ∧ k.id = s.freshJob ∧ k.hostTag = h.hostTag ∧ k.client = be ps 4 1 ∧ k.share = be ps 6 2
        ∧ k.holdMs = (if be ps 8 4 = 0 then 60000 else be ps 8 4) ∧ k.tokenSink = BitVec.ofNat 32 (be ps 12 4)
        ∧ k.tokenDev = be ps 24 1 ∧ k.endToken = BitVec.ofNat 32 (be ps 44 4) ∧ k.gstream = BitVec.ofNat 32 (be ps 52 4)
        ∧ k.frameSink = BitVec.ofNat 32 (be ps 16 4) ∧ k.batch = BitVec.ofNat 32 (be ps 20 4)
        ∧ k.resultAddr = be ps 32 8 ∧ k.resultBytes = be ps 40 4 ∧ k.tokenLimit = be ps 48 4 ∧ k.stepTable = be ps 56 8
        ∧ k.prompt = (List.range (be ps 64 4)).map (fun i => BitVec.ofNat 32 (be ps (72 + 4 * i) 4))
        ∧ k.resultBlocks = blocks ∧ k.started = false ∧ k.ready = false
        ∧ k.alternative = none ∧ k.produced = []) ∧
    (Takes s 0x0202 h [] → s.job? h.context = some j → j.ready = true →
      Replies (.jobCancel h []) 0x0202 h s (accepted s h) []) ∧
    (Takes s 0x0202 h [] → s.job? h.context = some j → j.ready = false →
      exec (.jobCancel h []) s
        = .next ((answered 0x0202 h (accepted s h) .accepted h.context false []).cancelJob h.context))

/-- R366 to R368, R390, R391: JOB_STATUS and RESULT_FETCH answer their records; a first fetch of a result has REPEAT 0 and a
later one REPEAT 1; RESULT_RELEASE of a Ready job frees its result blocks and its entry. R272, R391 to R393: SHARES_SET writes
the share and the job limit of a client, or SCHED_CONFIG, or neither, and answers the values in force; ACCOUNT_READ answers
the named clients' counts and, with CLEAR, sets them to 0. -/
def Obligations.ResultAndShareCommandsComplete : Prop :=
  (∀ (s : State) (h : Hdr) (ps : List Byte) (j : Job), s.job? h.context = some j →
     (Takes s 0x0203 h [] → Replies (.jobStatus h []) 0x0203 h s (accepted s h) (s.jobRecord j)) ∧
     (Takes s 0x0204 h ps → ps.length = 8 → 1 ≤ be ps 4 4 → be ps 4 4 ≤ 8944 → j.ready = true → be ps 0 4 ≤ j.result.length →
       exec (.resultFetch h ps) s = .next (answered 0x0204 h
         ((accepted s h).mapJob j.id fun j => { j with fetched := true }) .ok h.context j.fetched
         (beBytes 2 j.endStatus.code ++ zeros 2 ++ beBytes 4 j.result.length ++ beBytes 4 (be ps 0 4) ++ zeros 4
           ++ slice j.result (be ps 0 4) (be ps 4 4)))) ∧
     (Takes s 0x0204 h ps → ps.length = 8 → 1 ≤ be ps 4 4 → be ps 4 4 ≤ 8944 → j.ready = false →
       exec (.resultFetch h ps) s
         = .next (answered 0x0204 h (accepted s h) .notReady h.context false (s.progressRecord j))) ∧
     (Takes s 0x0205 h [] → j.ready = true → Replies (.resultRelease h []) 0x0205 h s ((accepted s h).forgetJob j) [])) ∧
  (∀ (s : State) (h : Hdr) (ps : List Byte), ps.length = 16 → zeroAt ps 6 2 = true →
     (Takes s 0x0206 h ps → be ps 0 1 = 0 → maxJobsOk (be ps 4 2) = true →
       let live := { s.live with shares := s.live.shares.set (be ps 1 1) (BitVec.ofNat 16 (be ps 2 2), BitVec.ofNat 16 (be ps 4 2)) }
       Replies (.sharesSetClient h ps) 0x0206 h s { accepted s h with live := live }
         (State.sharesReply { s with live := live } 0 (be ps 1 1))) ∧
     (Takes s 0x0206 h ps → be ps 0 1 = 1 →
       Replies (.sharesReadClient h ps) 0x0206 h s (accepted s h) (s.sharesReply 1 (be ps 1 1))) ∧
     (Takes s 0x0206 h ps → be ps 0 1 = 2 → schedConfigOk (BitVec.ofNat 64 (be ps 8 8)) = true →
       let live := { s.live with schedConfig := BitVec.ofNat 64 (be ps 8 8) }
       Replies (.schedConfigWrite h ps) 0x0206 h s { accepted s h with live := live }
         (State.sharesReply { s with live := live } 2 (be ps 1 1))) ∧
     (Takes s 0x0206 h ps → be ps 0 1 = 3 →
       Replies (.schedConfigRead h ps) 0x0206 h s (accepted s h) (s.sharesReply 3 (be ps 1 1))) ∧
     ∀ (first : Byte) (count : Half) (clear : Bool),
       let qs : List Byte := first :: (beBytes 2 count.toNat ++ [if clear then 1 else 0])
       Takes s 0x0207 h qs → 1 ≤ count.toNat → first.toNat + count.toNat ≤ 256 →
       Replies (.accountRead h qs) 0x0207 h s
         (if clear then
           { accepted s h with sched := { s.sched with accounts := s.sched.accounts.filter fun a =>
               !(first.toNat ≤ a.1 && a.1 < first.toNat + count.toNat) } }
         else accepted s h)
         (((List.range count.toNat).map (first.toNat + ·)).flatMap s.accountRecord))

/-! ### Groups 0x03 to 0x05: streams, ports, carding -/

/-- R394, R41: a STREAM_OPEN without a fault opens a stream with a new id, which its reply carries, with its rate, program,
deck, client and share, on the Shuttle that placement gives, with the lowest free frame port and an allocated save area. -/
def Obligations.StreamOpenCompletes : Prop :=
  ∀ (s : State) (h : Hdr) (ps : List Byte) (c p v b : Nat) (s1 : State),
    let program : Word := BitVec.ofNat 32 (be ps 4 4)
    Takes s 0x0301 h ps → ps.length = 56 → streamRate (be ps 0 4) = true → (s.program? program).isSome = true →
    be ps 13 1 ≤ 1 → feedAddrOk (be ps 8 4) (be ps 16 8) = true → (be ps 13 1 = 0 → zeroAt ps 24 32 = true) →
    (be ps 8 4 ≠ 0 → (s.deck? (be ps 8 4)).isSome = true) → s.phase ≠ 1 → s.phase ≠ 3 → s.audio.streams.length < 8192 →
    s.placeStream (be ps 0 4) program 0 (fun _ _ => true) = some (c, p) →
    (accepted s h).allocSave (c / 4) 1 = some ((v, b), s1) →
    ∃ (t : Stream) (s2 : State),
      (if be ps 13 1 = 1 then s2 = s1 ∧ t.ctx.key = slice ps 24 32
        else s2 = { s1 with free := s1.free + 1 } ∧ t.ctx.key = (List.range 32).map (Config.randomByte s1.free)) ∧
      exec (.streamOpen h ps) s = .next (answered 0x0301 h
        { s2 with audio := { s2.audio with streams := s2.audio.streams ++ [t], nextStream := s.freshStream + 1 } }
        .ok s.freshStream false
        (beBytes 1 c ++ beBytes 1 p ++ zeros 2 ++ beBytes 2 t.port ++ beBytes 1 v ++ zeros 1
          ++ beBytes 8 (frameAddr t.port))) ∧
      t.id = s.freshStream ∧ t.rate = be ps 0 4 ∧ t.openProgram = program ∧ t.ctx.program = program ∧ t.deck = be ps 8 4
        ∧ t.client = be ps 12 1 ∧ t.share = be ps 14 2 ∧ t.feedAddr = be ps 16 8 ∧ t.cluster = c ∧ t.pos = p
        ∧ t.saveVault = v ∧ t.saveBlock = b ∧ t.port = s.freeFramePort ∧ t.feed = [] ∧ t.phrases = [] ∧ t.eos = false
        ∧ t.ctx.nextSeq = 0 ∧ t.ctx.step = 0 ∧ t.egress = .none

/-- R395, R396, R398, R401: STREAM_FEED appends its tokens and answers the queue's new length; STREAM_MARK closes the queued
tokens into the next phrase, or, with nothing queued, answers 0xFFFF_FFFF; KIND 1 ends the stream's feed; STREAM_CLOSE closes
the stream; STREAM_STATUS answers its record. -/
def Obligations.StreamFeedCommandsComplete : Prop :=
  ∀ (s : State) (h : Hdr) (ps : List Byte) (t : Stream), s.stream? h.context = some t → t.id = h.context →
    (Takes s 0x0302 h ps → 4 ≤ ps.length → ps.length = 4 + 4 * be ps 0 2 → 1 ≤ be ps 0 2 → be ps 0 2 ≤ 2232 →
      zeroAt ps 2 2 = true → t.eos = false → t.feed.length + be ps 0 2 ≤ 65536 →
      Replies (.streamFeed h ps) 0x0302 h s
        ((accepted s h).mapStream h.context fun t =>
          { t with feed := t.feed ++ (List.range (be ps 0 2)).map fun i => BitVec.ofNat 32 (be ps (4 + 4 * i) 4) })
        (beBytes 4 (t.feed.length + be ps 0 2))) ∧
    (Takes s 0x0303 h ps → ps.length = 4 → be ps 0 1 ≤ 1 → zeroAt ps 1 3 = true → t.eos = false → t.phrases.length < 64 →
      (be ps 0 1 = 0 → t.feed ≠ [] →
        Replies (.streamMarkPhrase h ps) 0x0303 h s
          ((accepted s h).mapStream h.context fun t => t.closePhrase false) (beBytes 4 t.nextPhrase.toNat)) ∧
      (be ps 0 1 = 0 → t.feed = [] →
        Replies (.streamMarkPhrase h ps) 0x0303 h s (accepted s h) (beBytes 4 0xFFFFFFFF)) ∧
      (be ps 0 1 = 1 →
        Replies (.streamMarkEnd h ps) 0x0303 h s
          ((accepted s h).mapStream h.context fun t => t.closePhrase true) (beBytes 4 t.nextPhrase.toNat)) ∧
      (t.closePhrase false).feed = [] ∧ (t.closePhrase true).eos = true
        ∧ (t.closePhrase false).nextPhrase = t.nextPhrase + 1) ∧
    (Takes s 0x0304 h [] → Replies (.streamClose h []) 0x0304 h s ((accepted s h).closeStream h.context) []) ∧
    (Takes s 0x0307 h [] → Replies (.streamStatus h []) 0x0307 h s (accepted s h) t.statusRecord)

/-- R399, R400: STREAM_ROUTE whose checks pass sets the stream's egress, where it asks for one, and the Shuttle that it moves
to, where it asks for a move; STREAM_FALLBACK_SET sets the stream's own threshold, removes it, or asks for the program that the
stream was opened with, alone or beside the first two. -/
def Obligations.StreamRouteAndFallbackComplete : Prop :=
  ∀ (s : State) (h : Hdr) (ps : List Byte) (t : Stream), s.stream? h.context = some t → t.id = h.context →
    (∀ (r : Option Egress) (d : Option (Nat × Nat)),
      Takes s 0x0305 h ps → 28 ≤ ps.length → ps.length = 28 + (if be ps 0 1 = 1 then 20 * be ps 6 1 else 0) →
      be ps 0 1 ≤ 3 → be ps 1 1 ≤ 1 → (be ps 2 1 ≤ 15 ∨ be ps 2 1 = 0xFF) → (be ps 3 1 ≤ 16 ∨ be ps 3 1 = 0xFF) →
      s.routeAsked t ps = .ok r → s.moveAsked t ps = .ok d →
      Replies (.streamRoute h ps) 0x0305 h s
        ((accepted s h).mapStream h.context fun t =>
          let u := match r with
            | some e => t.route e
            | none => t
          match d with
          | some m => { u with moveTo := some m }
          | none => u) []) ∧
    (let set := bitOf (be ps 0 1) 0
     let clear := bitOf (be ps 0 1) 1
     let back := bitOf (be ps 0 1) 2
     let t' := (accepted s h).mapStream h.context fun u =>
       let u := if set then { u with ownThreshold := some (be ps 2 2, be ps 4 2) }
         else if clear then { u with ownThreshold := none } else u
       if back then u.await ⟨u.openProgram, true, none, [], false⟩ ((s.runsOn t t.openProgram).getD t.home) else u
     Takes s 0x0306 h ps → ps.length = 6 → be ps 0 1 < 8 → zeroAt ps 1 1 = true → ¬ (set = true ∧ clear = true) →
       (set = true → 1 ≤ be ps 2 2 ∧ be ps 2 2 ≤ 8191 ∧ be ps 4 2 < be ps 2 2) →
       (back = true → t.current ≠ t.openProgram) →
       (set = true → Replies (.streamFallbackThreshold h ps) 0x0306 h s t' []) ∧
       (clear = true → Replies (.streamFallbackClear h ps) 0x0306 h s t' []) ∧
       (back = true → Replies (.streamFallbackReturn h ps) 0x0306 h s t' []))

/-- R409 to R413: PORT_CONFIG writes a good record of a port that does not run and answers it, or answers the record held;
PORT_START makes the named ports run; PORT_STOP stops each; PORT_STATUS answers the record of the port. -/
def Obligations.PortCommandsComplete : Prop :=
  ∀ (s : State) (h : Hdr) (ps : List Byte),
    (Takes s 0x0401 h ps → 4 ≤ ps.length → be ps 0 1 < 32 ∨ be ps 0 1 = 0x40 → zeroAt ps 3 1 = true →
      be ps 2 1 = 0 ∨ be ps 2 1 = 1 ∧ be ps 0 1 = 0x40 →
      (be ps 1 1 = 0 → ps.length = 4 + recordBytes (be ps 2 1) → s.recordOk (be ps 0 1) (be ps 2 1) (ps.drop 4) = true →
        (be ps 0 1 < 32 → (s.reed (be ps 0 1)).running = false) →
        let t := (accepted s h).setRecord (be ps 0 1) (be ps 2 1) (ps.drop 4)
        Replies (.portConfigWrite h ps) 0x0401 h s t (ps.take 4 ++ t.portRecord (be ps 0 1) (be ps 2 1))) ∧
      (be ps 1 1 = 1 → ps.length = 4 →
        Replies (.portConfigRead h ps) 0x0401 h s (accepted s h) (ps ++ s.portRecord (be ps 0 1) (be ps 2 1)))) ∧
    (Takes s 0x0402 h ps → ps.length = 4 → be ps 0 4 ≠ 0 →
      (∀ c ∈ portsOf (be ps 0 4), (s.reed c).running = false ∧ s.domainOn (reedDomain c) = true
        ∧ (16 ≤ c → s.reedClock c ≠ 0)) →
      let named := portsOf (be ps 0 4)
      let begun := (accepted s h).startPorts named
      let t := named.foldl (fun u c => u.mapReed c fun p => { p with clockOk := 16 ≤ c && begun.clockUsable c }) begun
      Replies (.portStart h ps) 0x0402 h s t [] ∧
        ∀ c ∈ named, s.audio.ins.length = 16 → s.audio.outs.length = 16 → (t.reed c).running = true) ∧
    (Takes s 0x0403 h ps → ps.length = 4 → be ps 0 4 ≠ 0 →
      Replies (.portStop h ps) 0x0403 h s ((portsOf (be ps 0 4)).foldl State.stopPort (accepted s h)) []) ∧
    (Takes s 0x0404 h ps → ps.length = 4 → zeroAt ps 1 3 = true →
      (be ps 0 1 < 32 → Replies (.portStatus h ps) 0x0404 h s (accepted s h) (s.reedRecord (be ps 0 1))) ∧
      (be ps 0 1 = 0x40 → Replies (.portStatus h ps) 0x0404 h s (accepted s h) s.linkRecord) ∧
      (0x20 ≤ be ps 0 1 → be ps 0 1 ≤ 0x23 →
        Replies (.portStatus h ps) 0x0404 h s (accepted s h)
          (nth s.audio.wclks (be ps 0 1 - 0x20) .unlocked).record))

/-- R414, R474: CARD_CONFIG OP 0 without a fault opens an ingress stream with a new id, which its reply carries, on the port
and channel named, with its curve, frame length, repairs and gain; OP 1 closes the stream and frees its save area. -/
def Obligations.CardConfigCompletes : Prop :=
  ∀ (s : State) (h : Hdr) (ps : List Byte),
    (∀ (v b : Nat) (s1 : State),
      Takes s 0x0501 h ps → ps.length = 28 → be ps 0 1 = 0 → be ps 1 1 < 16 → be ps 2 1 ≤ 1 → be ps 3 1 ≤ 31 →
      s.curveUsed (be ps 3 1) = true → 64 ≤ be ps 4 2 → be ps 4 2 ≤ 4096 → be ps 4 2 % 64 = 0 → be ps 6 1 < 8 →
      zeroAt ps 7 1 = true → gainOk (BitVec.ofNat 32 (be ps 8 4)) = true →
      s.ringFits (be ps 12 8) (be ps 20 2) (be ps 4 2) 4 = true → 2 ≤ be ps 20 2 → be ps 20 2 ≤ 1024 → zeroAt ps 24 4 = true → s.domainOn 111 = true →
      (∀ g ∈ s.audio.ingress, ¬ (g.port = be ps 1 1 ∧ g.channel = be ps 2 1)) → s.audio.ingress.length < 64 →
      (accepted s h).allocSave 2 2 = some ((v, b), s1) →
      ∃ g : Ingress,
        exec (.cardConfigOpen h ps) s = .next (answered 0x0501 h
          { s1 with audio := { s1.audio with ingress := s1.audio.ingress ++ [g], nextStream := s.freshStream + 1 } }
          .ok s.freshStream false (zeros 4)) ∧
        g.id = s.freshStream ∧ g.port = be ps 1 1 ∧ g.channel = be ps 2 1 ∧ g.curve = be ps 3 1 ∧ g.frameSamples = be ps 4 2
          ∧ g.repair = BitVec.ofNat 3 (be ps 6 1) ∧ g.gain = BitVec.ofNat 32 (be ps 8 4) ∧ g.statsEvery = be ps 22 2
          ∧ g.saveVault = v ∧ g.saveBlock = b ∧ g.frame = 0 ∧ g.stats = [] ∧ g.taps = []) ∧
    (∀ g : Ingress, Takes s 0x0501 h ps → ps.length = 28 → be ps 0 1 = 1 → s.ingress? h.context = some g →
      Replies (.cardConfigClose h ps) 0x0501 h s ((accepted s h).closeIngress g) [])

/-- R415 to R417, R467: CARD_GAIN for a frame that no setting waits for queues one, at the next frame when its own has begun, and
otherwise changes the gain and the curve that it names of the setting that waits;
CARD_TAP starts a ring at a free point, or stops the ring at a point; CARD_STATS answers a completed frame's statistics. -/
def Obligations.CardingCommandsComplete : Prop :=
  ∀ (s : State) (h : Hdr) (ps : List Byte) (g : Ingress), s.ingress? h.context = some g → g.id = h.context →
    (Takes s 0x0502 h ps → ps.length = 12 → (be ps 9 1 = 1 → gainOk (BitVec.ofNat 32 (be ps 4 4)) = true) → be ps 9 1 < 2 →
      (be ps 8 1 = 0xFF ∨ (be ps 8 1 ≤ 31 ∧ s.curveUsed (be ps 8 1) = true)) → zeroAt ps 10 2 = true →
      let target : Word := BitVec.ofNat 32 (be ps 0 4)
      let frame := if 2 ^ 31 ≤ (target - g.nextFrame).toNat then g.nextFrame else target
      let gain := if be ps 9 1 = 1 then some (BitVec.ofNat 32 (be ps 4 4)) else none
      let curve := if be ps 8 1 = 0xFF then none else some (be ps 8 1)
      ((∀ c ∈ g.settings, c.frame ≠ frame) → g.settings.length < 8 →
        Replies (.cardGain h ps) 0x0502 h s
          ((accepted s h).mapIngress h.context fun k => { k with settings := g.settings ++ [⟨frame, gain, curve⟩] })
          (beBytes 4 frame.toNat)) ∧
      ∀ (pre post : List CardSetting) (c : CardSetting), g.settings = pre ++ c :: post → (∀ d ∈ pre, d.frame ≠ frame) →
        c.frame = frame →
        Replies (.cardGain h ps) 0x0502 h s
          ((accepted s h).mapIngress h.context fun k =>
            { k with settings := pre ++ { c with gain := gain.or c.gain, curve := curve.or c.curve } :: post })
          (beBytes 4 frame.toNat)) ∧
    (Takes s 0x0503 h ps → ps.length = 16 → be ps 1 1 ≤ 3 → zeroAt ps 4 4 = true →
      (be ps 0 1 = 0 → 2 ≤ be ps 2 2 → be ps 2 2 ≤ 1024 →
        s.ringFits (be ps 8 8) (be ps 2 2) g.frameSamples (s.tapBytes g (be ps 1 1)) = true →
        (∀ r ∈ g.taps, r.point ≠ be ps 1 1) → g.taps.length < 2 →
        Replies (.cardTapStart h ps) 0x0503 h s
          ((accepted s h).mapIngress h.context fun k =>
            { k with taps := k.taps ++ [Ring.start (be ps 1 1) (be ps 8 8) (be ps 2 2) (s.tapBytes g (be ps 1 1))] }) []) ∧
      (be ps 0 1 = 1 →
        Replies (.cardTapStop h ps) 0x0503 h s
          ((accepted s h).mapIngress h.context fun k => { k with taps := k.taps.filter fun r => r.point != be ps 1 1 }) [])) ∧
    (∀ r : Word × List Byte, Takes s 0x0504 h ps → ps.length = 4 →
      (be ps 0 4 = 0xFFFFFFFF → g.stats.getLast? = some r → Replies (.cardStats h ps) 0x0504 h s (accepted s h) r.2) ∧
      (be ps 0 4 ≠ 0xFFFFFFFF → (g.stats.find? fun q => q.1 == BitVec.ofNat 32 (be ps 0 4)) = some r →
        Replies (.cardStats h ps) 0x0504 h s (accepted s h) r.2))

/-! ### Groups 0x06 to 0x0B: power, security, debug, recorder, tables, settings, system -/

/-- R420, R421, R489: DOMAIN_CTRL switches off a domain that may stop, switches on a domain that is off (that of an absent channel
stays off: the model's reading, log 167), or answers the masks of powered
and latched domains; PAD_RELEASE releases the latched pads of powered domains and answers how many. -/
def Obligations.DomainCommandsComplete : Prop :=
  ∀ (s : State) (h : Hdr) (ps : List Byte), ps.length = 4 →
    (Takes s 0x0602 h ps → zeroAt ps 1 1 = true →
      (be ps 0 1 = 0 → be ps 2 2 < 129 → s.offRefusal (be ps 2 2) = none →
        Replies (.domainCtrlOff h ps) 0x0602 h s ((accepted s h).domainOff (be ps 2 2)) []) ∧
      (be ps 0 1 = 1 → be ps 2 2 < 129 →
        Replies (.domainCtrlOn h ps) 0x0602 h s
          (if s.power.powered.getLsbD (be ps 2 2) || s.absentPhy (be ps 2 2) then accepted s h
           else (accepted s h).switchOn (be ps 2 2)) []) ∧
      (be ps 0 1 = 2 →
        Replies (.domainCtrlRead h ps) 0x0602 h s (accepted s h)
          (beBytes 17 s.power.powered.toNat ++ beBytes 17 s.power.latched.toNat))) ∧
    (Takes s 0x0603 h ps → zeroAt ps 2 2 = true →
      (be ps 0 2 = 0xFFFF ∨ be ps 0 2 < 129 ∧ s.power.powered.getLsbD (be ps 0 2) = true) →
      ∃ t : State, Replies (.padRelease h ps) 0x0603 h s t (beBytes 2 (s.padsNamed (be ps 0 2)).length) ∧
        (∀ d, d < 129 → t.power.latched.getLsbD d
          = (s.power.latched.getLsbD d && decide (d ∉ s.padsNamed (be ps 0 2)))) ∧
        t.power.powered = s.power.powered ∧ t.power.state = s.power.state ∧ t.memory = s.memory ∧ t.sched = s.sched)

/-- R418, R419, R475 to R480, R503: POWER_STATE for another state is ACCEPTED, and the entry, once the devices that R503 names have
replied, or the return follows the reply; a read, or a request for the present state, answers the state and changes nothing. R422, R423: VOLTAGE_POLICY and POWER_CEILING
set the live retained value, or leave it, and answer the value in force with what is measured. -/
def Obligations.PowerCommandsComplete : Prop :=
  (∀ (s : State) (h : Hdr) (ps : List Byte), Takes s 0x0601 h ps → ps.length = 4 → be ps 1 1 ≤ 1 → zeroAt ps 2 2 = true →
     (be ps 0 1 ≤ 4 → be ps 0 1 ≠ s.power.state.code →
       (be ps 0 1 = 0 ∨ be ps 1 1 = 1 ∨ ∀ j ∈ s.sched.jobs, j.ready = true) →
       let t := answered 0x0601 h (accepted s h) .accepted h.context false []
       exec (.powerState h ps) s
         = .next ((t.enterState (powerStateOf (be ps 0 1)) (t.repliesTo h)).askedBy h ps)) ∧
     (be ps 0 1 = s.power.state.code →
       Replies (.powerState h ps) 0x0601 h s (accepted s h) (beBytes 1 s.power.state.code ++ zeros 3)) ∧
     (be ps 0 1 = 0xFF →
       Replies (.powerStateRead h ps) 0x0601 h s (accepted s h) (beBytes 1 s.power.state.code ++ zeros 3))) ∧
  (∀ (s : State) (h : Hdr) (ps : List Byte),
     (Takes s 0x0604 h ps → zeroAt ps 1 3 = true →
       (be ps 0 1 = 0 → ps.length = 12 →
         let v : DWord := BitVec.ofNat 64 (be ps 4 8)
         voltagePolicyOk v = true →
         (fld v 43 42 = 1 → ¬ paceAt (fld v 53 44) s.hottest < (fld v 41 21 : Rat)) →
         let t := { accepted s h with live := { s.live with voltagePolicy := v } }.steerVcore
         Replies (.voltagePolicyWrite h ps) 0x0604 h s t (beBytes 8 v.toNat ++ beBytes 2 t.power.vcoreMv ++ zeros 2)
           ∧ t.live.voltagePolicy = v) ∧
       (be ps 0 1 = 1 → ps.length = 4 →
         Replies (.voltagePolicyRead h ps) 0x0604 h s (accepted s h)
           (beBytes 8 s.live.voltagePolicy.toNat ++ beBytes 2 s.power.vcoreMv ++ zeros 2))) ∧
     (Takes s 0x0605 h ps → ps.length = 4 → zeroAt ps 2 2 = true →
       (be ps 0 2 ≠ 0 → ceilingOk (be ps 0 2) = true →
         Replies (.powerCeilingSet h ps) 0x0605 h s
           { accepted s h with live := { s.live with ceiling := BitVec.ofNat 16 (be ps 0 2) } }
           (beBytes 2 (be ps 0 2) ++ beBytes 2 s.power.powerW.toNat)) ∧
       (be ps 0 2 = 0 →
         Replies (.powerCeilingRead h ps) 0x0605 h s (accepted s h)
           (beBytes 2 s.live.ceiling.toNat ++ beBytes 2 s.power.powerW.toNat))))

/-- R424, R505, R507, R512, R519: ATTEST answers a quote with its signature; KEY_INSTALL of an envelope that is signed by the
owner, newer than the slot, and unwraps fills its slot, and restarts the MKA participant of a CAK in use; LIFECYCLE's read answers the stage. R509 to R511: LIFECYCLE with a
signed token for a permitted transition changes the stage, answers the new stage, and a cold reset follows the reply. -/
def Obligations.BarkCommandsComplete : Prop :=
  (∀ (s : State) (h : Hdr) (ps : List Byte),
     (Takes s 0x0701 h ps → ps.length = 36 → bitsOf (be ps 32 4) 29 10 = 0 →
       ¬ (bitOf (be ps 32 4) 30 = true ∧ bitOf (be ps 32 4) 31 = true) →
       let q := s.quoteBody (ps.take 32) (be ps 32 4)
       Replies (.attest h ps) 0x0701 h s
         { accepted s h with bark := { s.bark with signatures := s.bark.signatures + 1 } }
         (q ++ Config.falconSign s.akSeed q (s.bark.signatures + 1))) ∧
     (∀ payload : List Byte,
       let kind := be ps 0 1
       let slot := be ps 1 1
       let e := ps.drop 4
       Takes s 0x0702 h ps → 12 ≤ ps.length → ps.length = 4 + envelopeLen kind (bitOf (be e 7 1) 0) → kind ≤ 2 → slot ≤ 3 →
       zeroAt ps 2 2 = true → firstBad (envelopeChecks e kind slot) = none → s.bark.lifecycle ≠ 0 → s.bark.lifecycle ≠ 3 →
       slice e 8 8 = serialBytes → (nth (s.keyStore.kind kind) slot .empty).generation.toNat < be e 16 4 →
       signedBy [s.bark.ownerDigest] e = true → envelopePayload e kind slot = some payload →
       Replies (.keyInstall h ps) 0x0702 h s
         (let t := (accepted s h).writeKeyStore (s.keyStore.setSlot kind slot ⟨BitVec.ofNat 32 (be e 16 4), payload⟩)
          if kind = 0 ∧ s.net.mkaSlot = some slot then { t with net := t.net.unsecure } else t) []) ∧
     (Takes s 0x0703 h ps → ps.length = 4 → be ps 0 1 = 0xFF → zeroAt ps 1 3 = true →
       Replies (.lifecycleRead h ps) 0x0703 h s (accepted s h) ([s.bark.lifecycle] ++ zeros 3))) ∧
  (∀ (s : State) (h : Hdr) (ps : List Byte),
     (∀ signers : List (List Byte),
       let t := ps.drop 4
       Takes s 0x0703 h ps → ps.length = 52 + trailerBytes → be ps 0 1 ≤ 3 → zeroAt ps 1 3 = true →
       be t 0 4 = 0x4C435431 → be t 4 1 = 1 → be t 6 1 = be ps 0 1 → zeroAt t 7 1 = true →
       (be ps 0 1 ≠ 1 → zeroAt t 16 32 = true) → s.lifecycleSigners (be ps 0 1) = some signers →
       be t 5 1 = s.bark.lifecycle.toNat → slice t 8 8 = serialBytes → signedBy signers t = true →
       ∃ s' : State, exec (.lifecycleTransition h ps) s
           = .next (answered 0x0703 h s' .ok h.context false ([BitVec.ofNat 8 (be ps 0 1)] ++ zeros 3)).coldReset
         ∧ s' = (accepted s h).burnLifecycle (be ps 0 1) (slice t 16 32)
         ∧ s'.bark.lifecycle = BitVec.ofNat 8 (be ps 0 1)))

/-- R425, R514, R515, R567: FW_INSTALL takes a signed manifest that is no rollback, writes chunks in order, checks the whole
image against its manifest, and answers its progress. R517: MODEL_KEY installs a key that an authority slot unwraps under a
new id, and deletes a key that no loading model uses. -/
def Obligations.FirmwareAndModelKeysComplete : Prop :=
  (∀ (s : State) (h : Hdr) (ps : List Byte) (i : Install), Takes s 0x0704 h ps → zeroAt ps 1 3 = true →
     (be ps 0 1 = 0 →
       let m := ps.drop 4
       ps.length = 68 + trailerBytes → be m 0 4 = 0x464D4631 → be m 4 1 = 1 → zeroAt m 5 3 = true →
       1 ≤ manifestImageBytes m → manifestImageBytes m ≤ 33554432 → zeroAt m 56 8 = true → manifestSigned m = true →
       s.rollbackValue ≤ manifestSvn m →
       Replies (.fwInstallManifest h ps) 0x0704 h s
         { accepted s h with
           flash := { s.flash with manifest := [] },
           bark := { s.bark with install := some ⟨h.iface.master, m, 0, manifestImageBytes m⟩ } } (beBytes 4 0)) ∧
     (be ps 0 1 = 1 → s.bark.install = some i → i.owner = h.iface.master → 12 ≤ ps.length → ps.length = 12 + be ps 8 4 →
       1 ≤ be ps 8 4 → be ps 8 4 ≤ 2097152 → be ps 4 4 = i.next → i.next + be ps 8 4 ≤ i.bytes →
       Replies (.fwInstallChunk h ps) 0x0704 h s
         { accepted s h with
           flash := { s.flash with image := writeImage s.flash.image i.next (ps.drop 12) },
           bark := { s.bark with install := some { i with next := i.next + be ps 8 4 } } } (beBytes 4 (i.next + be ps 8 4))) ∧
     (be ps 0 1 = 2 → ps.length = 4 → s.bark.install = some i → i.owner = h.iface.master → i.bytes ≤ i.next →
       imageMatches i.manifest s.flash.image = true →
       Replies (.fwInstallFinish h ps) 0x0704 h s
         { accepted s h with
           flash := { s.flash with manifest := i.manifest },
           bark := { s.bark with install := none, imageCopy := none } } []) ∧
     (be ps 0 1 = 3 → ps.length = 4 →
       Replies (.fwInstallRead h ps) 0x0704 h s (accepted s h)
         (match s.bark.install with
           | none => zeros 8
           | some i => [1] ++ zeros 3 ++ beBytes 4 i.next))) ∧
  (∀ (s : State) (h : Hdr) (ps : List Byte), Takes s 0x0705 h ps → zeroAt ps 1 3 = true → be ps 4 4 ≠ 0 →
     s.bark.lifecycle ≠ 0 → s.bark.lifecycle ≠ 3 →
     let id : Word := BitVec.ofNat 32 (be ps 4 4)
     (∀ key : List Byte, be ps 0 1 = 0 → ps.length = 1616 → (∀ k ∈ s.bark.modelKeys, k.1 ≠ id) → s.bark.modelKeys.length < 32 →
       s.modelKeyUnwrap (slice ps 4 4) (slice ps 8 1568) (slice ps 1576 40) = some key →
       Replies (.modelKeyInstall h ps) 0x0705 h s
         { accepted s h with bark := { s.bark with modelKeys := s.bark.modelKeys ++ [(id, key)] } } []) ∧
     (be ps 0 1 = 1 → ps.length = 8 →
       (∀ m ∈ s.sched.models, ¬ (m.committed = false ∧ m.encrypted = true ∧ m.keyId = id)) →
       Replies (.modelKeyDelete h ps) 0x0705 h s
         { accepted s h with bark := { s.bark with modelKeys := s.bark.modelKeys.filter fun k => k.1 != id } } []))

/-- R426, R521, R522: DEBUG_UNLOCK with a token that names this device and boot, has not passed, and is signed by a permitted
key issues a grant, whose id its reply carries; DEBUG_LOCK ends one grant, or all of them. R426 to R428, R118: under a live
grant TRACE_CTRL starts and stops a trace, LOOM_HALT halts and resumes a Loom, and LOOM_STEP runs up to COUNT cards of an
engine and answers how many, with the context's record. -/
def Obligations.DebugAccessCommandsComplete : Prop :=
  (∀ (s : State) (h : Hdr) (ps : List Byte),
     (∀ signers : List (List Byte),
       let t := ps.drop 4
       Takes s 0x0801 h ps → ps.length = 36 + trailerBytes → (be ps 0 1 = 1 ∨ be ps 0 1 = 2) → zeroAt ps 1 3 = true →
       be t 0 4 = 0x44475431 → be t 4 1 = 1 → be t 5 1 = be ps 0 1 → be t 6 2 ≤ 3 → zeroAt t 24 8 = true →
       s.tokenSigners (be ps 0 1) = some signers → slice t 8 8 = serialBytes → be t 16 4 = s.recorder.cycles.toNat →
       s.recorder.minutes.toNat < be t 20 4 → signedBy signers t = true →
       Replies (.debugUnlock h ps) 0x0801 h s
         ((accepted s h).issueGrant (be ps 0 1) (BitVec.ofNat 16 (be t 6 2)) (BitVec.ofNat 32 (be t 20 4))
           (Crypto.digest (signerOf t)))
         (beBytes 4 s.bark.nextGrant.toNat)) ∧
     (Takes s 0x0802 h ps → ps.length = 4 →
       let id : Word := BitVec.ofNat 32 (be ps 0 4)
       (be ps 0 4 = 0 → Replies (.debugLock h ps) 0x0802 h s ((accepted s h).keepGrants []) []) ∧
       (be ps 0 4 ≠ 0 → (∃ g ∈ s.bark.grants, g.id = id) →
         Replies (.debugLock h ps) 0x0802 h s
           ((accepted s h).keepGrants (s.bark.grants.filter fun g => g.id != id)) []))) ∧
  (∀ (s : State) (h : Hdr) (ps : List Byte), s.bark.grants ≠ [] →
     (Takes s 0x0803 h ps → ps.length = 16 → zeroAt ps 3 1 = true →
       (∀ d, let ring : Sys2Proof.Machine.Trace :=
           { first := be ps 1 1, count := be ps 2 1, records := be ps 4 4, dest := be ps 8 8, written := 0 }
         be ps 0 1 = 1 → be ps 1 1 + be ps 2 1 ≤ 68 → 1024 ≤ be ps 4 4 → be ps 4 4 ≤ 1048576 →
         s.traceDent (be ps 8 8) (be ps 4 4) = some d → s.bark.trace = none → s.memBusy (false, d) = false →
         Replies (.traceCtrlStart h ps) 0x0803 h s
           { accepted s h with bark := { s.bark with trace := some ring } } []) ∧
       (be ps 0 1 = 0 →
         Replies (.traceCtrlStop h ps) 0x0803 h s { accepted s h with bark := { s.bark with trace := none } } [])) ∧
     (Takes s 0x0804 h ps → ps.length = 4 → zeroAt ps 2 2 = true → be ps 0 1 < 68 → (s.loom (be ps 0 1)).failed = false →
       s.power.powered.getLsbD (be ps 0 1) = true →
       (be ps 1 1 = 0 →
         Replies (.loomHalt h ps) 0x0804 h s ((accepted s h).mapLoom (be ps 0 1) fun u => { u with halted := true }) []) ∧
       (be ps 1 1 = 1 →
         Replies (.loomResume h ps) 0x0804 h s ((accepted s h).mapLoom (be ps 0 1) fun u => { u with halted := false }) [])) ∧
     (∀ c : Ctx, Takes s 0x0805 h ps → ps.length = 8 → be ps 0 1 < 68 → be ps 1 1 < 16 → be ps 2 1 ≤ 1 → zeroAt ps 3 1 = true →
       be ps 4 2 ≠ 0 → zeroAt ps 6 2 = true → (s.loom (be ps 0 1)).halted = true →
       s.resident? (be ps 0 1) (be ps 1 1) = some c →
       let r := State.stepCards (be ps 4 2) (accepted s h) (be ps 0 1) (be ps 1 1)
         (if be ps 2 1 = 0 then .fetch else .execute) 0
       Replies (.loomStep h ps) 0x0805 h s r.1
         (beBytes 2 r.2 ++ zeros 2 ++ r.1.archRecord ((r.1.ctx? c.job c.position).getD c) ((r.1.ctx? c.job c.position).getD c).arch)))

/-- R51, R374: PACE_READ answers the records of the named counters in powered domains; with CLEAR it sets their lowest rates
to 0. R429, R430, R560: RING_INFO and RING_READ answer the classes and the records; TABLE_WRITE of entries that are legal and
not in use replaces them; TABLE_READ answers entries. R437, R438: SETTINGS_COMMIT writes an image of the live values, one
generation on, into the slot that is not current and makes it current, or invalidates both slots; SETTINGS_READ answers the
current image's bytes. -/
def Obligations.TableAndSettingsCommandsComplete : Prop :=
  ((∀ (s : State) (h : Hdr) (kind first count : Byte) (clear : Bool),
      let ps : List Byte := [kind, first, count, if clear then 1 else 0]
      let named := fun (c : PaceCounter) =>
        (kind = 0xFF ∨ c.kind = kind.toNat ∧ first.toNat ≤ c.index ∧ c.index < first.toNat + count.toNat)
          ∧ s.power.powered.getLsbD (if c.kind = 0 then c.index else if c.kind = 1 then 68 + c.index else 112) = true
      let cleared := fun (c : PaceCounter) => if decide (named c) then { c with minRate := 0, cleared := true } else c
      Takes s 0x0006 h ps →
      (kind = 0xFF ∨ kind.toNat ≤ 2 ∧ 1 ≤ count.toNat ∧ first.toNat + count.toNat ≤ paceUnits kind.toNat) →
      Replies (.paceRead h ps) 0x0006 h s
        (if clear then
          { accepted s h with pace := { s.pace with counters := s.pace.counters.map cleared } }
        else accepted s h)
        ((s.pace.counters.filter fun c => decide (named c)).flatMap PaceCounter.record)) ∧
   (∀ (s : State) (h : Hdr) (ps : List Byte) (n size : Nat),
      (Takes s 0x0901 h [] →
        Replies (.ringInfo h []) 0x0901 h s (accepted s h) (s.recorder.info 0 ++ s.recorder.info 1)) ∧
      (Takes s 0x0902 h ps → ps.length = 10 → be ps 0 1 ≤ 1 → zeroAt ps 1 3 = true → be ps 4 4 < (ringShape (be ps 0 1)).1 →
        1 ≤ be ps 8 2 → be ps 8 2 ≤ (if be ps 0 1 = 0 then 139 else 279) →
        let rs := ((s.recorder.class (be ps 0 1)).slots.drop (be ps 4 4)).take (be ps 8 2)
        Replies (.ringRead h ps) 0x0902 h s (accepted s h)
          (beBytes 1 (be ps 0 1) ++ zeros 1 ++ beBytes 4 (be ps 4 4) ++ beBytes 2 rs.length ++ rs.flatten)) ∧
      (Takes s 0x0A01 h ps → 8 ≤ ps.length → 1 ≤ be ps 0 1 → be ps 0 1 ≤ 6 → zeroAt ps 1 1 = true →
        tableSize (be ps 0 1) = some (n, size) → ps.length = 8 + be ps 4 2 * size → be ps 2 2 ≤ n → be ps 2 2 + be ps 4 2 ≤ n →
        zeroAt ps 6 2 = true →
        let written := chunk size (be ps 4 2) (ps.drop 8)
        let c := replaceEntries (s.live.table (be ps 0 1)) (be ps 2 2) written
        tableWriteOk (be ps 0 1) written c = true → (∀ i, i < be ps 4 2 → s.entryBusy (be ps 0 1) (be ps 2 2 + i) = false) →
        Replies (.tableWrite h ps) 0x0A01 h s { accepted s h with live := s.live.setTable (be ps 0 1) c } []) ∧
      (Takes s 0x0A02 h ps → ps.length = 8 → zeroAt ps 1 1 = true → zeroAt ps 6 2 = true →
        tableSize (be ps 0 1) = some (n, size) → be ps 2 2 ≤ n → be ps 2 2 + be ps 4 2 ≤ n → 8 + be ps 4 2 * size ≤ 8960 →
        Replies (.tableRead h ps) 0x0A02 h s (accepted s h)
          (ps ++ (((s.tableEntries (be ps 0 1)).drop (be ps 2 2)).take (be ps 4 2)).flatten)))) ∧
  (∀ (s : State) (h : Hdr) (ps : List Byte),
     (Takes s 0x0A03 h ps → ps.length = 4 → zeroAt ps 1 3 = true →
       let gen := (imageGeneration s.currentImage + 1) % 2 ^ 32
       let image := settingsImage s.live gen s.bark.lifecycle
       (be ps 0 1 = 0 → s.flash.current = some false →
         Replies (.settingsCommit h ps) 0x0A03 h s
           { accepted s h with flash :=
               { s.flash with slot1 := image, current := some true, heartwoodCopy := image } } (beBytes 4 gen)) ∧
       (be ps 0 1 = 0 → s.flash.current ≠ some false →
         Replies (.settingsCommit h ps) 0x0A03 h s
           { accepted s h with flash :=
               { s.flash with slot0 := image, current := some false, heartwoodCopy := image } } (beBytes 4 gen)) ∧
       (be ps 0 1 = 1 →
         Replies (.settingsInvalidate h ps) 0x0A03 h s
           { accepted s h with flash :=
               { s.flash with slot0 := [], slot1 := [], current := none, heartwoodCopy := [] } } (beBytes 4 0))) ∧
     (Takes s 0x0A04 h ps → ps.length = 8 → be ps 4 4 ≤ 8944 → be ps 0 4 + be ps 4 4 ≤ s.currentImage.length →
       Replies (.settingsRead h ps) 0x0A04 h s (accepted s h)
         (beBytes 4 (imageGeneration s.currentImage) ++ beBytes 4 s.currentImage.length
           ++ [s.flash.source, if s.dirty then 1 else 0] ++ zeros 6 ++ slice s.currentImage (be ps 0 4) (be ps 4 4))))

/-- R308, R320, R402: SYS_ENUMERATE of a system whose walk finds every device, rightly wired and idle, makes this device its
root with the routes of its links; SYS_PHASE_ASSIGN sets and tells the phases of the devices that it names, none of which
holds work. -/
def Obligations.SystemCommandsComplete : Prop :=
  ∀ (s : State) (h : Hdr) (ps : List Byte),
    (Takes s 0x0B01 h ps → ps.length = 4 → h.device = 0 → (shapeOf (be ps 0 1)).isSome = true → zeroAt ps 1 3 = true →
      let n := be ps 0 1
      let found := s.ownLinks ++ if n = 1 then [] else Config.foundLinks s.free
      let ns := walk n (bothWays found) Config.serial
      (∀ d, d < n → ∃ x ∈ ns, x.1 = d) → (∀ l ∈ found, misWired n ns l = false) → s.sched.jobs = [] →
      s.audio.streams = [] → (∀ d, 0 < d → d < n → Config.remoteBusy s.free d = false) →
      ∃ t : State, Replies (.sysEnumerate h ps) 0x0B01 h s t (beBytes 1 n ++ zeros 3) ∧ t.links.device = some 0
        ∧ t.links.devices = n ∧ t.links.isRoot = true) ∧
    (Takes s 0x0B02 h ps → ps.length = 64 → h.device = 0 → s.links.devices ≠ 0 →
      let named := (List.range 64).filter fun d => be ps d 1 != 0xFF
      (∀ d ∈ named, be ps d 1 ≤ 3 ∧ d < s.links.devices) → (0 ∈ named → s.sched.jobs = [] ∧ s.audio.streams = []) →
      (∀ d ∈ named, d ≠ 0 → Config.remoteBusy s.free d = false) →
      Replies (.sysPhaseAssign h ps) 0x0B02 h s
        (named.foldl (fun s d => s.setPhase d (ps.getD d 0)) { accepted s h with free := s.free + 1 }) [])

/-- R312, R320, R403: SYS_ROUTE OP 0 whose ends are free, in allowed phases, linked and with room makes the binding under the
lowest free number, which its reply carries, and tells the other devices; OP 1 of a binding whose jobs are Ready forgets it and
tells them. R303, R404: LINK_STATUS answers the records of the named ports, and, with its flags, those of bound link
streams or of scale registers; after the read FLAGS[3] clears the counters of the named ports, FLAGS[4] the counts of the link
streams read, and without them nothing changes. -/
def Obligations.BindingAndLinkCommandsComplete : Prop :=
  (∀ (s : State) (h : Hdr) (ps : List Byte), Takes s 0x0B03 h ps → 24 ≤ ps.length → ps.length = 24 + 8 * be ps 8 1 →
     h.device = 0 →
     (∀ base n : Nat,
       let kind := be ps 1 1
       let narrowed := kind == 1 || bitOf kind 7
       let send := endAt ps 16
       let recvs := (List.range (be ps 8 1)).map fun i => endAt ps (24 + 8 * i)
       be ps 0 1 = 0 → firstBad (s.bindChecks ps) = none → s.phasesAllow (kind % 128) send.device (recvs.map (·.device)) = true →
       (∀ e ∈ send :: recvs, s.linked send.device e.device = true ∧ s.linked e.device send.device = true) →
       s.windowsFit narrowed (be ps 4 2) (be ps 6 2) recvs = true →
       s.scalePlace send.device send.port (be ps 6 2) = some base → s.freeBinding = some n →
       Replies (.sysRouteBind h ps) 0x0B03 h s
         ((accepted s h).bindNow (bindingOf n (kind % 128) (be ps 4 2) (be ps 6 2) base narrowed send recvs))
         (beBytes 2 n ++ zeros 2)) ∧
     (∀ b : Binding, be ps 0 1 = 1 → zeroAt ps 9 7 = true → (s.liveBindings.find? fun b => b.number == be ps 2 2) = some b →
       (∀ e ∈ b.send :: b.recvs.filter (·.live), s.endNotReady e = false) →
       Replies (.sysRouteUnbind h ps) 0x0B03 h s
         ((State.dropBinding { accepted s h with free := s.free + 1 } (be ps 2 2)).tellAll (.unbind (be ps 2 2))) [])) ∧
  (∀ (s : State) (h : Hdr) (ps : List Byte), Takes s 0x0B04 h ps → ps.length = 8 → be ps 0 1 < 64 → zeroAt ps 3 1 = true →
     let named := (List.range 6).filter (bitOf (be ps 0 1))
     let streams := bitOf (be ps 1 1) 1
     let scales := bitOf (be ps 1 1) 2
     be ps 1 1 < 32 → ¬ (streams = true ∧ scales = true) → (streams = true ∨ scales = true → be ps 2 1 ≤ 5) →
     (streams = true → be ps 4 2 + be ps 6 2 ≤ 256 ∧ 1 ≤ be ps 6 2 ∧ be ps 6 2 ≤ 200) →
     (scales = true → be ps 4 2 + be ps 6 2 ≤ 4096 ∧ 1 ≤ be ps 6 2 ∧ be ps 6 2 ≤ 512) →
     let read := if streams then s.boundStreams (be ps 2 1) (be ps 4 2) (be ps 6 2) else []
     let ports := fun (s : State) =>
       named.foldl (fun s n => s.mapPort n fun p => { p with fecFixed := 0, resends := 0, retrains := 0, e2eFails := 0 }) s
     let counts := fun (s : State) => s.mapPort (be ps 2 1) fun p =>
       { p with streams := p.streams.map fun t =>
           if (read.map (·.lsid)).contains t.lsid then { t with elements := 0, sse := 0, drift := 0 } else t }
     Replies (.linkStatus h ps) 0x0B04 h s
       ((if bitOf (be ps 1 1) 4 then counts else id) ((if bitOf (be ps 1 1) 3 then ports else id) (accepted s h)))
       (named.flatMap s.selvageRecord ++ read.flatMap (fun t => t.record (be ps 2 1))
         ++ if scales then (List.range (be ps 6 2)).flatMap fun i => (s.port (be ps 2 1)).scaleRecord (be ps 4 2 + i) else []))

/-! ### Received packets and the host link -/

/-- R349 to R351, R355, R357, R364, R480: a raw packet with a bad header is dropped and counted; one that fails a later check before
DEVICE ends its assembly and is answered with that check's status, unrecorded, with its own MASTER and MGMT; a good one of a
known opcode goes on to the checks from DEVICE on and the firmware queue, and wakes the part where the power state holds it. -/
def Obligations.MalformedPacketCompletes : Prop :=
  ∀ (s : State) (iface : Iface) (src : Endpoint) (bytes : List Byte),
    s.listens iface = true → (iface = .wakeBus → s.busWakes = false) →
    (iface = .uart → s.uartBusy = false) →
    (rawHeaderOk bytes = false →
      exec (.malformedPacket iface src bytes) s
        = .next (s.mapMaster iface.master fun ms => { ms with badHeader := satAdd ms.badHeader 1 })) ∧
    (rawHeaderOk bytes = true →
      (iface = .hostLink → s.links.device = none ∨ s.links.isRoot = true ∨ rawOpcode bytes = 0x0B01) →
      let h := rawHdr iface src bytes
      let op := rawOpcode bytes
      (∀ (st : Status) (params : List Byte), rawFault iface bytes = some (st, params) →
        exec (.malformedPacket iface src bytes) s
          = .next ((s.endAssembly op h).sendPacket
              { (s.endAssembly op h).replyTo op h st h.context false params with copied := rawCopied iface bytes })) ∧
      (∀ i : Instr, rawFault iface bytes = none → rawInstr iface src bytes = some i →
        (s.gate op h (rawParams bytes) = .run →
          exec (.malformedPacket iface src bytes) s = .next (s.enqueue i op h (rawParams bytes) (rawMore bytes))) ∧
        (s.gate op h (rawParams bytes) = .hold →
          exec (.malformedPacket iface src bytes) s
            = .next ((s.enqueue i op h (rawParams bytes) (rawMore bytes)).wake 0))))

/-- R356, R357: a first fragment opens an assembly; a fragment in step joins its own; each is answered OK without parameters; an
assembly without a fragment for 2,000 ms is discarded and counted. -/
def Obligations.FragmentsComplete : Prop :=
  ∀ (s : State) (op : Half) (h : Hdr) (ps : List Byte),
    (Takes s op.toNat h ps → s.mustWait op.toNat h true = false → ps ≠ [] → (s.master h.iface.master).assemblies.length < 4 →
      Replies (.fragmentReceived op h ps) op.toNat h s
        ((accepted s h).mapMaster h.iface.master fun ms => { ms with assemblies := ms.assemblies ++
          [{ opcode := op, context := h.context, hostTag := h.hostTag, device := h.device, lastSeq := h.seq, frags := 1,
             data := ps, lastMs := s.recorder.windows }] }) []) ∧
    (∀ a : Assembly, Takes (s.endAssembly op.toNat h) op.toNat h ps → s.mustWait op.toNat h true = false →
      (s.master h.iface.master).assembly? op.toNat h = some a → h.seq = a.lastSeq + 1 → ps ≠ [] → a.frags < 256 →
      a.device = h.device →
      Replies (.fragmentReceived op h ps) op.toNat h s
        (((accepted s h).endAssembly op.toNat h).mapMaster h.iface.master fun ms => { ms with assemblies := ms.assemblies ++
          [{ a with lastSeq := h.seq, frags := a.frags + 1, data := a.data ++ ps, lastMs := s.recorder.windows }] }) []) ∧
    (∀ (m : MasterId) (context hostTag : Word),
      let old := fun (a : Assembly) => a.opcode == op && a.context == context && a.hostTag == hostTag
        && decide (a.lastMs + 2000 ≤ s.recorder.windows)
      (∃ a ∈ (s.master m).assemblies, old a = true) →
      exec (.fragmentAssemblyExpiry m op context hostTag) s = .next (s.mapMaster m fun ms =>
        { ms with assemblies := ms.assemblies.filter fun a => !old a, fragExpired := satAdd ms.fragExpired 1 }))

/-- R356, R357: the last fragment of an open assembly, in step, runs its command on the joined parameters, and its one reply is
the command's. -/
def Obligations.LastFragmentRunsJoinedCommand : Prop :=
  ∀ (s : State) (op : Nat) (h : Hdr) (ps : List Byte) (a : Assembly) (i : Instr) (run : List Byte → State → Answer),
    Takes (s.endAssembly op h) op h (a.data ++ ps) → s.gate op h ps = .run →
    (s.master h.iface.master).assembly? op h = some a → h.seq = a.lastSeq + 1 → ps ≠ [] → a.frags < 256 →
    a.device = h.device →
    s.command i op h ps false run
      = State.finish op h (run (a.data ++ ps) ((accepted s h).endAssembly op h))

/-- R335: a fragment that clashes with none joins its datagram, or opens one when fewer than 16 are open; a datagram whose last
fragment arrives leaves the reassembly and its packet is received; a datagram older than 2 s is discarded and its fragments
counted. -/
def Obligations.IpReassemblyCompletes : Prop :=
  ∀ (s : State) (f : IpFrag), s.linkReceives = true → s.hostLinkUp = true →
    (∀ a : IpAssembly, (s.proto.ip.find? fun a => a.has f) = some a → a.clashes f = false → (a.join f).whole = none →
      exec (.ipFragmentReceived f) s = .next
        { s with proto := { s.proto with ip := s.proto.ip.filter (fun b => !b.has f) ++ [a.join f] } }) ∧
    (∀ fresh : IpAssembly,
      fresh = ⟨f.v6, f.src, f.dst, f.ident, s.recorder.windows, f.proto, [], none⟩ →
      (∀ a ∈ s.proto.ip, a.has f = false) → s.proto.ip.length < 16 → fresh.clashes f = false →
      (fresh.join f).whole = none →
      exec (.ipFragmentReceived f) s = .next
        { s with proto := { s.proto with ip := s.proto.ip ++ [fresh.join f] } }) ∧
    (∀ (a : IpAssembly) (d : List Byte) (port : Nat) (payload : List Byte),
      (s.proto.ip.find? fun a => a.has f) = some a → a.clashes f = false → (a.join f).whole = some d →
      s.datagramPacket (a.join f) d = some (port, payload) →
      exec (.ipFragmentReceived f) s = .next
        (State.receiveRaw { s with proto := { s.proto with ip := s.proto.ip.filter fun b => !b.has f } } .hostLink
          ⟨f.src, port⟩ payload)) ∧
    (∀ (v6 : Bool) (src dst : List Byte) (ident : Word),
      let old := fun (a : IpAssembly) => a.v6 == v6 && a.src == src && a.dst == dst && a.ident == ident
        && decide (a.startMs + 2000 ≤ s.recorder.windows)
      let gone := ((s.proto.ip.filter old).map fun a => a.pieces.length).foldl (· + ·) 0
      exec (.ipReassemblyExpiry v6 src dst ident) s = .next
        { s with
          proto := { s.proto with ip := s.proto.ip.filter fun a => !old a },
          net := { s.net with rxDiscard := satAdd s.net.rxDiscard gone } })

/-- R331, R333, R334: ARP, neighbour solicitation and echo requests for an own address are answered; other frames, and with MACSEC
2 the content of frames while no association is live, are discarded and counted; a DHCP lease, its loss and a router
advertisement configure the link where NET_CONFIG lets them; an EAPOL frame reaches MKA, whose associations the model leaves
free (log 124). R327, R330, R332, R333: of the head of a frame, a full receive crossing, a length over MTU + 22 or another tag
discards and counts it, and MACsec discards, counts or validates it. -/
def Obligations.HostFramesComplete : Prop :=
  ∀ (s : State), s.linkReceives = true →
    (s.hostLinkUp = true → s.asleep = false →
      (∀ target ip mac : List Byte, s.ownAddr false target = true →
        exec (.networkControlFrame (.arp target ip mac)) s
          = .next { s with out := s.out ++ [.netAnswer 0 mac (beBytes 6 Config.mac.toNat ++ target ++ ip)] }) ∧
      (∀ target ip mac : List Byte, s.ownAddr true target = true →
        exec (.networkControlFrame (.ndp target ip mac)) s
          = .next { s with out := s.out ++ [.netAnswer 1 mac (beBytes 6 Config.mac.toNat ++ target ++ ip)] }) ∧
      (∀ (v6 : Bool) (dst src payload : List Byte), s.ownAddr v6 dst = true →
        exec (.networkControlFrame (.echo v6 dst src payload)) s
          = .next { s with out := s.out ++ [.netAnswer 2 src payload] }) ∧
      exec (.networkControlFrame .other) s
        = .next { s with net := { s.net with rxDiscard := satAdd s.net.rxDiscard 1 } } ∧
      (∀ (addr gw : List Byte) (pfx : Nat), s.net.config.getLsbD 9 = true → s.net.addr.getD 4 0 = 0 →
        exec (.dhcpReply (.lease addr gw pfx)) s = .next { s with net := { s.net with lease := some (addr, gw, pfx) } }) ∧
      (s.net.config.getLsbD 9 = true →
        exec (.dhcpReply .leaseLost) s = .next { s with net := { s.net with lease := none } }) ∧
      (∀ prefix64 router : List Byte, s.net.config.getLsbD 8 = true → s.net.addr.getD 32 0 = 0 →
        exec (.dhcpReply (.routerAdv prefix64 router)) s
          = .next (State.tryV6 { s with net := { s.net with router := some router } } (padTo 8 prefix64 ++ interfaceId)))) ∧
    (s.hostLinkUp = false → ∀ f : NetFrame, (∀ x, f ≠ .head x) →
      exec (.networkControlFrame f) s = .next { s with net := { s.net with rxDiscard := satAdd s.net.rxDiscard 1 } }) ∧
    (∀ (bytes : List Byte) (k : KeySlot), s.asleep = false → fld s.net.config 15 14 ≠ 0 → s.power.boot = .ready →
      let made := Config.mka s.net.eapol bytes
      s.keyStore.cak[made.1]? = some k → k.payload.isEmpty = false →
      let n := s.net.associate made.1 made.2.1 made.2.2
      exec (.eapolFrame bytes) s = .next (State.drainEvents { s with net := { n with eapol := s.net.eapol + 1 } })) ∧
    ∀ f : FrameHead,
      let macsec := fld s.net.config 15 14
      let vlan := fld s.net.config 33 22
      let foreign := vlan ≠ 0 ∧ ∃ v, f.vlan = some v ∧ v ≠ vlan
      let counted := exec (.networkControlFrame (.head f)) s
        = .next { s with net := { s.net with rxDiscard := satAdd s.net.rxDiscard 1 } }
      let failed := exec (.networkControlFrame (.head f)) s
        = .next { s with net := { s.net with macsecFail := satAdd s.net.macsecFail 1 } }
      (f.full = true →
        exec (.networkControlFrame (.head f)) s = .next { s with net := { s.net with rxFull := satAdd s.net.rxFull 1 } }) ∧
      (f.full = false → f.pause = true → exec (.networkControlFrame (.head f)) s = .next s) ∧
      (f.full = false → f.pause = false →
        (fld s.net.config 47 34 + 22 < f.bytes ∨ foreign → counted) ∧
        (f.bytes ≤ fld s.net.config 47 34 + 22 → ¬ foreign →
          (f.sec = none → macsec = 2 → f.eapol = false → counted) ∧
          (f.sec = none → macsec = 1 → exec (.networkControlFrame (.head f)) s
            = .next { s with net := { s.net with unsecured := s.net.unsecured + 1 } }) ∧
          (∀ t : SecTag, f.sec = some t → macsec ≠ 0 →
            (∀ a, (s.net.rxSas.find? fun a => a.sci == t.sci && a.an == t.an) = some a →
              (t.valid = true → a.lowest.toNat ≤ t.pn.toNat →
                exec (.networkControlFrame (.head f)) s = .next { s with net := { s.net with
                  rxSas := s.net.rxSas.map fun b => if b.sci == t.sci && b.an == t.an then { b with lowest := t.pn + 1 } else b } }) ∧
              (t.valid = false ∨ t.pn.toNat < a.lowest.toNat → failed)) ∧
            ((s.net.rxSas.find? fun a => a.sci == t.sci && a.an == t.an) = none → failed))))

/-- R327 to R330, R332, R559: the link comes up at an advertised rate, or in forced mode at the highest rate enabled in the role
that ROLE names, with a service record and EVENT_FAULT OK that names the egress packets dropped meanwhile; a change of the rate
is counted and recorded; the link goes down, unsecured and counted; a third failed training in a row gives up the highest rate;
and after 10 s down all of RATES is advertised again. -/
def Obligations.HostLinkEventsComplete : Prop :=
  ∀ (s : State), s.linkAllowed = true →
    (∀ (asked rate : BitVec 2) (offered leader lpi : Bool), asked ≠ 0 →
      (fld s.net.config 11 10 = 0 → rate = asked ∧ leader = offered ∧ s.net.advertised.getLsbD (rate.toNat - 1) = true) →
      (fld s.net.config 11 10 ≠ 0 → leader = decide (fld s.net.config 11 10 = 1) ∧
        (rate = 3 ∧ s.net.config.getLsbD 2 = true ∨
          rate = 2 ∧ s.net.config.getLsbD 2 = false ∧ s.net.config.getLsbD 1 = true ∨
          rate = 1 ∧ s.net.config.getLsbD 2 = false ∧ s.net.config.getLsbD 1 = false)) →
      let up : Net := { s.net.unsecure with
        rate := rate, leader := leader, lpi := lpi && s.net.config.getLsbD 12, trainFails := 0 }
      (s.net.rate = 0 →
        exec (.hostLinkUp asked offered lpi) s = .next
          ((((({ s with net := { up with droppedDown := 0 } }).recordLink 0 rate).formV6).faultEvent .ok .hostLink 0
              s.net.droppedDown [] []).drainEvents)) ∧
      (s.net.rate ≠ 0 → s.net.rate ≠ rate →
        exec (.hostLinkUp asked offered lpi) s
          = .next ({ s with net := { up with linkDowns := satAdd s.net.linkDowns 1 } }.recordLink s.net.rate rate))) ∧
    (s.net.rate ≠ 0 → s.domainOn 106 = true →
      exec .hostLinkDown s = .next
        ({ s with net := { s.net with
          rate := 0, leader := false, lpi := false, secured := false, rxSas := [], txSa := none, mkaSlot := none, ipv6 := [],
          linkDowns := satAdd s.net.linkDowns 1, trainFails := 0 } }.recordLink s.net.rate 0)) ∧
    (s.net.rate = 0 →
      (s.net.trainFails < 2 →
        exec .trainingFailed s = .next { s with net := { s.net with trainFails := s.net.trainFails + 1 } }) ∧
      (s.net.trainFails = 2 → fld s.net.config 11 10 = 0 →
        ∃ a : BitVec 3, exec .trainingFailed s = .next { s with net := { s.net with trainFails := 0, advertised := a } } ∧
          (s.net.advertised = 0b111#3 → a = 0b011#3) ∧ (s.net.advertised = 0b011#3 → a = 0b001#3) ∧
          (s.net.advertised = 0b001#3 → a = 0b001#3)) ∧
      exec .readvertiseTimer s = .next
        { s with net := { s.net with advertised := BitVec.ofNat 3 (fld s.net.config 2 0), trainFails := 0 } })

/-! ### Cards -/

/-- R93, R143 to R146, R234: VOP, CURVE, REDUCE, NORM and a GRAIN fill whose extents are legal write, for each row, the named
function of its elements, narrowed under the card's ROUND and SAT, and change nothing else of the context's results. -/
def Obligations.WeftCardsComplete : Prop :=
  ∀ (s : State) (loom slot : Nat) (c : Ctx) (card : Card), Chooses s loom slot .execute c card →
    let s1 := issued s loom slot .execute c card
    let i := s1.cardIn c
    let n := s1.wavesOf c .execute card
    let at_ := fun (hi lo : Nat) => lineOf i.ix (fld card hi lo)
    let el := fun (line f len r j : Nat) => elemAt i.t1 c.scratch line f len r j
    let row := fun (line f len r : Nat) => (List.range len).map (el line f len r)
    let grid := fun (rows len : Nat) (f : Nat → Nat → FR) => (List.range rows).map fun r => (List.range len).map (f r)
    s1.extentsOk c .execute card = true →
    (opOf card = 0x18 →
      let rows := fld card 51 40 + 1
      let len := fld card 39 26 + 1
      let b := fun (r j : Nat) =>
        if 6 ≤ fld card 25 20 ∧ fld card 25 20 ≤ 9 then 0
        else if fld card 5 4 = 0 then el (at_ 91 72) (fld card 15 12) len r j
        else if fld card 5 4 = 1 then el (at_ 91 72) (fld card 15 12) 1 0 0
        else if fld card 5 4 = 2 then el (at_ 91 72) (fld card 15 12) rows 0 r
        else el (at_ 91 72) (fld card 15 12) len 0 j
      Leaves (.vop loom slot) s c fun _ c' => ExecuteDone c c' card (i.writeRows (at_ 71 52) (fld card 11 8) (fld card 7 6)
        (satOf card) (grid rows len fun r j => vop (fld card 25 20) (el (at_ 111 92) (fld card 19 16) len r j) (b r j))) n) ∧
    (opOf card = 0x19 →
      let rows := fld card 71 60 + 1
      let len := fld card 59 46 + 1
      let curve := curveOf (nth i.t2 (fld card 45 40) [])
      Leaves (.curve loom slot) s c fun _ c' => ExecuteDone c c' card (i.writeRows (at_ 91 72) (fld card 35 32)
        (fld card 31 30) (satOf card)
        (grid rows len fun r j => curveEval curve (el (at_ 111 92) (fld card 39 36) len r j))) n) ∧
    (opOf card = 0x1A →
      let rows := fld card 71 60 + 1
      let len := fld card 59 46 + 1
      Leaves (.reduce loom slot) s c fun _ c' => ExecuteDone c c' card (i.writeRows (at_ 91 72) (fld card 38 35)
        (fld card 34 33) (satOf card)
        [(List.range rows).map fun r => reduceRow (fld card 45 43) (row (at_ 111 92) (fld card 42 39) len r)]) n) ∧
    (opOf card = 0x1B →
      let rows := fld card 51 40 + 1
      let len := fld card 39 26 + 1
      let param := fun (k : Nat) => if k < fld card 24 23 then some (row (at_ 91 72) (fld card 18 15) len k) else none
      let eps : Word := BitVec.ofNat 32 ((123 - fld card 8 4) * 2 ^ 23)
      Leaves (.norm loom slot) s c fun _ c' => ExecuteDone c c' card (i.writeRows (at_ 71 52) (fld card 14 11)
        (fld card 10 9) (satOf card) ((List.range rows).map fun r =>
          normRow (card.getLsbD 25) eps (param 0) (param 1) (row (at_ 111 92) (fld card 22 19) len r))) n) ∧
    (opOf card = 0x38 → fld card 65 63 ≠ 0 →
      let rows := fld card 91 80 + 1
      let len := fld card 79 66 + 1
      let base := lineOf i.ix (fld card 56 53 * 65536)
      Leaves (.grainFill loom slot) s c fun _ c' => ExecuteDone c c' card (i.writeRows (at_ 111 92) (fld card 62 59)
        (fld card 58 57) (satOf card)
        (grid rows len fun r j => grainValue card c.arch.key c.arch.execStep.toNat ((base + r * len + j) % 2 ^ 32))) n)

/-- R135 to R138, R151 to R158, R168, R194, R237 to R239: MMA and MMA_G whose zero points are in range, a SCAN, a CONV and a
WIDEN whose descriptors are legal and a GSAMPLE whose row records are complete with their results. -/
def Obligations.CheckedCardsComplete : Prop :=
  ∀ (s : State) (loom slot : Nat) (c : Ctx) (card : Card), Chooses s loom slot .execute c card →
    let s1 := issued s loom slot .execute c card
    let i := s1.cardIn c
    let n := s1.wavesOf c .execute card
    let at_ := fun (hi lo : Nat) => lineOf i.ix (fld card hi lo)
    let done := fun (k : Instr) (o : CardOut) => Leaves k s c fun _ c' => ExecuteDone c c' card o n
    s1.extentsOk c .execute card = true →
    (opOf card = 0x10 ∨ opOf card = 0x11 →
      let g := if opOf card = 0x11 then 32 * 2 ^ fld card 10 9 else 32
      let rows := mmaM card
      let shape := tileShape (operandClass i.t1 (fld card 26 23) (fld card 22 19))
      let quant := at_ 111 92 + rows * rowLines i.t1 (fld card 26 23) (mmaK card)
      let za := fun (r : Nat) => zeroPoint c.scratch quant (fld card 7 6) (card.getLsbD 5) rows r
      let scales := at_ 91 72 + tilesOf shape (mmaK card) (mmaN card) * tileLines i.t1 shape (fld card 22 19)
      let pair := fun (r col k : Nat) =>
        (actValue (fmtAt i.t1 (fld card 26 23)) (za r)
           (codeAt c.scratch (at_ 111 92 + r * rowLines i.t1 (fld card 26 23) (mmaK card)) (containerOf i.t1 (fld card 26 23)) k),
         value (fmtAt i.t1 (fld card 22 19)) (weightAt i.t1 c.scratch (at_ 91 72) shape (fld card 22 19) (mmaK card) k col))
      let element := fun (r col : Nat) =>
        mmaElement g (card.getLsbD 11) ((List.range (mmaK card)).map (pair r col))
          (fun gi => if opOf card = 0x11 then
            elemAt i.t1 c.scratch scales (if card.getLsbD 8 then 5 else 0xC) (mmaN card) gi col else one32)
          (actScale c.scratch quant (fld card 7 6) r)
          (if card.getLsbD 12 then
            some (elemAt i.t1 c.scratch (lineOf i.ix (fld card 4 1 * 65536)) (fld card 18 15) (mmaN card) r col) else none)
      (∀ r < rows, zeroPointOk (fld card 26 23) (za r) = true) →
      done (if opOf card = 0x11 then .mmaG loom slot else .mma loom slot)
        (i.writeRows (at_ 71 52) (fld card 18 15) (fld card 14 13) (satOf card)
          ((List.range rows).map fun r => (List.range (mmaN card)).map (element r)))) ∧
    (opOf card = 0x20 → scanDescOk (c.scratch.read (64 * at_ 51 32) 64) = true →
      (∀ e ∈ scanExtents i.t1 i.ix card (c.scratch.read (64 * at_ 51 32) 64), e.inside i.ways i.units = true) →
      noOverlap (scanExtents i.t1 i.ix card (c.scratch.read (64 * at_ 51 32) 64)) = true →
      ∃ o, runScan card i = .ok o ∧ done (.scan loom slot) o) ∧
    (opOf card = 0x28 →
      convOk i.t1 i.ways i.units i.ix card (convDesc (c.scratch.read (64 * at_ 51 32) 64)) = true →
      ∃ o, runConv card i = .ok o ∧ done (.conv loom slot) o) ∧
    (opOf card = 0x32 →
      let ch := fld card 39 28 + 1
      let rec_ := c.scratch.read (64 * at_ 91 72) (16 + 8 * ch + ceilDiv ch 8)
      le rec_ 4 2 = ch → le rec_ 6 2 = fld card 51 40 + 1 → le rec_ 1 1 = fld card 27 24 → le rec_ 2 1 < 2 →
      (le rec_ 2 1 = 1 → fld card 27 24 < 3) →
      let q := fun (t k : Nat) =>
        codeAt c.scratch (at_ 111 92 + t * rowLines i.t1 (fld card 27 24) ch) (containerOf i.t1 (fld card 27 24)) k
      done (.widen loom slot) (i.writeRows (at_ 71 52) (fld card 23 20) (fld card 19 18) (satOf card)
        ((List.range (fld card 51 40 + 1)).map fun t => (List.range ch).map fun k =>
          widenValue (fld card 27 24) (q t k) (recordConst rec_ ch k) (le32 rec_ (16 + 8 * k)) (le32 rec_ (20 + 8 * k))
            (le rec_ 2 1 == 1)))) ∧
    (opOf card = 0x39 →
      let rec_ := fun (r : Nat) => c.scratch.read (64 * at_ 91 72 + 32 * r) 32
      (∀ r < fld card 51 44 + 1, rowRecordOk (rec_ r) = true) →
      let out := (List.range (fld card 51 44 + 1)).map fun r =>
        gsampleRow ((List.range (fld card 43 26 + 1)).map (elemAt i.t1 c.scratch (at_ 111 92) (fld card 25 22)
          (fld card 43 26 + 1) r)) (rowRecord (rec_ r)) c.arch.key 2
      done (.gsample loom slot)
        { i.out with
          scratch := c.scratch.write (64 * at_ 71 52) (packRow 32 (out.map (·.1))),
          flags := raiseAll c.arch.arithFlags (out.map (·.2)) })

/-- R98, R103, R130, R175, R178, R233: a transfer card whose extents and rows are in reach becomes an outstanding transfer, with
the pieces of its rows, and the fetch engine goes on; a STORE_C encodes its rows as it issues, and carries their flags until it
completes; a draw counts a step. -/
def Obligations.TransferCardsComplete : Prop :=
  ∀ (s : State) (loom slot : Nat) (c : Ctx) (card : Card) (j : Job) (a : Alternative), Chooses s loom slot .fetch c card →
    let s1 := issued s loom slot .fetch c card
    let aix := lineOf c.arch.fetch.ix (fld card 90 87 * 65536)
    let rows := fld card 50 39 + 1
    s1.job? c.job = some j → j.alt = some a → s1.extentsOk c .fetch card = true →
    let base : XferKind → List Byte → Word → Transfer := fun kind data flags =>
      ⟨c.loomNo, c.job, c.position, c.arch.fetch.card, card, kind, lineOf c.arch.fetch.ix (fld card 111 92), card.getLsbD 91,
       rowAddr card aix 0, memRowBytes card, rows, fld card 26 7, cardPieces card aix, Mem.write [] 0 data, c.arch.fetchStep,
       s1.wavesOf c .fetch card, flags⟩
    let goes := fun (k : Instr) (t0 : Transfer) =>
      Leaves k s c fun t c' => t.sched.transfers = s1.sched.transfers ++ [t0]
        ∧ c'.arch = { c.arch with
            fetch := { c.arch.fetch with card := c.arch.fetch.card + 1 }
            fetchStep := c.arch.fetchStep + (if drawsFetch card then 1 else 0) }
        ∧ c'.scratch = c.scratch ∧ c'.stripe = c.stripe ∧ t.memory = s1.memory
    let reach := fun (write : Bool) =>
      ∀ r < rows, s1.rowOk j a (opOf card) write (rowAddr card aix r) (memRowBytes card) = true
    (opOf card = 0x01 → reach false → goes (.load loom slot) (base .load [] 0)) ∧
    (opOf card = 0x02 → reach true → goes (.store loom slot) (base .store [] 0)) ∧
    (opOf card = 0x03 → reach false → goes (.loadC loom slot) (base .loadC [] 0)) ∧
    (opOf card = 0x04 → reach true →
      let enc := encodeRows c card (c.lines (card.getLsbD 91)) (lineOf c.arch.fetch.ix (fld card 111 92))
      goes (.storeC loom slot) (base .storeC enc.1 (raiseAll 0 enc.2)))

/-- R100 to R105, R112: WAIT takes the oldest token of its bobbin into its index register; SIGNAL adds its token; LOOP and END
count their iterations and step the loop's index register; HALT halts its engine, and the second HALT of a position frees its
context. -/
def Obligations.ControlCardsComplete : Prop :=
  ∀ (s : State) (loom slot : Nat) (e : Engine) (c : Ctx) (card : Card), Chooses s loom slot e c card →
    let g := c.arch.eng e
    let b := bobbinOf card
    let setIx := fun (n : Nat) (v : DWord) => if n = 0 then g.ix else g.ix.set n v
    let goes := fun (k : Instr) (n : Nat) (g' : EngineState) (bobbins : List (List Half)) =>
      Leaves k s c fun t c' => c'.arch.eng e = g' ∧ c'.arch.eng (otherEngine e) = c.arch.eng (otherEngine e)
        ∧ c'.arch.bobbins = bobbins ∧ c'.arch.waves = c.arch.waves + BitVec.ofNat 64 n ∧ c'.arch.arithFlags = c.arch.arithFlags
        ∧ c'.arch.key = c.arch.key ∧ c'.arch.execStep = c.arch.execStep ∧ c'.arch.fetchStep = c.arch.fetchStep
        ∧ c'.arch.knotCount = c.arch.knotCount ∧ c'.scratch = c.scratch ∧ c'.stripe = c.stripe
        ∧ t.memory = (issued s loom slot e c card).memory
    (∀ (t0 : Half) (ts : List Half), opOf card = 0x08 → c.arch.bobbins[b]? = some (t0 :: ts) →
      goes (.wait loom slot e) 2 { g with card := g.card + 1, ix := setIx (fld card 111 108) (t0.setWidth 64) }
        (c.arch.bobbins.set b ts)) ∧
    (opOf card = 0x09 →
      let v := (lineOf g.ix (fld card 111 108 * 65536) + fld card 107 92) % 65536
      goes (.signal loom slot e) 2 { g with card := g.card + 1 } (c.arch.bobbins.modify b (· ++ [BitVec.ofNat 16 v]))) ∧
    (opOf card = 0x0B →
      (fld card 111 96 = 0 → goes (.loop loom slot e) 1 { g with card := g.card + fld card 95 72 + 1 } c.arch.bobbins) ∧
      (fld card 111 96 ≠ 0 →
        let start : DWord := (BitVec.ofNat 32 (fld card 67 36)).signExtend 64
        goes (.loop loom slot e) 1 { g with
          card := g.card + 1, ix := setIx (fld card 71 68) start, loops := (fld card 111 96, g.card) :: g.loops }
          c.arch.bobbins)) ∧
    (∀ (opener : Card) (p : Position) (left at_ : Nat) (outer : List (Nat × Nat)), opOf card = 0x0C →
      (s.refresh loom).positionOf c = some p → (p.stream e)[g.card - fld card 95 72]? = some opener →
      g.loops = (left, at_) :: outer →
      (1 < left →
        let n := fld opener 71 68
        let stride : DWord := (BitVec.ofNat 16 (fld opener 35 20)).signExtend 64
        goes (.endLoop loom slot e) 1 { g with
          card := g.card - fld card 95 72 + 1, ix := setIx n (nth g.ix n 0 + stride), loops := (left - 1, at_) :: outer }
          c.arch.bobbins) ∧
      (left ≤ 1 → goes (.endLoop loom slot e) 1 { g with card := g.card + 1, loops := outer } c.arch.bobbins)) ∧
    (opOf card = 0x3F → (c.arch.eng (otherEngine e)).halted = false →
      goes (.halt loom slot e) 1 { g with halted := true } c.arch.bobbins) ∧
    (opOf card = 0x3F → (c.arch.eng (otherEngine e)).halted = true →
      ∃ t, exec (.halt loom slot e) s = .next t ∧ t.ctx? c.job c.position = none)

/-- R107 to R110, R233, R235, R536, R537: a KNOT passes both engines, counts, keeps the context's state, live lines and fetch
key in its slot, and clears its logs; a GRAIN key load sets the key and the step counter. -/
def Obligations.KnotAndKeyLoadComplete : Prop :=
  ∀ (s : State) (loom slot : Nat) (c : Ctx) (card : Card),
    (∀ k : KnotEntry, Chooses s loom slot .fetch c card → opOf card = 0x0A → (s.refresh loom).knotEntry? c card = some k →
      Leaves (.knot loom slot) s c fun _ c' =>
        c'.arch.fetch = { c.arch.fetch with card := c.arch.fetch.card + 1 }
        ∧ c'.arch.execute = { c.arch.execute with card := c.arch.execute.card + 1 }
        ∧ c'.arch.knotCount = c.arch.knotCount + 1 ∧ c'.arch.sinceKnot = 0 ∧ c'.arch.fetchKey = c.arch.key
        ∧ c'.arch.key = c.arch.key ∧ c'.arch.bobbins = c.arch.bobbins ∧ c'.arch.arithFlags = c.arch.arithFlags
        ∧ c'.scratch = c.scratch ∧ c'.stripe = c.stripe
        ∧ c'.knot = some ⟨fld card 111 96, c'.arch, liveLines c.scratch false k, liveLines c.stripe true k⟩
        ∧ (∀ l ∈ c'.sends ++ c'.recvs, l.since = 0 ∧ l.entered = 0 ∧ l.log = [])
        ∧ c'.arch.waves = c.arch.waves + BitVec.ofNat 64 (256 + (k.liveBytes + 415) / 416 + 4)) ∧
    (∀ (key : List Byte) (step : DWord), Chooses s loom slot .execute c card → opOf card = 0x38 → fld card 65 63 = 0 →
      (issued s loom slot .execute c card).extentsOk c .execute card = true →
      let rec_ := c.scratch.read (64 * lineOf c.arch.execute.ix (fld card 111 92)) 64
      zeroAt rec_ 40 24 = true → key = slice rec_ 0 32 → step = BitVec.ofNat 64 (le rec_ 32 8) →
      Leaves (.grainKeyLoad loom slot) s c fun t c' =>
        c'.arch.key = key ∧ c'.arch.execStep = step ∧ c'.arch.fetchKey = c.arch.fetchKey
        ∧ c'.arch.execute = { c.arch.execute with card := c.arch.execute.card + 1 } ∧ c'.arch.fetch = c.arch.fetch
        ∧ c'.arch.arithFlags = c.arch.arithFlags ∧ c'.arch.waves = c.arch.waves + 40
        ∧ c'.scratch = c.scratch ∧ c'.stripe = c.stripe ∧ t.memory = (issued s loom slot .execute c card).memory)

/-- R182 to R189, R315 to R318, R536, R537: a PEER send enters its block in its binding's store, unless a replay finds it entered;
a PEER receive takes the oldest block and writes its rows; a QSTAT loads its window; a NARROW writes its narrowed block and
scale record into the store, unless a replay finds them entered; while their Scale unit runs an earlier card they wait there
(R179). -/
def Obligations.LinkCardsComplete : Prop :=
  ∀ (s : State) (loom slot : Nat) (c : Ctx) (card : Card),
    (Chooses s loom slot .fetch c card → opOf card = 0x05 →
      let s1 := issued s loom slot .fetch c card
      let bytes := peerBytes card
      let past : Ctx → Prop := fun c' => c'.arch.fetch = { c.arch.fetch with card := c.arch.fetch.card + 1 }
        ∧ c'.arch.execute = c.arch.execute
        ∧ c'.arch.bobbins = (if sigOf card then c.arch.bobbins.modify (bobbinOf card) (· ++ [0]) else c.arch.bobbins)
        ∧ c'.arch.waves = c.arch.waves + BitVec.ofNat 64 (16 + (max bytes 4096 + 415) / 416)
      s1.peerReach c card = true →
      (∀ b : Binding, card.getLsbD 89 = false →
        s1.sendBinding c.job c.position (fld card 87 85) (peerLsid card) = some b →
        b.narrowed = false → bytes ≤ b.maxBlock * 64 →
        let log := c.sendLog b.number
        (log.since < log.entered →
          Leaves (.peerSend loom slot) s c fun t c' => past c' ∧ t.links = s1.links ∧ t.memory = s1.memory
            ∧ (c'.sendLog b.number).since = log.since + 1 ∧ (c'.sendLog b.number).entered = log.entered) ∧
        (∀ (s2 : State) (b' : Binding), log.entered ≤ log.since → b.ended = false →
          s1.enterPlan b (4 + bytes) = some (s2, b', []) →
          Leaves (.peerSend loom slot) s c fun t c' => past c' ∧ t.memory = s1.memory
            ∧ t.links = (s2.enterBlock b' (rawBody (fld card 36 25 + 1) (fld card 24 13 + 1) (s1.peerRead c card)) []).links)) ∧
      (∀ (b : Binding) (k : Nat) (t0 : LinkStream) (seq : Word) (data : List Byte) (record : List Byte) (bs : List Byte),
        card.getLsbD 89 = true → s1.recvBinding c.job c.position (fld card 87 85) (peerLsid card) = some (b, k) →
        b.narrowed = card.getLsbD 88 → (c.recvLog b.number k).entered ≤ (c.recvLog b.number k).since →
        s1.linkStream? (fld card 87 85) (peerLsid card) = some t0 → t0.ready.head? = some (seq, data, record) →
        receiveBytes card b.narrowed (data, record) = some bs →
        Leaves (.peerReceive loom slot) s c fun t c' => past c'
          ∧ t.memory.vault = (s1.peerWrite c card bs).memory.vault ∧ t.memory.ext = (s1.peerWrite c card bs).memory.ext
          ∧ s1.memory.blocks <+: t.memory.blocks
          ∧ (∀ x, (s1.peerWrite c card bs).ctx? c.job c.position = some x → c'.scratch = x.scratch ∧ c'.stripe = x.stripe)
          ∧ (t.linkStream? (fld card 87 85) (peerLsid card)).map (·.ready) = some (t0.ready.drop 1)
          ∧ (c'.recvLog b.number k).since = (c.recvLog b.number k).since + 1
          ∧ (c'.recvLog b.number k).entered = (c.recvLog b.number k).entered + 1)) ∧
    (Chooses s loom slot .execute c card → (opOf card = 0x30 ∨ opOf card = 0x31) →
      let s1 := issued s loom slot .execute c card
      let port := fld card 50 48
      let lsid : Byte := BitVec.ofNat 8 (fld card 58 51)
      let ch := fld card 79 68 + 1
      let fn := fld card 63 60
      let zpm := card.getLsbD 59
      let x := s1.scaleRows c card
      let cols := (List.range ch).map fun k => x.map fun row => nth row k 0
      let n := s1.wavesOf c .execute card
      ∀ (b : Binding) (t0 : LinkStream), s1.sendBinding c.job c.position port lsid = some b → b.narrowed = true →
        s1.linkStream? port lsid = some t0 → ch ≤ t0.size → s1.extentsOk c .execute card = true →
        (s1.unitTakes port c = false →
          (opOf card = 0x31 → card.getLsbD 45 = false →
            t0.lost = false ∧ t0.valid = true ∧ t0.channels = ch ∧ t0.fn.toNat = fn ∧ t0.zpm = zpm) →
          Leaves (if opOf card = 0x30 then .qstat loom slot else .narrow loom slot) s c fun t c' =>
            c'.arch = c.arch ∧ c'.scratch = c.scratch ∧ t.links = s1.links ∧ t.memory = s1.memory
            ∧ ∃ q ∈ t.sched.scale, q.2 = (c.job, c.position)) ∧
        (opOf card = 0x30 → s1.unitTakes port c = true →
          let out := if card.getLsbD 27 then
            c.scratch.write (64 * lineOf c.arch.execute.ix (fld card 47 28)) (statsRecord cols) else c.scratch
          Leaves (.qstat loom slot) s c fun t c' =>
            ExecuteDone c c' card ⟨out, c.stripe, c.arch.arithFlags⟩ n
            ∧ t.links = (s1.loadWindow card (cols.map (channelScales fn zpm))).links ∧ t.memory = s1.memory) ∧
        (opOf card = 0x31 → s1.unitTakes port c = true →
          (card.getLsbD 45 = false → t0.lost = false ∧ t0.valid = true ∧ t0.channels = ch ∧ t0.fn.toNat = fn ∧ t0.zpm = zpm) →
          let regs := if card.getLsbD 45 then cols.map (channelScales fn zpm) else s1.windowRegs port t0
          let loaded := fun (u : State) => if card.getLsbD 45 then u.loadWindow card regs else u
          let w := narrowBlock fn zpm regs (roundOf card) (satOf card)
            (fun i => srDraw (roundOf card) c.arch.key 0 c.arch.execStep.toNat 0 i) x
          let out := if card.getLsbD 24 then
            c.scratch.write (64 * lineOf c.arch.execute.ix (fld card 44 25)) w.errorRecord else c.scratch
          let leaves := fun (links : Links) => Leaves (.narrow loom slot) s c fun t c' =>
            ExecuteDone c c' card ⟨out, c.stripe, raiseAll c.arch.arithFlags w.flags⟩ n ∧ t.memory = s1.memory ∧ t.links = links
          ((c.sendLog b.number).since < (c.sendLog b.number).entered → leaves (loaded s1).links) ∧
          (∀ (s2 : State) (b' : Binding), (c.sendLog b.number).entered ≤ (c.sendLog b.number).since → b.ended = false →
            s1.enterPlan b (narrowBytes s1.live.table1 card) = some (s2, b', []) →
            leaves (((loaded s2).enterBlock b' (w.codes.flatMap fun row => packRow (containerOf s1.live.table1 fn) row)
                (scaleRecord b'.tag lsid fn zpm x.length w.mse regs)).mapLinkStream port lsid fun u =>
                  { u with elements := u.elements + BitVec.ofNat 64 w.n, sse := addBinary64 u.sse w.sse }).links)))

/-! ### Transfers, residence, jobs and batches -/

/-- R24, R130, R176, R213, R244, R257, R263, R265: the oldest waiting piece takes a free tag; a piece that no earlier one to the same
target precedes completes: of a LOAD its bytes go to their place in the lines, of a LOAD_C into the transfer, of a store into
memory, and it frees its tag; with its last piece a transfer completes; a record waits at its frame or token port. The words
corrected on a read are counted. -/
def Obligations.PiecesComplete : Prop :=
  ∀ (s : State) (loom tag : Nat), s.computing = true →
    ((s.loom loom).failed = false → s.freeTag loom = some tag →
      let waits := fun (t : Transfer) => t.loom == loom && t.pieces.any fun p => p.tag.isNone
      ∀ (before after : List Transfer) (t : Transfer) (p0 p1 : List Piece) (p : Piece),
        s.sched.transfers = before ++ t :: after → (∀ u ∈ before, waits u = false) → t.loom = loom →
        t.pieces = p0 ++ p :: p1 → (∀ q ∈ p0, q.tag ≠ none) → p.tag = none →
        exec (.pieceIssue loom) s = .next { s with sched := { s.sched with
          transfers := before ++ { t with pieces := p0 ++ { p with tag := some tag } :: p1 } :: after } }) ∧
    (∀ (t : Transfer) (p : Piece) (a : Alternative) (c : Ctx) (l : Loc) (corrected : Nat), s.tagged loom tag = some (t, p) →
      s.inOrder loom tag t p = true → (s.job? t.job).bind Job.alt = some a → s.ctx? t.job t.position = some c →
      s.locate a (some c.dent) (t.addr + 64 * t.stride * p.row + p.off) = some l →
      let counted := match l with
        | .vault k => s.countCorrected true (k / 2 ^ 30) corrected
        | .chan k => s.countCorrected false (k / 2 ^ 35) corrected
        | _ => s
      let source := if t.kind = .storeC then t.data.read (t.rowBytes * p.row + p.off) p.len
        else (c.lines t.isStripe).read (64 * (t.line + p.row * (fld t.card 38 27 + 1)) + p.off) p.len
      let record : PortRecord := ⟨loom, tag, source⟩
      (t.kind = .load →
        exec (.pieceComplete loom ⟨tag, corrected⟩) s = .next ((counted.mapCtx t.job t.position fun c =>
          c.mapLines t.isStripe fun m =>
            m.write (64 * (t.line + p.row * (fld t.card 38 27 + 1)) + p.off) (s.readLoc l p.len)).donePiece loom tag)) ∧
      (t.kind = .loadC →
        let gather := fun (u : Transfer) => { u with data := u.data.write (t.rowBytes * p.row + p.off) (s.readLoc l p.len) }
        exec (.pieceComplete loom ⟨tag, corrected⟩) s = .next (State.donePiece { counted with sched := { s.sched with
          transfers := modifyFirst s.sched.transfers (fun u => u == t) gather } } loom tag)) ∧
      (t.kind = .store ∨ t.kind = .storeC →
        ((∀ k o, l ≠ .frame k o ∧ l ≠ .token k o) →
          exec (.pieceComplete loom ⟨tag, corrected⟩) s = .next ((s.writeLoc l (t.pieceBytes c p)).donePiece loom tag) ∧
          (t.rowBytes ≤ 64 * t.stride ∨ t.rows ≤ 1 → t.pieceBytes c p = source)) ∧
        (∀ (k o : Nat) (st : Stream), l = .frame k o → (s.audio.streams.find? fun st => st.port == k) = some st →
          (∀ q ∈ st.inbox, ¬ (q.loom = loom ∧ q.tag = tag)) →
          exec (.pieceComplete loom ⟨tag, corrected⟩) s
            = .next (s.mapStream st.id fun st => { st with inbox := st.inbox ++ [record] })) ∧
        (∀ (k o : Nat) (j : Job), l = .token k o → s.job? t.job = some j →
          (∀ q ∈ j.tokenInbox, ¬ (q.loom = loom ∧ q.tag = tag)) →
          exec (.pieceComplete loom ⟨tag, corrected⟩) s
            = .next (s.mapJob t.job fun j => { j with tokenInbox := j.tokenInbox ++ [record] }))))

/-- R268, R270, R271, R387: the first job of the start queue that has a free usable alternative starts under the best one: a plain
job places its contexts, in the starting architectural state; the jobs before it are passed. -/
def Obligations.JobStartCompletes : Prop :=
  ∀ (s : State) (j : Job) (i : Nat) (a : Alternative), s.computing = true →
    let s0 := s.reserve
    (∃ before after, s0.startQueue = before ++ j :: after ∧ ∀ k ∈ before, s0.startAlt k = none) →
    s0.startAlt j = some i → j.image.alts[i]? = some a → s0.altReaches j a = true → j.phrase = none →
    s0.job? j.id = some j → (s0.sched.jobs.map (·.id)).Nodup →
    ∃ t j', exec .jobStart s = .next t ∧ t.job? j.id = some j'
      ∧ j'.started = true ∧ j'.alternative = some i ∧ j'.reserved = none ∧ j'.endStatus = j.endStatus
      ∧ t.sched.ctxs = s.sched.ctxs ++ (if j.kind = .plain then
          (List.range j.image.positions.length).map fun p =>
            Ctx.fresh j.id p (a.dents.getD p 0) (Arch.initial (j.tokenPort.elim 0 fun k => tokenAddr k / 64)
              ((s.stream? j.frameSink).elim 0 fun t => frameAddr t.port / 64)) else [])
      ∧ (∀ k ∈ s0.sched.jobs, k.id ≠ j.id → k.kind ≠ .member → k.started = false → k.ready = false → k.order < j.order →
          ∃ k' ∈ t.sched.jobs, k'.id = k.id ∧ k'.passedBy = k.passedBy + 1)
      ∧ t.memory = s.memory ∧ t.audio = s.audio ∧ t.out = s.out

/-- R92, R97, R120, R275 to R279, R284: on a Loom without contexts the first waiting context takes the lowest ways and units and
is resident in slot 0; a step of the save port puts a way or unit in place; a slice that ends with nobody waiting begins anew;
a context released to its knot holds nothing, waits, and is back at its knot slot, whose record passes its CRC. -/
def Obligations.ResidenceCompletes : Prop :=
  ∀ (s : State) (loom slot : Nat) (c : Ctx), s.computing = true → s.ctx? c.job c.position = some c →
    (∀ (p : Position) (rest : List Ctx), s.waitingFor loom = c :: rest → (s.loom loom).failed = false → s.domainOn loom = true →
      (∀ x ∈ s.sched.ctxs, x.onLoom loom = false) → c.ways = [] → c.units = [] → c.knotPlaced = true →
      s.positionOf c = some p → p.ways ≤ 16 → p.units ≤ 16 → (∀ b < 8, s.depthOf c b ≤ 64) →
      Leaves (.contextAdmit loom) s c fun _ c' => c'.place = .resident loom 0 ∧ c'.ways = (List.range p.ways).map some
        ∧ c'.units = (List.range p.units).map some ∧ c'.pendingWays = [] ∧ c'.pendingUnits = [] ∧ c'.sliceWaves = 0
        ∧ c'.residentWaves = 0 ∧ c'.arch.fetch = c.arch.fetch ∧ c'.arch.execute = c.arch.execute
        ∧ c'.scratch = c.scratch ∧ c'.stripe = c.stripe) ∧
    (∀ (v : SaveStep), (s.sched.saves.find? fun w => w.loom == loom) = some v → v.arriving = (c.job, c.position) →
      (∀ w ∈ s.sched.saves.eraseP (fun w => w.loom == loom), w.arriving = v.arriving → w.isUnit = v.isUnit →
        w.logical ≠ v.logical) →
      Leaves (.waySpilled loom) s c fun t c' =>
        t.sched.saves = s.sched.saves.eraseP (fun w => w.loom == loom)
        ∧ c'.pendingWays = (if v.isUnit then c.pendingWays else c.pendingWays.filter (· != v.logical))
        ∧ c'.pendingUnits = (if v.isUnit then c.pendingUnits.filter (· != v.logical) else c.pendingUnits)
        ∧ c'.arch = c.arch ∧ c'.scratch = c.scratch ∧ t.memory = s.memory) ∧
    (s.resident? loom slot = some c → s.sliceOf c ≤ c.sliceWaves → s.waitingFor loom = [] →
      let taken := min c.arch.overrun.toNat (1000 * fld s.live.schedConfig 11 0 - 24000)
      Leaves (.sliceEnd loom slot) s c fun _ c' => c'.sliceWaves = 0 ∧ c'.absorbed = taken ∧ c'.place = c.place
        ∧ c'.arch.overrun = c.arch.overrun - BitVec.ofNat 64 taken ∧ c'.scratch = c.scratch) ∧
    (∀ k0 k : KnotSlot, s.releaseFor loom = some [c] → s.outstandingOf c = [] → c.knot = some k0 →
      s.readKnot c k0 = some k →
      Leaves (.releaseToKnot loom) s c fun t c' => c'.place = .waiting ∧ c'.ways = [] ∧ c'.units = [] ∧ c'.arch = k.arch
        ∧ c'.scratch = k.scratch ∧ c'.stripe = k.stripe
        ∧ (t.job? c.job).map (·.preempts) = (s.job? c.job).map fun j => satAdd j.preempts 1)

/-- R257, R293 to R297, R369, R397: a result whose hold time has passed, and that no accepted fetch waits for, is Gone; a token record in order feeds its job's sink; a
closed phrase becomes a phrase job of its stream's deck; a batch step writes its step table and starts every position; its end
gives each member its token. -/
def Obligations.JobProgressCompletes : Prop :=
  ∀ (s : State) (id : Word) (j : Job), s.job? id = some j →
    (j.ready = true → j.holdMs < s.recorder.windows - j.readyMs → (∀ i ∈ s.proto.fwQueue, fetchFor id i = none) →
      ∃ t, exec (.resultExpiry id) s = .next t ∧ t.job? id = none ∧ t.memory = s.memory ∧ t.out = s.out
        ∧ ∀ k ∈ s.sched.jobs, k.id ≠ id → k ∈ t.sched.jobs) ∧
    (∀ r : PortRecord, s.computing = true → j.tokenInbox.find? j.tokenReady = some r → tokenRecordOk r.bytes = true →
      le32 r.bytes 0 = j.tokenNext → j.tokenHeld = [] →
      let s1 := s.mapJob id fun k => { k with tokenInbox := k.tokenInbox.erase r, tokenNext := k.tokenNext + 1 }
      exec (.tokenRecord id) s = .next ((s1.feedSink j (recordTokens r.bytes)).donePiece r.loom r.tag)) ∧
    (∀ (t0 : Stream) (p : Phrase) (rest : List Phrase) (d : Deck), s.starting = true → s.stream? t0.id = some t0 →
      t0.phrases = p :: rest → t0.runningPhrase = none → s.deck? t0.deck = some d → s.jobLimit t0.client = false →
      s.substitute t0.id d = none →
      ∃ t k t1, exec (.phraseJobStart t0.id) s = .next t ∧ t.sched.jobs = s.sched.jobs ++ [k] ∧ k.id = s.freshJob
        ∧ k.kind = .plain ∧ k.client = t0.client ∧ k.share = t0.share ∧ k.frameSink = t0.id ∧ k.phrase = some p
        ∧ k.image = d.image ∧ k.started = false ∧ t.stream? t0.id = some t1
        ∧ t1 = { t0 with phrases := rest, runningPhrase := some k.id } ∧ t.memory = s.memory) ∧
    (∀ (a : Alternative) (key : Nat), s.computing = true → j.kind = .batch → j.started = true → j.stepRuns = false →
      j.stopping = false → s.stepRows id ≠ [] → j.alt = some a →
      let table := stepTable j.stepNo (s.stepRows id)
      s.stepTableAt j table.length = some key →
      ∃ t j', exec (.batchStepStart id) s = .next t ∧ t.memory.vault = s.memory.vault.write key table
        ∧ t.memory.ext = s.memory.ext ∧ t.job? id = some j' ∧ j'.stepRuns = true
        ∧ j'.rows = (s.stepRows id).map (fun r => (r.job.id, if r.prompt then r.tokens.length else 0, r.sample))
        ∧ (∀ p ∈ j'.positions, p.fetchHalt = none ∧ p.execHalt = none)
        ∧ t.sched.ctxs.length = s.sched.ctxs.length + j.image.positions.length) ∧
    (∀ (m : Job) (part : Nat) (key : Nat), s.computing = true → j.stepRuns = true → j.cancelled = false →
      (∀ p ∈ j.positions, p.fetchHalt ≠ none ∧ p.execHalt ≠ none) → j.rows = [(m.id, part, true)] → m.id ≠ id →
      s.job? m.id = some m → m.ready = false → m.cancelled = false → s.stepTableAt j 64 = some key →
      let out := le32 (s.memory.vault.read (key + 64 + 24) 4) 0
      out ≠ m.endToken → m.produced.length + 1 < m.tokenLimit → m.tokenSink = 0 →
      ∃ t j' m', exec (.batchStepEnd id) s = .next t ∧ t.job? id = some j' ∧ j'.stepRuns = false ∧ j'.stepNo = j.stepNo + 1
        ∧ t.job? m.id = some m' ∧ m'.produced = m.produced ++ [out] ∧ m'.promptDone = m.promptDone + part
        ∧ m'.ready = false ∧ t.memory = s.memory)

/-! ### Shuttles and egress -/

/-- R209, R211, R213, R214, R539, R540: the oldest record at a frame port that does not wait is counted as bad, counted as a duplicate or held in the
ring, and its piece is done; FRAME_COMMIT commits the held record that the context waits for. -/
def Obligations.FramePortsComplete : Prop :=
  ∀ (s : State) (t0 : Stream) (p : Program), s.computing = true → s.stream? t0.id = some t0 →
    (∀ (r : PortRecord) (rest : List PortRecord), s.programOf t0.ctx.program = some p → t0.inbox = r :: rest →
      (∀ q ∈ rest, ¬ (q.loom = r.loom ∧ q.tag = r.tag)) →
      let seq : Word := BitVec.ofNat 32 (le r.bytes 0 4)
      let d := (seq - t0.saved.nextSeq).toNat
      let old := 2 ^ 31 ≤ d ∨ ∃ e ∈ t0.ring, e.1 = seq
      let goes := fun (u : Stream) => exec (.frameRecord t0.id) s = .next ((s.mapStream t0.id fun _ => u).donePiece r.loom r.tag)
      let counted := fun (k : ShuttleCtx → ShuttleCtx) =>
        { t0 with inbox := rest, ctx := k t0.ctx, saved := if t0.absent then k t0.saved else t0.saved }
      (frameOk r.bytes p = false → goes (counted fun x => { x with badFrames := satAdd x.badFrames 1 })) ∧
      (frameOk r.bytes p = true → old → goes (counted fun x => { x with dupFrames := satAdd x.dupFrames 1 })) ∧
      (frameOk r.bytes p = true → ¬ old → d < 32 → ∃ top, goes
        { t0 with inbox := rest, ring := t0.ring ++ [(seq, r.bytes)], topSeq := some top })) ∧
    (∀ r : List Byte, (t0.ctx.nextSeq, r) ∈ t0.ring → t0.ctx.nextSeq ∉ t0.committed →
      exec (.frameCommit t0.id) s = .next (s.mapStream t0.id fun _ =>
        { t0 with committed := t0.committed ++ [t0.ctx.nextSeq] }))

/-- R196, R198 to R203, R205, R219: the micro-step of a batch in progress, which its cluster holds, computes on the context of its
stream, and the batch stands at the next one; OUT writes its sample at its index; END counts the step, and ends the frame or the stream with its last. -/
def Obligations.MicroStepsComplete : Prop :=
  ∀ (s : State) (c p : Nat) (t0 : Stream) (prog : Program) (b : Batch) (card : Card), s.computing = true →
    s.stream? t0.id = some t0 → (s.shuttle c p).batch = some b → s.programOf b.program = some prog →
    (s.held c b.program).1[b.micro]? = some card → b.streams = [(t0.id, false)] →
    let steps := fun (i : Instr) (u : Stream) => LeavesStream i s t0.id fun t v =>
      v = u ∧ (t.shuttle c p).batch = some { b with micro := b.micro + 1 } ∧ t.memory = s.memory ∧ t.sched = s.sched
        ∧ t.out = s.out
    let onCtx := fun (x : ShuttleCtx) => { t0 with ctx := x }
    (microOp card = 0x01 →
      let w := (s.held c b.program).2.read (512 * fld card 49 37) (microWeightBytes s.live.table1 card)
      steps (.microMv c p) (onCtx (microMv s.live.table1 (Mem.write [] 0 w) prog card t0.ctx))) ∧
    (microOp card = 0x02 → steps (.microEw c p) (onCtx (t0.ctx.putAll card ((List.range (microN card)).map fun j =>
      vop (fld card 36 31) (microWord prog t0.ctx card 99 j)
        (if 6 ≤ fld card 36 31 ∧ fld card 36 31 ≤ 9 then 0
         else microWord prog t0.ctx card 86 (if card.getLsbD 25 then 0 else j)))))) ∧
    (microOp card = 0x03 → steps (.microCrv c p) (onCtx (t0.ctx.putAll card ((List.range (microN card)).map fun j =>
      curveEval (curveOf (nth s.live.table2 (fld card 36 31) [])) (microWord prog t0.ctx card 99 j))))) ∧
    (microOp card = 0x04 →
      steps (.microCvt c p) (onCtx (microCvt s.live.table1 prog b.micro t0.id card t0.ctx))) ∧
    (microOp card = 0x06 → steps (.microDraw c p) (onCtx (microDraw prog b.micro t0.id card t0.ctx))) ∧
    (microOp card = 0x05 → t0.companion = none →
      let y := outSample (microWord prog t0.ctx card 99 0)
      LeavesStream (.microOut c p) s t0.id fun t u => u.ctx = t0.ctx.flag [y.2]
        ∧ (t.shuttle c p).batch = some { b with micro := b.micro + 1 } ∧ t.memory = s.memory
        ∧ (t0.taken ≤ t0.ctx.step.toNat → u.samples[t0.ctx.step.toNat - t0.taken]? = some y.1)
        ∧ (t0.ctx.step.toNat < t0.taken → u.samples = t0.samples)
        ∧ ∀ i < t0.samples.length, t0.taken + i ≠ t0.ctx.step.toNat → u.samples[i]? = t0.samples[i]?) ∧
    (microOp card = 0x0F →
      let last := decide (le t0.ctx.frame 4 2 ≤ t0.ctx.done + 1)
      steps (.microEnd c p) (onCtx { t0.ctx with
        step := t0.ctx.step + 1, done := t0.ctx.done + 1, inFrame := !last,
        ended := t0.ctx.ended || (last && bitOf (le t0.ctx.frame 7 1) 1) }))

/-- R216 to R218, R224 to R227, R538: a free Shuttle starts a batch of its due stream, which takes its next frame; a batch that has
run its micro-steps ends, its waves counted, and a context at the end of its frame is written; a move leaves and arrives; a
cluster loads a program that fits. -/
def Obligations.BatchesAndMovesComplete : Prop :=
  ∀ (s : State) (c p k : Nat) (t0 : Stream), s.stream? t0.id = some t0 → t0.cluster = c → t0.pos = p →
    (s.shuttleFree c p = true → (s.audio.streams.filter fun t => t.cluster == c && t.pos == p) = [t0] → t0.slot = some k →
      k < 32 → t0.due = true → t0.companion = none → t0.nextChange = none →
      (s.cluster c).programs.contains t0.ctx.program = true → p < (s.cluster c).shuttles.length →
      LeavesStream (.batchStart c p) s t0.id fun t u =>
        (t.shuttle c p).batch = some ⟨t0.ctx.program, [(t0.id, false)], 0⟩
        ∧ (t0.ctx.inFrame = true → u = t0)
        ∧ (∀ r, t0.ctx.inFrame = false → t0.nextFrame = some r →
            u = { t0 with ctx := { t0.ctx with
              frame := r, inFrame := true, done := 0, nextSeq := t0.ctx.nextSeq + 1,
              words := if bitOf (le r 7 1) 2 then s.initOf t0.ctx.program else t0.ctx.words } })) ∧
    (∀ (b : Batch) (prog : Program), s.computing = true → (s.shuttle c p).batch = some b →
      s.programOf b.program = some prog → (s.held c b.program).1.length ≤ b.micro → t0.slot = some k → t0.moving = false →
      let waves := (s.shuttle c p).wavesSinceWrite + prog.fillWaves + b.streams.length * (prog.stepWaves - prog.fillWaves)
      LeavesStream (.batchEnd c p) s t0.id fun t u => (t.shuttle c p).batch = none
        ∧ (t.shuttle c p).wavesSinceWrite = (if 240000 < waves then 0 else waves)
        ∧ ((t0.id, false) ∈ b.streams → t0.ctx.inFrame = false → u.saved = t0.ctx) ∧ (240000 < waves → u.saved = t0.ctx)
        ∧ u.ctx = t0.ctx ∧ u.samples = t0.samples ∧ u.slot = t0.slot ∧ KeepsMemory s t ∧ t.sched = s.sched) ∧
    (∀ c' p' : Nat, s.starting = true → t0.moveTo = some (c', p') → t0.moving = false → t0.slot = some k →
      t0.companion = none → s.inBatch t0 = false →
      LeavesStream (.contextMoveStart t0.id) s t0.id fun _ u => u.cluster = c' ∧ u.pos = p' ∧ u.slot = none
        ∧ u.absent = true ∧ u.moving = false ∧ u.moveTo = none ∧ u.saved = t0.ctx ∧ u.samples = t0.samples) ∧
    (∀ (prog : Word) (x : ShuttleCtx), s.nextProgram c p = some prog → s.freeSlot c p = some k → t0.absent = true →
      (∃ x ∈ s.candidates c p, x.stream = t0.id ∧ x.companion = false ∧ x.program = prog) → s.shuttleFree c p = true →
      (s.cluster c).programs.contains prog = true → s.readSaved t0 t0.ctx.nextSeq = some x → t0.savedCompanion = none →
      LeavesStream (.contextMoveArrive t0.id) s t0.id fun _ u => u.ctx = { x with moves := x.moves + 1 } ∧ u.slot = some k
        ∧ u.absent = false ∧ u.samples = t0.samples) ∧
    (∀ prog : Word, s.computing = true → s.domainOn (68 + c) = true → (s.programOf prog).isSome = true → c < s.units.clusters.length →
      (s.cluster c).programs.contains prog = false → (s.usedPrograms c).contains prog = true →
      s.weightBytes (s.cluster c).programs + s.weightBytes [prog] ≤ 4194304 →
      ∃ t, exec (.programLoadCluster c prog) s = .next t ∧ (t.cluster c).programs = prog :: (s.cluster c).programs
        ∧ t.held c prog = s.readProgram prog
        ∧ t.audio = s.audio ∧ t.memory = s.memory)

/-- R285, R288, R289, R335 to R337, R343, R344, R347: egress begins at L; a release instant with a full packet puts it into the
destination's queue, or counts a drop there where the link is down or the queue is full; one without P samples counts an
underrun of the gap, and one after the stream has ended and sent everything stops; Tally counts its HOLD down, is ready again
above the threshold, refuses without a table entry, and otherwise asks for the fallback program. How much the link has sent
by a release instant the model leaves free (log 173). -/
def Obligations.EgressAndTallyComplete : Prop :=
  (∀ (s : State) (t0 : Stream) (d : Rtp), s.starting = true →
    (s.stream? t0.id = some t0 → t0.egress = .rtp d → t0.running = false →
      (t0.level ≤ t0.margin ∨ (t0.ctx.ended = true ∧ 0 < t0.margin)) →
      LeavesStream (.egressStart t0.id) s t0.id fun _ u => u = { t0 with running := true, begun := true }) ∧
    (s.linkCatchUp.stream? t0.id = some t0 → t0.egress = .rtp d → t0.running = true → t0.nextRoute = none →
      let held := fun (r : Rtp) => { r with dests := r.dests.map fun (q : Dest) => { q with queued := 0 } }
      s.linkCatchUp.out = s.out ∧ (∃ (u0 : Stream) (r0 : Rtp), s.stream? t0.id = some u0 ∧ u0.egress = .rtp r0 ∧ held r0 = held d
        ∧ ({ u0 with egress := t0.egress } : Stream) = t0) ∧
      (∀ dst : Dest, d.dests = [dst] → d.pkt ≤ t0.samples.length → 1 ≤ d.pkt →
        (t0.inGap = true → t0.level ≤ t0.samples.length ∨ t0.ctx.ended = true) → dst.multicast = true →
        LeavesStream (.releaseInstant t0.id) s t0.id fun t u =>
          u.samples = t0.samples.drop d.pkt ∧ u.taken = t0.taken + d.pkt ∧ u.seqNow = t0.seqNow + 1
          ∧ u.tsNow = t0.tsNow + BitVec.ofNat 32 d.pkt ∧ u.inGap = false ∧ u.marker = false ∧ u.underruns = t0.underruns
          ∧ (s.padsOpen 106 = true → s.hostLinkUp = true → dst.queued < 2 →
              u.egress = .rtp { d with dests := [{ dst with queued := dst.queued + 1 }] }
              ∧ t.out = s.out ++ [.rtp t0.id 0 t0.marker t0.seqNow t0.tsNow d.ssrc d.pt
                  ((t0.samples.take d.pkt).flatMap (payloadOf d.payload))
                  ⟨d.dscp, d.srcPort, dst.v6, ⟨dst.addr, dst.port⟩⟩])
          ∧ (s.hostLinkUp = false ∨ 2 ≤ dst.queued → t.out = s.out
              ∧ u.egress = .rtp { d with dests := [{ dst with drops := satAdd dst.drops 1 }] })) ∧
      (t0.ctx.ended = false →
        (t0.samples.length < d.pkt ∨ (t0.inGap = true ∧ t0.samples.length < t0.level)) →
        LeavesStream (.releaseInstant t0.id) s t0.id fun t u => u.samples = t0.samples ∧ u.seqNow = t0.seqNow
          ∧ u.tsNow = t0.tsNow + BitVec.ofNat 32 d.pkt ∧ u.inGap = true ∧ u.marker = true ∧ t.out = s.out
          ∧ u.underruns = (if t0.inGap then t0.underruns else satAdd t0.underruns 1)) ∧
      (t0.ctx.ended = true → t0.samples = [] → 1 ≤ d.pkt →
        LeavesStream (.releaseInstant t0.id) s t0.id fun t u => u.running = false ∧ u.inGap = false ∧ t.out = s.out
          ∧ u.underruns = t0.underruns ∧ u.seqNow = t0.seqNow))) ∧
  (∀ (s : State) (t0 : Stream), s.starting = true → s.stream? t0.id = some t0 → t0.egress ≠ .none →
    (t0.atLevel = true ∨ t0.level ≤ t0.margin) → t0.change = none →
    (∀ n : Nat, t0.hold = n + 1 →
      LeavesStream (.tallyEvaluation t0.id) s t0.id fun _ u => u = { t0 with hold := n }) ∧
    (∀ threshold urgent : Nat, t0.hold = 0 → s.threshold t0 = some (threshold, urgent) →
      (threshold ≤ t0.margin →
        LeavesStream (.tallyEvaluation t0.id) s t0.id fun _ u => u = { t0 with decided := false }) ∧
      (t0.margin < threshold → t0.decided = false →
        (fallbackFor s.live.table4 t0.current = none →
          LeavesStream (.tallyEvaluation t0.id) s t0.id fun _ u => u = { t0 with decided := true }) ∧
        (∀ (e : Nat) (f : Fallback) (now next : Program), fallbackFor s.live.table4 t0.current = some (e, f) →
          s.programOf t0.current = some now → s.programOf f.fallback = some next → now.condLen = next.condLen →
          now.condFmt = next.condFmt → s.runsOn t0 f.fallback = some t0.home →
          let mark := decide (f.mode ≠ 1 ∧ urgent ≤ t0.margin)
          let asked : Change := { program := f.fallback, atMark := mark, entry := some e, moving := t0.moveTo.isSome,
                                  record := s.fallbackRecord t0 0 (if mark then 0 else 1) threshold f.fallback }
          LeavesStream (.tallyEvaluation t0.id) s t0.id fun _ u => u = { t0 with change := some asked }))))
/-! ### Reed ports and the carding pipeline -/

/-- R342, R441 to R446, R454, R457: a Reed input and a word clock lock, and lose lock with a count, RTP streams paced by them going on
locally and outputs clocked by them losing their clock; an input frame with good preambles is delivered, its validity set where a parity is bad, or dropped when the crossing
is full; a rate window that was locked throughout gives RATE. -/
def Obligations.ReedInputsComplete : Prop :=
  ∀ (s : State) (n : Nat), s.audioRuns = true →
    let paced := fun (source : Nat) (t : Stream) =>
      match t.egress with
      | .rtp d => if d.source = source ∧ t.running = true then
          { t with onLocal := true, sourceLoss := satAdd t.sourceLoss 1 } else t
      | _ => t
    let goes := fun (i : Instr) (u : State) => exec i s = .next u.checkOutputs ∧ u.checkOutputs.memory = s.memory
      ∧ u.checkOutputs.out = s.out ∧ (∀ k < 16, (u.checkOutputs.reed k) = u.reed k)
      ∧ ((∀ k < 16, (u.reed (16 + k)).running = true → (u.reed (16 + k)).clockOk = true → u.clockUsable (16 + k) = true) →
          u.checkOutputs = u)
      ∧ (u.audio.outs.length = 16 → ∀ k < 16, (u.reed (16 + k)).running = true → (u.reed (16 + k)).clockOk = true →
          u.clockUsable (16 + k) = false → (u.checkOutputs.reed (16 + k)).clockOk = false
            ∧ (u.checkOutputs.reed (16 + k)).lockLosses = satAdd (u.reed (16 + k)).lockLosses 1)
    (n < 16 → s.padsOpen (107 + n / 8) = true → (s.reed n).locked = false →
      exec (.reedInputLock n) s
        = .next (s.mapReed n fun p => { p with locked := true, measRate := 0, wholeWindow := false })) ∧
    (n < 16 → (s.reed n).locked = true →
      let lost := s.mapReed n fun p => { p with locked := false, lockLosses := satAdd p.lockLosses 1, measRate := 0 }
      goes (.reedInputLockLoss n) { lost with audio := { lost.audio with
        streams := s.audio.streams.map (paced (16 + n))
        ingress := s.audio.ingress.map fun g =>
          if g.port = n ∧ 0 < g.processed + g.input.length then { g with lockLost := true } else g } }) ∧
    (n < 16 → (s.reed n).running = true → (s.reed n).started = true → (s.reed n).locked = true →
      (s.reed n).stopping = false → s.padsOpen (107 + n / 8) = true →
      ∀ f : ReedFrame,
        let ok := f.parity0 && f.parity1
        let sample := (f.sample0, f.valid0 || !ok, f.sample1, f.valid1 || !ok)
        let errors := if f.preambleOk && ok then (s.reed n).frameErrors else satAdd (s.reed n).frameErrors 1
        ∃ t, exec (.reedInputFrame n f) s = .next t ∧ (t.reed n).frameErrors = errors ∧ t.memory = s.memory ∧ t.out = s.out
          ∧ (f.preambleOk = false → t.audio.ingress = s.audio.ingress ∧ (t.reed n).fifo = (s.reed n).fifo)
          ∧ (f.preambleOk = true → s.domainOn 111 = true → (s.reed n).fifo = [] →
              (t.reed n).fifo = [] ∧ t.audio.ingress = s.audio.ingress.map fun g =>
                if g.port = n then
                  { g with
                    input := g.input ++ [(if g.channel = 0 then ⟨sample.1, sample.2.1, g.lockLost, s.audio.stamp⟩
                      else ⟨sample.2.2.1, sample.2.2.2, g.lockLost, s.audio.stamp⟩)],
                    lockLost := false } else g)
          ∧ (f.preambleOk = true → s.domainOn 111 = false →
              (t.reed n).fifo = (if 32 ≤ (s.reed n).fifo.length then (s.reed n).fifo else (s.reed n).fifo ++ [sample])
              ∧ (t.reed n).drops = (if 32 ≤ (s.reed n).fifo.length then satAdd (s.reed n).drops 1 else (s.reed n).drops))) ∧
    (∀ w : Wclk, s.audio.wclks[n]? = some w →
      (w.locked = false → exec (.wclkLock n) s
        = .next (s.mapWclk n fun w => { w with locked := true, measRate := 0, wholeWindow := false })) ∧
      (w.locked = true →
        let lost := s.mapWclk n fun w => { w with locked := false, lockLosses := satAdd w.lockLosses 1, measRate := 0 }
        goes (.wclkLockLoss n) { lost with audio := { lost.audio with streams := s.audio.streams.map (paced (1 + n)) } })) ∧
    (∀ rate : BitVec 25, n < 16 → (s.reed n).locked = true →
      goes (.rateMeasureWindow n rate) (s.mapReed n fun p =>
        { p with measRate := if (s.reed n).wholeWindow then rate else (s.reed n).measRate, wholeWindow := true })) ∧
    (∀ (rate : BitVec 25) (w : Wclk), s.audio.wclks[n]? = some w → w.locked = true →
      goes (.rateMeasureWindow (0x20 + n) rate) (s.mapWclk n fun _ =>
        { w with measRate := if w.wholeWindow then rate else w.measRate, wholeWindow := true }))

/-- R440, R446 to R454: the start tick starts a port alone in its group; data starts when every awaited stream is ready; a tick sends a
silent frame before data start when SILENT is 1, one frame of the stream's next sample after it, and the frame again with
validity 1 when the stream lacks one; a clock that is lost is counted. Of a frame's time slots 4 to 31, which hold the sample, the
validity, user, status and parity bits, an even number is 1. -/
def Obligations.ReedOutputsComplete : Prop :=
  ∀ (s : State) (code : Nat), s.computing = true →
    (∀ k : Nat, (s.reed code).running = true → (s.reed code).armed = some k → (s.reed code).group = [code] →
      s.referenceUsable code = true →
      exec (.reedStartTick code) s = .next (s.mapReed code fun p => { p with armed := none, started := true })) ∧
    (16 ≤ code → (s.reed code).dataOn = false → s.outputSet code = [code] →
      (∀ t ∈ s.audio.streams, t.id ∈ (s.reed code).awaited → t.readyOut = true) →
      ∃ t, exec (.reedDataStart code) s = .next t ∧ (t.reed code).dataOn = true ∧ (t.reed code).awaited = []
        ∧ t.memory = s.memory ∧ t.out = s.out ∧ t.audio.ins = s.audio.ins) ∧
    (16 ≤ code → s.outputSet code = [code] → s.clockUsable code = true → s.padsOpen (107 + code / 8) = true →
      (s.reed code).stopping = false →
      let p := s.reed code
      let frame := fun (s0 : BitVec 24) (v0 : Bool) (s1 : BitVec 24) (v1 : Bool) =>
        aesFrame (code - 16) (p.csPos == 0) (s.statusBit code p.csPos) s0 v0 s1 v1
      (p.dataOn = false → s.dataReady [code] = true →
        ∃ t, exec (.reedOutputFrame code) s = .next t ∧ (t.reed code).dataOn = true ∧ (t.reed code).awaited = []
          ∧ t.memory = s.memory) ∧
      (p.dataOn = false → s.dataReady [code] = false →
        ∃ t, exec (.reedOutputFrame code) s = .next t ∧ t.memory = s.memory ∧ t.audio.streams = s.audio.streams
          ∧ t.out = s.out ++ (if (s.reedConfig code).getLsbD 19 then [frame 0 true 0 true] else [])
          ∧ (t.reed code).csPos = (if (s.reedConfig code).getLsbD 19 then (p.csPos + 1) % 192 else p.csPos)) ∧
      (∀ t0 : Stream, p.dataOn = true → p.lacking = [] → s.audio.streams = [t0] → t0.egress = .reed (code - 16) 0 →
        t0.nextRoute = none → t0.begun = true → t0.ctx.ended = false →
        (∀ (x : BitVec 24) (xs : List (BitVec 24)), t0.samples = x :: xs →
          ∃ t, exec (.reedOutputFrame code) s = .next t ∧ t.out = s.out ++ [frame x false 0 true]
            ∧ t.audio.streams = [{ t0 with samples := xs, taken := t0.taken + 1 }]
            ∧ (t.reed code).csPos = (p.csPos + 1) % 192 ∧ (t.reed code).last = (x, 0) ∧ t.memory = s.memory) ∧
        (t0.samples = [] →
          ∃ t, exec (.reedOutputFrame code) s = .next t
            ∧ t.audio.streams = [{ t0 with underruns := satAdd t0.underruns 1 }]
            ∧ (t.reed code).csPos = p.csPos ∧ (t.reed code).repeats = satAdd p.repeats 1 ∧ (t.reed code).lacking = [t0.id]
            ∧ ∃ z b, t.out = s.out ++ [aesFrame (code - 16) z b p.last.1 true p.last.2 true]))) ∧
    (∀ n < 16, (s.reed (16 + n)).running = true → (s.reed (16 + n)).clockOk = true →
      ∃ t, exec (.reedOutputClockLoss n) s = .next t ∧ (t.reed (16 + n)).clockOk = false
        ∧ (t.reed (16 + n)).lockLosses = satAdd (s.reed (16 + n)).lockLosses 1
        ∧ t.audio.streams = s.audio.streams.map (fun u =>
            if u.reedOut.any (fun o => o.1 == n) then { u with sourceLoss := satAdd u.sourceLoss 1 } else u)) ∧
    (∀ g : Ingress, s.domainOn 111 = true → s.nextStripe = some g →
      (g.stripe s.live.table5).pos < (g.stripe s.live.table5).frameSamples →
      ∃ t, exec .cardingStripe s = .next t ∧ t.ingress? (g.stripe s.live.table5).id = some (g.stripe s.live.table5)
        ∧ t.memory = s.memory ∧ t.out = s.out ∧ t.audio.streams = s.audio.streams
        ∧ t.audio.resident = ((g.stripe s.live.table5).id :: s.audio.resident.filter (· != (g.stripe s.live.table5).id)).take 16) ∧
    (∀ (port : Nat) (z status v0 v1 : Bool) (x0 x1 : BitVec 24), ∃ w0 w1 : BitVec 28,
      aesFrame port z status x0 v0 x1 v1 = .reed port z w0 w1 ∧
      (∀ i < 24, w0.getLsbD i = x0.getLsbD i ∧ w1.getLsbD i = x1.getLsbD i) ∧
      w0.getLsbD 24 = v0 ∧ w1.getLsbD 24 = v1 ∧ w0.getLsbD 25 = false ∧ w1.getLsbD 25 = false ∧
      w0.getLsbD 26 = status ∧ w1.getLsbD 26 = status ∧
      ((List.range 28).filter fun i => w0.getLsbD i).length % 2 = 0 ∧
      ((List.range 28).filter fun i => w1.getLsbD i).length % 2 = 0)

/-! ### Power, sensors, regulators, wake -/

/-- R50 to R53, R475, R498, R499, R501, R593, R594: a window in Run, Idle and Sleep counts and closes the pace counters of powered
units; in Run and Idle the draw is read and moves the governed voltage, and in Sleep it counts towards the spacing of R53 alone (log
169, the model's reading); a conversion in range is taken and one out of range excludes its sensor, with its record; a trip records,
reports, cancels every job and enters Off; VCORE below 520 mV resets the device. -/
def Obligations.WindowsAndSensorsComplete : Prop :=
  ∀ (s : State), s.power.boot = .ready → s.power.state = .run ∨ s.power.state = .idle ∨ s.power.state = .sleep →
    (∀ w : Sys2Proof.Window,
      let rateOf := fun (waves ring : Nat) => BitVec.ofNat 21 (min (if waves = 0 then ring else waves) 2097151)
      let g := s.power.governedMv
      let hot := s.power.hot || s.power.hotHeld
      let moved := if s.live.ceiling.toNat < w.drawW ∨ hot = true then g - 10
        else if w.drawW * 100 < s.live.ceiling.toNat * 95 then g + 5 else g
      ∃ t, exec (.paceWindow w) s = .next t ∧ t.recorder.windows = s.recorder.windows + 1
        ∧ (s.power.state ≠ .sleep → t.power.powerW = BitVec.ofNat 16 (min w.drawW 65535)
            ∧ t.power.governedMv = min (max moved 550) s.policyMv ∧ (s.out ++ drawReads) <+: t.out)
        ∧ (s.power.state = .sleep → t.power = s.power ∧ t.out = s.out ∧ t.proto = s.proto
            ∧ t.pace.sinceEvent = s.pace.sinceEvent.map (· + 1) ∧ t.pace.reference = s.pace.reference)
        ∧ t.memory = s.memory ∧ t.sched = s.sched ∧ t.audio = s.audio
        ∧ ∀ (n : Nat) (c : PaceCounter), s.pace.counters[n]? = some c →
            ∃ c', t.pace.counters[n]? = some c' ∧ c'.kind = c.kind ∧ c'.index = c.index
              ∧ (∀ waves ring, w.waves.find? (fun e => e.1 == c.kind && e.2.1 == c.index) = some (c.kind, c.index, waves, ring) →
                  s.domainOn c.domain = true → c'.waves = c.waves + BitVec.ofNat 64 waves ∧ c'.valid = true
                  ∧ c'.rate = rateOf waves ring
                  ∧ c'.minRate = (if c.cleared ∨ (rateOf waves ring).toNat < c.minRate.toNat then rateOf waves ring else c.minRate))
              ∧ (s.domainOn c.domain = false → c' = c)) ∧
    (∀ (n : Nat) (q : Int) (ok : Bool), s.domainOn 128 = true → n < 80 → n ∉ s.power.excluded → s.power.sensors.length = 80 →
      let usable := ok = true ∧ -240 ≤ q ∧ q ≤ 600
      ∃ t, exec (.thermalSensorConversion [⟨n, q, ok⟩]) s = .next t
        ∧ (usable → t.power.sensors = s.power.sensors.set n q ∧ t.power.excluded = s.power.excluded
            ∧ t.recorder = s.recorder)
        ∧ (¬ usable → t.power.sensors = s.power.sensors ∧ t.power.excluded = s.power.excluded ++ [n]
            ∧ t.recorder = (s.lifetime 0x0021 0xFF 0 0 (leBytes 1 n ++ leBytes 1 (if ok then 1 else 0))).recorder)
        ∧ (s.power.hot = false → (t.power.hot = true ↔ t.power.hotHeld = true ∨ 4 * maxJunction ≤ t.hottest))
        ∧ (s.power.hot = true → (t.power.hot = true ↔ t.power.hotHeld = true ∨ 4 * (maxJunction - 3) < t.hottest))) ∧
    (∀ (n : Nat) (c : Int), s.domainOn 128 = true → s.power.transition = none → n ∉ s.power.excluded → maxJunction + 15 ≤ c →
      exec (.thermalTrip n c) s = .next
        ((((s.lifetime 0x0020 0xFF 0 0 (leBytes 1 n ++ [0] ++ leBytes 2 (c % 65536).toNat)).powerEvent .off s.power.state 6).cancelAll).tripOff)) ∧
    (∀ mv : Nat, s.domainOn 128 = true →
      (mv < 520 → ∃ t, exec (.vcoreUndervoltage (.vcore mv)) s = .next t ∧ t.power.boot = .coldPending
        ∧ t.recorder = Recorder.drain (s.lifetime 0x0010 0xFF 0 0 (leBytes 2 mv)).recorder) ∧
      (520 ≤ mv → exec (.vcoreUndervoltage (.vcore mv)) s = .next s))

/-- R370, R371, R481 to R485, R490, R495, R496: a domain of the running step is acted on; an acknowledged rail stands at its value; a request that was
not acknowledged is sent again, and after four tries recorded; a retention SRAM whose CRC fails as a return from Deep sleep completes
resets the device; a wake of at least 100 µs starts a cold boot in Off and marks a
running entry; a wake-bus frame for the device is received, unless the reply queue is
full, and a read sends the oldest packet. -/
def Obligations.RegulatorsAndWakeComplete : Prop :=
  ∀ (s : State),
    (∀ (t0 : Transition) (d : Nat) (act : Nat × Nat), s.power.transition = some t0 → s.entryWaits = false → d ∈ t0.awaiting →
      d ≠ 1000 → (powerSteps (nth s.live.table3 t0.entry []))[t0.step]? = some act → t0.awaiting.erase d ≠ [] →
      ∀ ok : Bool, ok = true ∨ s.wakesNow d = false → exec (.domainPowerGood ⟨d, ok⟩) s = .next ((s.actOn d act.2).mapPower fun p =>
        { p with transition := some { t0 with awaiting := t0.awaiting.erase d } })) ∧
    (∀ (r : RailRequest), (s.power.requests.find? fun q => q.rail == r.rail) = some r →
      let dropped := s.mapPower fun p => { p with requests := p.requests.filter fun q => q.rail != r.rail }
      (r.rail = .vcore → s.power.transition = none → ∃ t, exec (.regulatorAck .vcore) s = .next t ∧ t.power.vcoreMv = r.mv ∧ t.memory = s.memory) ∧
      (r.rail ≠ .vcore → exec (.regulatorAck r.rail) s = .next dropped) ∧
      (r.tries ≤ 3 → ∃ t, exec (.regulatorTimeout r.rail) s = .next t
        ∧ t.out = s.out ++ (match r.rail with
          | .vcore => [.avs (.voltageWrite r.mv), .avs .statusRead]
          | .pmbus a page =>
            [.pmbus (pmbusWrite a .page (leBytes 1 page)), .pmbus (pmbusWrite a .voutCommand (leBytes 2 (Config.voutWord r.mv).toNat)),
             .pmbus (pmbusRead a .statusWord)])
        ∧ (t.power.requests.find? fun q => q.rail == r.rail) = some { r with tries := r.tries + 1 }
        ∧ t.recorder = s.recorder) ∧
      (3 < r.tries →
        exec (.regulatorTimeout r.rail) s = .next (dropped.lifetime 0x0012 0xFF 0 0 (railDetail r)))) ∧
    (∀ heldUs : Nat, 100 ≤ heldUs →
      (s.power.transition = none → s.power.state = .off → s.power.boot = .unpowered →
        exec (.wakePin heldUs) s = .next (s.mapPower fun p => { p with boot := .coldPending })) ∧
      (∀ t0 : Transition, s.power.transition = some t0 → t0.next = none → t0.target = .sleep ∨ t0.target = .deepSleep ∨ t0.target = .off →
        exec (.wakePin heldUs) s = .next (s.mapPower fun p => { p with transition := some { t0 with wake := true } })) ∧
      (s.power.transition = none → s.power.state = .run → exec (.wakePin heldUs) s = .next s)) ∧
    (s.started = true → s.busWakes = false →
      (∀ (addr : Byte) (bytes : List Byte), addr.toNat = 2 * (0x40 + s.power.straps.toNat) →
        (s.proto.replyQueue.length < 16 → exec (.wakeBusFrame addr bytes) s = .next (s.receiveRaw .wakeBus ⟨[], 0⟩ bytes)) ∧
        (16 ≤ s.proto.replyQueue.length → bytes ≠ [] → exec (.wakeBusFrame addr bytes) s = .next s)) ∧
      (∀ addr : Byte, addr.toNat = 2 * (0x40 + s.power.straps.toNat) + 1 → s.power.state ≠ .off →
        (s.proto.replyQueue = [] → exec (.wakeBusRead addr) s = .next { s with out := s.out ++ [.wakeFrame none] }) ∧
        (∀ p rest, s.proto.replyQueue = p :: rest →
          ∃ t more, exec (.wakeBusRead addr) s = .next t ∧ t.out = s.out ++ .wakeFrame (some p) :: more))) ∧
    exec .wakeBusStall s = .next s

/-- R244, R246, R249, R492: the supervision shortens the self-refresh period at once and lengthens it only 2 °C below a boundary; a
refresh takes the period of its temperature; a corrected word is counted; a drift retrains its channel. -/
def Obligations.BackgroundMemoryCareCompletes : Prop :=
  ∀ (s : State),
    (∀ (t0 : Int), s.power.canopySelf = true →
      let period := fun (c : Int) => if c ≤ 85 then 32 else if c ≤ 95 then 16 else 8
      let now := s.power.selfRefreshMs
      exec (.selfRefreshSupervision [t0]) s = .next (s.mapPower fun p =>
        { p with selfRefreshMs := if period t0 ≤ now then period t0 else max now (period (t0 + 2)) })) ∧
    (∀ (q : Nat) (c : Int), s.windowsRun = true → s.power.canopySelf = false → s.domainOn (122 + q) = true →
      exec (.canopyRefresh q c) s = .next { s with memory := { s.memory with
        refreshMs := s.memory.refreshMs.set q (if c ≤ 85 then 32 else if c ≤ 95 then 16 else 8) } }) ∧
    (∀ v : Nat, s.computing = true → s.domainOn (122 + v / 17) = true →
      exec (.patrolScrub v true) s = .next { s with memory := { s.memory with
        vaultCorr := s.memory.vaultCorr.modify v fun c => satAdd c 1 } } ∧
      exec (.patrolScrub v false) s = .next s) ∧
    (∀ ch : Nat, s.computing = true → s.units.present.getLsbD ch = true →
      exec (.wckDriftCheck ch true) s = .next { s with units := { s.units with
        retrained := s.units.retrained.modify ch (· + 1) } } ∧
      exec (.wckDriftCheck ch false) s = .next s)

/-! ### Faults, Selvage ports, lifetime -/

/-- R37, R228, R245, R528 to R532, R540, R542, R544: a Loom's third fault in 60 minutes retires it and maps its dent to a spare, a first
one that its self-test passes leaves it in service; a Shuttle's fault sets its streams back to their written contexts; a
watchdog is a fault of its unit; a weight-store word that cannot be corrected sets the streams back without counting; a unit without
a spare is recorded and resets the device; an uncorrectable word is recorded, the piece that read it delivers nothing, and its
reader's job stops. -/
def Obligations.FaultEventsComplete : Prop :=
  ∀ (s : State),
    (∀ (loom : Nat) (mech : Mechanism), s.loomMayFault loom mech = true → loom < s.units.looms.length →
      let faults := (s.loom loom).faults.filter (fun m => s.recorder.minutes.toNat < m.toNat + 60) ++ [s.recorder.minutes]
      (∀ dent spare : Nat, 3 ≤ faults.length ∨ mech = .watchdog → s.dentOf loom = some dent → s.spareFor dent = some spare →
        ∀ test, ∃ t, exec (.loomFault loom mech test) s = .next t ∧ (t.loom loom).failed = true
          ∧ t.units.dentMap = s.units.dentMap.set dent (some spare)) ∧
      (faults.length < 3 → mech ≠ .watchdog → s.replayable loom = [] →
        ∃ t, exec (.loomFault loom mech .pass) s = .next t ∧ (t.loom loom).failed = false ∧ (t.loom loom).faults = faults
          ∧ (t.loom loom).lanes = (s.loom loom).lanes ∧ t.units.dentMap = s.units.dentMap ∧ t.out = s.out
          ∧ ∀ x ∈ t.sched.transfers, x.loom ≠ loom)) ∧
    (∀ (c p : Nat) (mech : Mechanism) (t0 : Stream) (x : ShuttleCtx), s.shuttleMayFault c p mech = true → mech ≠ .watchdog →
      mech = .weightStore ∨ ((s.shuttle c p).faults.filter fun m => s.recorder.minutes.toNat < m.toNat + 60).length < 2 →
      s.readSaved t0 t0.saved.nextSeq = some x →
      (s.audio.streams.filter fun u => u.cluster == c && u.pos == p) = [t0] → s.stream? t0.id = some t0 → t0.slot.isSome = true →
      t0.moving = false → t0.savedCompanion = none →
      LeavesStream (.shuttleFault c p mech .pass) s t0.id fun t u => u.ctx = x ∧ u.samples = t0.samples
        ∧ u.cluster = c ∧ u.pos = p ∧ (t.shuttle c p).failed = (s.shuttle c p).failed ∧ t.memory = s.memory
          ∧ (mech = .weightStore → (t.shuttle c p).faults = (s.shuttle c p).faults)) ∧
    (∀ n : Nat, s.loomMayFault n .watchdog = true →
      exec (.handshakeWatchdog (.loom n)) s = exec (.loomFault n .watchdog .pass) s) ∧
    (∀ c p : Nat, s.shuttleMayFault c p .watchdog = true →
      exec (.handshakeWatchdog (.shuttle c p)) s = exec (.shuttleFault c p .watchdog .pass) s) ∧
    (∀ (u : SoloUnit) (mech : Mechanism), s.soloMayFault u = true →
      ∃ t, exec (.faultNoSpare u mech) s = .next t ∧ t.power.boot = .warmPending ∧ t.memory = s.memory ∧ t.sched = s.sched
        ∧ t.recorder = Recorder.drain
            (s.lifetime 0x0031 (if u = .ethernet then 6 else 0xFF) 0 0 (leBytes 1 (mechRow mech))).recorder) ∧
    (∀ (v loom slot : Nat) (off : DWord) (c : Ctx) (j : Job), s.computing = true → s.domainOn (122 + v / 17) = true →
      s.resident? loom slot = some c → s.job? c.job = some j → j.ready = false →
      let noted := s.lifetime 0x0030 2 v 0 (leBytes 8 off.toNat)
      let bad := s.badPieces c.job c.position (.vault (vaultKey v off.toNat))
      let lost := fun (u : State) => (u.faultEvent .faultLost (.vault v) 0 off.toNat (u.fedBy [c.job]) [c.job]).stopJob c.job .faultLost
      (bad = [] → exec (.uncorrectableWord true v off (.context loom slot)) s = .next (lost noted)) ∧
      (∀ (x : Transfer) (q : Piece) (tag : Nat), bad = [(x, q)] → q.tag = some tag →
        (x.kind = .load → s.job? c.job = (noted.donePiece x.loom tag).job? c.job →
          exec (.uncorrectableWord true v off (.context loom slot)) s = .next (lost (noted.donePiece x.loom tag))) ∧
        (x.kind = .loadC →
          exec (.uncorrectableWord true v off (.context loom slot)) s = .next (lost { noted with sched := { noted.sched with
            transfers := s.sched.transfers.filter fun u => u.loom ≠ x.loom ∨ ∀ r ∈ u.pieces, r.tag ≠ some tag } }))))

/-- R193, R298 to R303, R542: a flit that fails is answered by one NAK, its corrected segments counted; a control flit frees the acknowledged replay flits and
returns credits; the next data flit is accepted and its message gathered; the acknowledgement timer and the replay timeout
send; a port trains with its identity flit, retrains, fails at the third failure and is tried again; a Scale unit fault abandons the
card that the unit runs, and the third fails its streams. -/
def Obligations.PortEventsComplete : Prop :=
  ∀ (s : State) (n : Nat), n < s.links.ports.length →
    (∀ bytes : List Byte, s.portListens n = true →
      (∀ fixed : Nat, readFlit bytes = (none, fixed) →
        ((s.port n).nakked = true → exec (.flitReceived n bytes) s
          = .next (s.mapPort n fun p => { p with fecFixed := satAdd p.fecFixed fixed })) ∧
        ((s.port n).nakked = false → ∃ t, exec (.flitReceived n bytes) s = .next t ∧ (t.port n).nakked = true
          ∧ (t.port n).fecFixed = satAdd (s.port n).fecFixed fixed ∧ t.out = s.out ++ [.flit n ((s.port n).controlFlit true)])) ∧
      (∀ (d : List Byte) (fixed k : Nat) (rest : List (BitVec 12 × TxFlit)), readFlit bytes = (some d, fixed) → flitOk d = true →
        (s.port n).queue = [] → bitOf (le d 4 2) 12 = false →
        (s.port n).unackedFrom (BitVec.ofNat 12 (le d 4 2)) = rest → le d 6 2 = k + 256 * bitsOf (le d 6 2) 10 8 → k < 256 →
        let got := fun (q : Selvage) => q.replay = rest ∧ q.fecFixed = satAdd (s.port n).fecFixed fixed
          ∧ q.credits = (s.port n).credits.modify (bitsOf (le d 6 2) 10 8) (· + k)
        (bitsOf (le d 0 1) 3 0 ≠ 1 → ∃ t, exec (.flitReceived n bytes) s = .next t ∧ got (t.port n)
          ∧ (t.port n).rxSeq = (s.port n).rxSeq ∧ t.out = s.out) ∧
        (bitsOf (le d 0 1) 3 0 = 1 → BitVec.ofNat 12 (le d 2 2) = (s.port n).rxSeq → (s.port n).unacked + 1 < 32 →
          s.links.device = none →
          ∃ t, exec (.flitReceived n bytes) s = .next t ∧ got (t.port n) ∧ (t.port n).rxSeq = (s.port n).rxSeq + 1
            ∧ (t.port n).unacked = (s.port n).unacked + 1 ∧ t.out = s.out
            ∧ (bitOf (le d 1 1) 0 = true → bitOf (le d 1 1) 1 = true →
                (t.port n).messages = (s.port n).messages ++ [(d.getD 9 0, slice d 12 (le d 10 2))])))) ∧
    (s.portListens n = true →
      ((s.port n).unacked ≠ 0 → ∃ t more, exec (.ackTimer n) s = .next t ∧ (t.port n).unacked = 0
        ∧ t.out = s.out ++ .flit n ((s.port n).controlFlit false) :: more) ∧
      (∀ (seq : BitVec 12) (f : TxFlit), (s.port n).replay = [(seq, f)] →
        ∃ t, exec (.replayTimeout n) s = .next t ∧ t.out = s.out ++ [.flit n ((s.port n).dataFlit seq f)]
          ∧ (t.port n).resends = satAdd (s.port n).resends 1 ∧ (t.port n).replay = [(seq, f)]) ∧
      (∀ cause : RetrainCause, exec (.portRetrain n cause) s = .next ((s.mapPort n fun p =>
        { p with state := .retraining, retrains := satAdd p.retrains 1, cause := some (causeCode cause) }).portChanged n))) ∧
    (s.portTrains n = true →
      ((s.port n).trainFails < 2 → exec (.portTraining n none) s = .next (s.mapPort n fun p =>
        { p with trainFails := p.trainFails + 1, lanesGood := 0, width := 0 })) ∧
      (∀ t0 : Training, widthOf t0.lanesGood ≠ 0 → s.links.device = none → s.links.isRoot = false → (s.port n).replay = [] →
        (s.port n).queue = [] →
        ∃ t, exec (.portTraining n (some t0)) s = .next t ∧ (t.port n).state = .up ∧ (t.port n).trainFails = 0
          ∧ (t.port n).width = widthOf t0.lanesGood ∧ (t.port n).lanesGood = t0.lanesGood
          ∧ (t.port n).farPort = t0.farPort ∧ (t.port n).farSerial = t0.farSerial ∧ (t.port n).farRevision = t0.farRevision
          ∧ (s.out ++ [.flit n (Config.identityFlit Config.serial n 0xB1 none)]) <+: t.out ∧ t.memory = s.memory)) ∧
    (s.started = true → s.padsOpen (100 + n) = true → (s.port n).state = .failed →
      exec (.failedPortRetry n) s = .next (s.mapPort n fun p => { p with state := .training })) ∧
    (s.started = true → s.domainOn (100 + n) = true →
      let faults := (s.port n).scaleFaults.filter (fun m => s.recorder.minutes.toNat < m.toNat + 60) ++ [s.recorder.minutes]
      let noted := (s.scaleAbandoned n).mapPort n fun p => { p with scaleFaults := faults }
      (s.sched.scale.find? (fun q => q.1 == n) = none → s.scaleAbandoned n = s) ∧
      (∀ (q : Nat × Word × Nat) (c : Ctx), s.sched.scale.find? (fun q => q.1 == n) = some q → s.ctx? q.2.1 q.2.2 = some c →
        ∀ x ∈ (s.scaleAbandoned n).sched.scale, x.2 ≠ (c.job, c.position)) ∧
      (faults.length < 3 → exec (.scaleUnitFault n) s = .next noted) ∧
      (3 ≤ faults.length → exec (.scaleUnitFault n) s = .next
        ((((noted.port n).streams.map (·.binding)).eraseDups).foldl State.failBinding noted)))

/-- R191, R192, R314 to R317, R321: the next raw block of a binding joins those that wait; an acknowledgement frees the store up
to its block; a request sends the blocks again from its own; a block and record of the expected tag form a pair, which is
acknowledged. -/
def Obligations.BlockEventsComplete : Prop :=
  ∀ (s : State) (b : Binding), s.started = true → b.ended = false →
    (∀ (n dport : Nat) (src : Byte) (m : List Byte) (rest : List (Byte × List Byte)) (e : BindEnd) (t0 : LinkStream),
      (s.port n).messages = (src, m) :: rest → 16 ≤ m.length → le m 0 1 = 2 → le m 1 1 = dport → dport < 128 → le m 8 4 = m.length - 16 →
      le m 12 4 = (crc32c (m.drop 16)).toNat → s.receiving dport (m.getD 2 0) = some (b, e) → b.narrowed = false →
      s.linkStream? dport (m.getD 2 0) = some t0 → t0.lsid = m.getD 2 0 → BitVec.ofNat 32 (le m 4 4) = t0.expSeq →
      ∃ t, exec (.linkMessage n) s = .next t ∧ (t.port n).messages = rest ∧ t.memory = s.memory ∧ t.out = s.out
        ∧ t.linkStream? dport (m.getD 2 0)
            = some { t0 with ready := t0.ready ++ [(t0.expSeq, m.drop 16, [])], expSeq := t0.expSeq + 1 }) ∧
    (∀ (k : Nat) (e : BindEnd) (seq : Word), s.sendingTo b.number k = some (b, e) → b.send.live = true → e.attached = true →
      b.recvs = [e] → k = 0 → (e.acked - 1 - seq).toNat ≥ 2 ^ 31 → (b.nextSeq - (seq + 1)).toNat < 2 ^ 31 →
      s.binding? b.number = some b →
      ∃ t b', exec (.blockAck b.number 0 seq) s = .next t ∧ t.binding? b.number = some b'
        ∧ b'.recvs = [{ e with acked := seq + 1 }] ∧ b'.ended = false ∧ b'.nextSeq = b.nextSeq
        ∧ b'.store = b.store.filter (fun x => !{ e with acked := seq + 1 }.has x.1) ∧ t.out = s.out) ∧
    (∀ (k : Nat) (e : BindEnd) (seq : Word), s.sendingTo b.number k = some (b, e) →
      exec (.retransmitRequest b.number k seq) s = .next
        ((b.store.filter fun blk => decide ((blk.1 - seq).toNat < 2 ^ 31)).foldl (fun s blk => s.sendBlock b e blk) s)) ∧
    (∀ (n : Nat) (lsid : Byte) (e : BindEnd) (t0 : LinkStream) (block record : List Byte)
      (data records : List (Byte × List Byte)), s.domainOn (100 + n) = true → s.receiving n lsid = some (b, e) →
      s.linkStream? n lsid = some t0 → t0.lsid = lsid → t0.data = (t0.expTag, block) :: data →
      t0.records = (t0.expTag, record) :: records →
      ∃ t, exec (.pairMatch n lsid) s = .next t ∧ t.memory = s.memory
        ∧ t.linkStream? n lsid = some
            { t0 with data := data, records := records, ready := t0.ready ++ [(t0.expSeq, block, record)],
                      expTag := t0.expTag + 1, expSeq := t0.expSeq + 1, recovering := false, recoveries := 0 })

/-- R504, R522, R525, R550, R551, R555, R563 to R574, R582, R585: a minute counts and is checkpointed when due; the recorder writes its
oldest record; a failed entropy test and a release of reset start a cold boot; the supply comes and goes; a reset pulse of at
least 10 µs holds the device and a shorter one of 1 µs or more stops the model; a cold boot over a
good image brings the device to READY in Run without models, jobs, streams, keys or grants; a warm reset keeps memory and the
models; and a debug access in reach reads or writes its byte. -/
def Obligations.LifetimeAndResetEventsComplete : Prop :=
  ∀ (s : State),
    (s.started = true → s.bark.grants = [] →
      let m := satAdd s.recorder.minutes 1
      let due := ∀ c, s.flash.checkpoint = some c → c.2.toNat ≤ m.toNat
      ∃ t, exec .operatingMinute s = .next t ∧ t.recorder = { s.recorder with minutes := m }
        ∧ (due → t.flash = { s.flash with checkpoint := some (s.recorder.cycles, checkpointMinute m) })
        ∧ (¬ due → t.flash = s.flash) ∧ t.memory = s.memory ∧ t.sched = s.sched ∧ t.out = s.out) ∧
    (∀ b rest, s.started = true → s.domainOn 127 = true → s.recorder.lifetime.queue = b :: rest →
      s.recorder.lifetime.slots.length < lifetimeSlots →
      exec .recordWrite s = .next (s.mapRecorder fun r => { r with lifetime := { r.lifetime with
        queue := rest, slots := r.lifetime.slots ++ [b ++ leBytes 4 (crc32 b).toNat] } })) ∧
    (s.started = true → s.domainOn 113 = true →
      ∃ t, exec .entropyFailure s = .next t ∧ t.power.boot = .coldPending
        ∧ t.recorder = Recorder.drain (s.lifetime 0x0005 0xFF 0 0 []).recorder) ∧
    (s.power.boot = .noSupply →
      exec .vaonApplied s = .next (s.mapPower fun p => { p with boot := .coldPending })) ∧
    (s.power.boot = .heldInReset →
      exec .resetNRelease s = .next (s.mapPower fun p => { p with boot := .coldPending })) ∧
    (∃ t, exec (.vaonRemoved false) s = .next t ∧ t.power.boot = .noSupply ∧ t.out = s.out ++ [.railEn false]
      ∧ t.recorder.lifetime.queue = [] ∧ t.recorder.service.queue = []
      ∧ t.recorder.lifetime.slots = s.recorder.lifetime.slots ∧ t.flash = s.flash) ∧
    (∀ us : Nat, 10 ≤ us → s.power.boot ≠ .unpowered → s.power.boot ≠ .noSupply →
      exec (.resetNLow us) s = .next (s.mapPower fun p => { p with boot := .heldInReset, transition := none })) ∧
    (∀ us : Nat, 1 ≤ us → us < 10 → s.power.boot ≠ .unpowered → s.power.boot ≠ .noSupply →
      exec (.resetNLow us) s = .fault .undefinedResetPulse) ∧
    (∀ f : BootFindings, s.power.boot = .coldPending → s.flashFault = none →
      ∃ t, exec (.coldBoot f) s = .next t ∧ t.power.boot = .ready ∧ t.power.state = .run ∧ t.sched = .fresh
        ∧ t.audio = .fresh ∧ t.units = bootUnits f t.live.memLayout ∧ t.bark.modelKeys = [] ∧ t.bark.grants = []
        ∧ t.bark.runManifest = s.flash.manifest ∧ t.flash.image = s.flash.image) ∧
    (∀ (f : WarmFindings) (image : List Byte), s.power.boot = .warmPending → f.retentionOk = true → f.failedShuttles = [] →
      f.laneFailures = [] → (s.announceReset.warmState.restoreSettings).warmFailed f = [] → s.bark.imageCopy = some image →
      imageMatches s.bark.runManifest image = true →
      ∃ t, exec (.warmReset f) s = .next t ∧ t.power.boot = .ready ∧ t.power.state = .run ∧ t.power.transition = none
        ∧ t.memory.vault = s.memory.vault ∧ t.memory.ext = s.memory.ext ∧ t.sched.models = s.sched.models
        ∧ t.sched.jobs = [] ∧ t.sched.ctxs = [] ∧ t.audio.streams = [] ∧ t.bark.grants = [] ∧ t.links.bindings = []) ∧
    (∀ (a : DapAccess) (l : Loc), s.reach ≠ .z → tapReach s.reach a.target = none → s.dapReach a.target = true →
      s.dapLoc a.target = some l →
      (a.write = none → exec (.dapAccess a) s = .next { s with out := s.out ++ [.dap (some (s.readLoc l 1))] }) ∧
      (∀ b, a.write = some b →
        ∃ t, exec (.dapAccess a) s = .next t ∧ t.memory = (s.writeLoc l [b]).memory ∧ t.out = s.out ++ [.dap (some [])])) ∧
    (∀ a : DapAccess, s.reach ≠ .z → tapReach s.reach a.target = none → s.dapReach a.target = false →
      exec (.dapAccess a) s = .next { s with out := s.out ++ [.dap none] })

/-! ### The block as a whole -/

/-- A step runs the command at the front of the queue on the state with the queue's rest. On an empty queue it is the model's
choice (log 1, log 173): the host link sends what it holds, and the packets of the firmware queue that the Treadle can interpret
become the waiting commands, the firmware's in their order, a stream command before those it does not wait for; with none the block
idles. -/
def Obligations.StepRunsFrontCommand : Prop :=
  ∀ (s : State),
    (∀ (c : Instr) (rest : List Instr), s.pending = c :: rest → step s = exec c { s with pending := rest }) ∧
    (s.pending = [] →
      let u := s.linkDrain
      let waiting := u.proto.fwQueue.filter u.interprets
      (waiting = [] → step s = .next u) ∧
      (waiting ≠ [] → ∃ go : List Instr, go.Perm waiting
        ∧ go.filter (fun i => !streamPacket i) = waiting.filter (fun i => !streamPacket i)
        ∧ step s = .next { u with
            pending := go, proto := { u.proto with fwQueue := u.proto.fwQueue.filter fun i => !u.interprets i } }))

/-- R349 to R351, R374: the packet that R349 lays out for a command passes the packet checks, and reading it gives the command
back, with its header fields and parameters. -/
def Obligations.PacketRoundTrip : Prop :=
  ∀ (i : Instr) (op : Nat) (h : Hdr) (ps : List Byte),
    packetOf i = some (op, h, ps) → commandOk i = true → ps.length ≤ 8960 →
    let b := packetBytes op (if h.iface.master = .mgmt then 16 else 0) 0 h.seq h.device
      (BitVec.ofNat 8 h.iface.master.code) h.context h.hostTag ps
    b.length = 36 + ps.length ∧ rawHeaderOk b = true ∧ rawFault h.iface b = none ∧ rawInstr h.iface h.src b = some i

/-- Every step keeps the memories in their canonical form: addresses strictly rising, and no entry equal to what an unlisted
address reads as. -/
def Obligations.MemoryCanonicalKept : Prop :=
  ∀ (s s' : State), MemoryCanonical s → step s = .next s' → MemoryCanonical s'

/-- R33, R304, R352, R365, R377, R384, R456, R494, R515, R522, R570, R574: what reset leaves: no session, model, deck, job,
context, stream, ingress stream, binding, device number or grant; the retained fields of memory, scheduler, link, shares, ports, power and
the unused tables at their factory values; VCORE at 800 mV; and the memories in canonical form. That the device stands in Run, past its boot, is the model's choice of where to begin (log 2). -/
def Obligations.ResetValues : Prop :=
  let s := State.reset
  MemoryCanonical s ∧ s.pending = [] ∧ s.power.state = .run ∧ s.power.boot = .ready ∧ s.power.transition = none
    ∧ (∀ m : MasterId, (s.master m).session = false ∧ (s.master m).newest = none ∧ (s.master m).seen = []
        ∧ (s.master m).events = [] ∧ (s.master m).assemblies = [])
    ∧ s.sched.models = [] ∧ s.sched.decks = [] ∧ s.sched.jobs = [] ∧ s.sched.ctxs = [] ∧ s.sched.transfers = []
    ∧ s.audio.streams = [] ∧ s.audio.ingress = [] ∧ s.links.bindings = [] ∧ s.links.device = none ∧ s.memory.blocks = []
    ∧ (∀ p ∈ s.audio.ins ++ s.audio.outs, p.running = false) ∧ s.bark.grants = [] ∧ s.bark.rollback = []
    ∧ s.bark.modelKeys = [] ∧ s.bark.nextGrant = 1 ∧ s.power.vcoreMv = 800
    ∧ fld s.live.memLayout 35 28 = 32 ∧ fld s.live.memLayout 27 24 = 0 ∧ s.live.memLayout.getLsbD 19 = false
    ∧ fld s.live.memLayout 3 0 = 3
    ∧ s.live.ceiling = 560 ∧ fld s.live.schedConfig 47 40 = 8 ∧ fld s.live.schedConfig 31 16 = 256
    ∧ fld s.live.schedConfig 11 0 = 240 ∧ fld s.live.voltagePolicy 63 54 = 800 ∧ fld s.live.voltagePolicy 53 44 = 800
    ∧ fld s.live.voltagePolicy 43 42 = 0 ∧ fld s.live.netConfig 63 48 = 41730 ∧ fld s.live.netConfig 47 34 = 1500
    ∧ s.live.netAddr = zeros 64 ∧ s.live.shares = List.replicate 256 (0, 4096)
    ∧ (∀ r ∈ s.live.reedIn ++ s.live.reedOut, fld r 39 32 = 0 ∧ fld r 27 24 = 2 ∧ fld r 23 21 = 0 ∧ r.getLsbD 20 = true
        ∧ r.getLsbD 19 = true)
    ∧ s.live.table1 = List.replicate 4 (zeros 8) ∧ (∀ e ∈ s.live.table4, e.all (· == 0) = true)

/-- R353, R355, R372: a command whose SEQUENCE was seen is not run again: it is answered by the stored reply with REPEAT 1, to the
sender's address, or only counted in DUPLICATES while the reply is pending; a stale one that is no HELLO is only counted in STALE, and
ends the assembly that it matches. -/
def Obligations.DuplicatesNeverRunAgain : Prop :=
  ∀ (s : State) (i : Instr) (op : Nat) (h : Hdr) (ps : List Byte), packetOf i = some (op, h, ps) →
    s.power.boot = .ready → s.listens h.iface = true → (h.iface = .wakeBus → s.busWakes = false) → s.gate op h ps = .run →
    (h.iface = .hostLink → s.links.device = none ∨ s.links.isRoot = true) → s.verdict op h = .execute →
    s.isHeld h = false →
    let ms := s.master h.iface.master
    let stored := (ms.seen.find? fun e => e.seq == h.seq).bind (·.reply)
    (ms.classify h.seq = .duplicate →
      (∀ p : OutPacket, stored = some p →
        exec i s = .next (s.sendPacket { p with rep := true, iface := h.iface, dest := h.src })) ∧
      (stored = none → exec i s = .next (s.mapMaster h.iface.master fun ms =>
        { ms with duplicates := satAdd ms.duplicates 1 }))) ∧
    (op ≠ 1 → ms.classify h.seq = .stale → exec i s = .next ((s.endAssembly op h).mapMaster h.iface.master fun ms =>
      { ms with stale := satAdd ms.stale 1 }))

/-- R374 to R376, R383, R390, R392, R393, R401, R411, R413, R417, R418, R420, R422, R423, R426, R431, R432, R436, R438: a command
that reads, in whatever form, answers with whatever status and leaves all but the protocol's record, what leaves the device
and the links that may carry its reply. -/
def Obligations.ReadCommandsChangeNothing : Prop :=
  ∀ (s : State) (h : Hdr) (ps : List Byte) (op : Nat) (i : Instr),
    (op, i) ∈ [(0x0002, Instr.identify h ps), (0x0003, .ping h ps), (0x0004, .status h ps), (0x0105, .memRead h ps),
      (0x0203, .jobStatus h ps), (0x0206, .sharesReadClient h ps), (0x0206, .schedConfigRead h ps),
      (0x0307, .streamStatus h ps), (0x0401, .portConfigRead h ps), (0x0404, .portStatus h ps), (0x0504, .cardStats h ps),
      (0x0601, .powerStateRead h ps), (0x0602, .domainCtrlRead h ps), (0x0604, .voltagePolicyRead h ps),
      (0x0605, .powerCeilingRead h ps), (0x0703, .lifecycleRead h ps), (0x0704, .fwInstallRead h ps),
      (0x0901, .ringInfo h ps), (0x0902, .ringRead h ps), (0x0A02, .tableRead h ps), (0x0A04, .settingsRead h ps)] →
    Takes s op h ps → commandOk i = true →
    ∃ t, exec i s = .next t ∧ t.memory = s.memory ∧ t.sched = s.sched ∧ t.audio = s.audio ∧ t.power = s.power ∧ t.bark = s.bark
      ∧ t.flash = s.flash ∧ t.live = s.live ∧ t.units = s.units ∧ t.recorder = s.recorder ∧ t.net = s.net ∧ t.pace = s.pace
      ∧ t.pending = s.pending ∧ t.free = s.free ∧ (h.iface ≠ .selvage → t.links = s.links)
      ∧ (t.master h.iface.master.other) = s.master h.iface.master.other

/-- R91, R97, R118: a card changes the results of no context but its own. Where its job goes on, every other context keeps its
architectural state, scratch, stripe buffer, knot and place, every other job is as it was, no transfer is dropped, and nothing
changes in memory but the trace of R427, nor in streams, links, power, flash, retained fields, units, the recorder, the
host link, the pace counters, the protocol or the output. -/
def Obligations.CardsChangeOnlyTheirContext : Prop :=
  ∀ (s : State) (loom slot : Nat) (e : Engine) (c : Ctx) (card : Card) (i : Instr) (t : State),
    Chooses s loom slot e c card →
    (i, e, opOf card) ∈ [(Instr.load loom slot, Engine.fetch, 0x01), (.store loom slot, .fetch, 0x02),
      (.loadC loom slot, .fetch, 0x03), (.storeC loom slot, .fetch, 0x04), (.wait loom slot e, e, 0x08),
      (.signal loom slot e, e, 0x09), (.loop loom slot e, e, 0x0B), (.endLoop loom slot e, e, 0x0C),
      (.mma loom slot, .execute, 0x10), (.mmaG loom slot, .execute, 0x11), (.vop loom slot, .execute, 0x18),
      (.curve loom slot, .execute, 0x19), (.reduce loom slot, .execute, 0x1A), (.norm loom slot, .execute, 0x1B),
      (.scan loom slot, .execute, 0x20), (.conv loom slot, .execute, 0x28), (.widen loom slot, .execute, 0x32),
      (if fld card 65 63 = 0 then .grainKeyLoad loom slot else .grainFill loom slot, .execute, 0x38),
      (.gsample loom slot, .execute, 0x39)] →
    exec i s = .next t → (∃ j, t.job? c.job = some j ∧ j.stopping = false) →
    (∀ (job : Word) (p : Nat) (c2 : Ctx), (job, p) ≠ (c.job, c.position) → s.ctx? job p = some c2 →
      ∃ c3, t.ctx? job p = some c3 ∧ c3.arch = c2.arch ∧ c3.scratch = c2.scratch ∧ c3.stripe = c2.stripe ∧ c3.knot = c2.knot
        ∧ c3.place = c2.place ∧ c3.ways = c2.ways ∧ c3.units = c2.units) ∧
    (∀ id : Word, id ≠ c.job → t.job? id = s.job? id) ∧ (∀ x ∈ s.sched.transfers, x ∈ t.sched.transfers) ∧
    t.memory = (issued s loom slot e c card).memory ∧ t.bark = (issued s loom slot e c card).bark ∧ t.audio = s.audio
      ∧ t.links = s.links ∧ t.power = s.power ∧ t.flash = s.flash ∧ t.live = s.live ∧ t.units = s.units
      ∧ t.recorder = s.recorder ∧ t.net = s.net ∧ t.pace = s.pace ∧ t.proto = s.proto ∧ t.out = s.out ∧ t.free = s.free

/-- R98, R119, R124, R389, R390: an execute card of which an extent leaves the range, or that writes a line it reads, stops
its job: with no transfer outstanding the job ends at once with BAD_PARAM, its contexts go, and it keeps the position, the engine
and the card for JOB_STATUS. -/
def Obligations.ExecuteCardStops : Prop :=
  ∀ (s : State) (loom slot : Nat) (c : Ctx) (card : Card) (j : Job) (i : Instr),
    Chooses s loom slot .execute c card →
    (i, opOf card) ∈ [(Instr.mma loom slot, 0x10), (.mmaG loom slot, 0x11), (.vop loom slot, 0x18), (.curve loom slot, 0x19),
      (.reduce loom slot, 0x1A), (.norm loom slot, 0x1B), (.scan loom slot, 0x20), (.conv loom slot, 0x28),
      (.widen loom slot, 0x32), (if fld card 65 63 = 0 then .grainKeyLoad loom slot else .grainFill loom slot, 0x38),
      (.gsample loom slot, 0x39)] →
    (issued s loom slot .execute c card).extentsOk c .execute card = false →
    s.job? c.job = some j → j.kind = .plain → j.phrase = none →
    (∀ x ∈ s.sched.transfers, x.job = c.job → x.outstanding = false) →
    ∃ t j', exec i s = .next t ∧ t.job? c.job = some j' ∧ j'.ready = true ∧ j'.endStatus = .badParam ∧ j'.result = []
      ∧ j'.faultPos = BitVec.ofNat 16 c.position ∧ j'.faultEngine = 1
      ∧ j'.faultCard = BitVec.ofNat 64 c.arch.execute.card ∧ ∀ p, t.ctx? c.job p = none

/-- R141, R160: the waves of VOP, CURVE, REDUCE, NORM and SCAN. -/
def Obligations.CardCosts : Prop :=
  ∀ (t1 : List (List Byte)) (h aix : Nat) (card : Card), 1 ≤ h →
    let passes := fun (rows len : Nat) => ceilDiv (rows * len) (32 * h)
    (opOf card = 0x18 → fld card 25 20 = 3 ∨ fld card 25 20 = 9 →
      cardWaves t1 h aix card = 8 + 4 * passes (fld card 51 40 + 1) (fld card 39 26 + 1)) ∧
    (opOf card = 0x18 → fld card 25 20 ≠ 3 → fld card 25 20 ≠ 9 →
      cardWaves t1 h aix card = 8 + passes (fld card 51 40 + 1) (fld card 39 26 + 1)) ∧
    (opOf card = 0x19 → cardWaves t1 h aix card = 8 + 2 * passes (fld card 71 60 + 1) (fld card 59 46 + 1)) ∧
    (opOf card = 0x1A →
      cardWaves t1 h aix card = 12 + passes (fld card 71 60 + 1) (fld card 59 46 + 1) + (fld card 71 60 + 1)) ∧
    (opOf card = 0x1B →
      cardWaves t1 h aix card = 16 + 3 * passes (fld card 51 40 + 1) (fld card 39 26 + 1) + 2 * (fld card 51 40 + 1)) ∧
    (opOf card = 0x20 →
      cardWaves t1 h aix card = 24 + 2 * ceilDiv (fld card 31 22 + 1) 64 * ceilDiv (fld card 21 12 + 1) 16
        ∧ (∀ h' aix' : Nat, cardWaves t1 h' aix' card = cardWaves t1 h aix card)
        ∧ cardWaves t1 h aix card ≤ 2072
        ∧ (fld card 31 22 = 1023 → fld card 21 12 = 1023 → cardWaves t1 h aix card = 2072))

/-- R385: DECK_UNLOAD names a loaded deck in CONTEXT; it answers BUSY, and unloads nothing, exactly while a job of the deck is
Not ready or an open stream names the deck; otherwise it unloads it. -/
def Obligations.DeckUnloadBusy : Prop :=
  ∀ (s : State) (h : Hdr), Takes s 0x0107 h [] → (s.deck? h.context.toNat).isSome = true →
    let used := (∃ j ∈ s.sched.jobs, j.deck = h.context.toNat ∧ j.ready = false) ∨
      ∃ t ∈ s.audio.streams, t.deck = h.context.toNat
    (used → exec (.deckUnload h []) s = .next (answered 0x0107 h (accepted s h) .busy h.context false [])) ∧
    (¬ used → ∃ t, exec (.deckUnload h []) s = .next t ∧ t.deck? h.context.toNat = none)

/-- R482: WAKE held for at least 100 µs is a wake event in Sleep, Deep sleep and Off; a shorter pulse is ignored; in Run and
Idle it is ignored. The states are those of a device past its boot, and, in Off, of one that waits for its wake. -/
def Obligations.WakePinWakes : Prop :=
  ∀ (s : State) (heldUs : Nat),
    (heldUs < 100 → exec (.wakePin heldUs) s = .next s) ∧
    (s.power.transition = none → s.power.state = .run ∨ s.power.state = .idle → exec (.wakePin heldUs) s = .next s) ∧
    (100 ≤ heldUs → s.power.transition = none → s.power.state = .sleep ∨ s.power.state = .deepSleep →
      s.power.boot = .ready → exec (.wakePin heldUs) s = .next (s.wake 2)) ∧
    (100 ≤ heldUs → s.power.transition = none → s.power.state = .off → s.power.boot = .unpowered →
      exec (.wakePin heldUs) s = .next (s.mapPower fun p => { p with boot := .coldPending }))
end

