-- ==== Sys2Proof/Laws/Objects.lean ====
section
/-!
SUPPORT. The named objects of the state: what finding one gives after one was changed.
-/
namespace Sys2Proof.Machine

open Sys2Proof

/-! ### Lists with keys -/

/-- Changing the first element of a kind, by a change that leaves the kind, changes what is found of it. -/
theorem find?_modifyFirst_same {α : Type} {p : α → Bool} {f : α → α} (h : ∀ x, p (f x) = p x) (l : List α) :
    (modifyFirst l p f).find? p = (l.find? p).map f := by
  induction l with
  | nil => rfl
  | cons x l ih =>
    by_cases hx : p x = true
    · simp [modifyFirst, hx, h x]
    · simp [modifyFirst, hx, ih]

/-- A change of the first element of one kind, which leaves another kind, changes nothing that is found of the other, where no
element is of both. -/
theorem find?_modifyFirst_other {α : Type} {p q : α → Bool} {f : α → α} (h : ∀ x, p x = true → q x = false ∧ q (f x) = false)
    (l : List α) : (modifyFirst l p f).find? q = l.find? q := by
  induction l with
  | nil => rfl
  | cons x l ih =>
    by_cases hx : p x = true
    · simp [modifyFirst, hx, h x hx]
    · by_cases hq : q x = true <;> simp [modifyFirst, hx, hq, ih]

/-- A change of a first element keeps the number of elements. -/
@[simp] theorem length_modifyFirst {α : Type} (l : List α) (p : α → Bool) (f : α → α) :
    (modifyFirst l p f).length = l.length := by
  induction l with
  | nil => rfl
  | cons x l ih => by_cases hx : p x = true <;> simp [modifyFirst, hx, ih]

/-! ### Jobs -/

/-- A found job has the id that was asked for. -/
theorem State.job?_id {s : State} {id : Word} {j : Job} (h : s.job? id = some j) : j.id = id := by
  simpa using List.find?_some h

/-- A changed job is found changed. -/
theorem State.job?_mapJob (s : State) (id : Word) {f : Job → Job} (h : ∀ j, (f j).id = j.id) :
    (s.mapJob id f).job? id = (s.job? id).map f :=
  find?_modifyFirst_same (fun j => by simp [h]) _

/-- Another job is found as it was. -/
theorem State.job?_mapJob_of_ne (s : State) {id k : Word} {f : Job → Job} (h : ∀ j, (f j).id = j.id) (ne : k ≠ id) :
    (s.mapJob id f).job? k = s.job? k :=
  find?_modifyFirst_other (fun j hj => by
    have : j.id = id := by simpa using hj
    simp [h, this, ne.symm]) _

/-! ### Contexts -/

/-- A found context is of the job and position that were asked for. -/
theorem State.ctx?_key {s : State} {job : Word} {pos : Nat} {c : Ctx} (h : s.ctx? job pos = some c) :
    c.job = job ∧ c.position = pos := by simpa using List.find?_some h

/-- A changed context is found changed. -/
theorem State.ctx?_mapCtx (s : State) (job : Word) (pos : Nat) {f : Ctx → Ctx}
    (h : ∀ c, (f c).job = c.job ∧ (f c).position = c.position) :
    (s.mapCtx job pos f).ctx? job pos = (s.ctx? job pos).map f :=
  find?_modifyFirst_same (fun c => by simp [h]) _

/-- Another context is found as it was. -/
theorem State.ctx?_mapCtx_of_ne (s : State) {job k : Word} {pos p : Nat} {f : Ctx → Ctx}
    (h : ∀ c, (f c).job = c.job ∧ (f c).position = c.position) (ne : (k, p) ≠ (job, pos)) :
    (s.mapCtx job pos f).ctx? k p = s.ctx? k p :=
  find?_modifyFirst_other (fun c hc => by
    have hk : c.job = job ∧ c.position = pos := by simpa using hc
    have : ¬ (job = k ∧ pos = p) := fun e => ne (by simp [e.1, e.2])
    simp [h, hk.1, hk.2]
    tauto) _

@[simp] theorem State.job?_mapCtx (s : State) (job k : Word) (pos : Nat) (f : Ctx → Ctx) :
    (s.mapCtx job pos f).job? k = s.job? k := rfl
@[simp] theorem State.ctx?_mapJob (s : State) (id job : Word) (pos : Nat) (f : Job → Job) :
    (s.mapJob id f).ctx? job pos = s.ctx? job pos := rfl

/-! ### Streams, ingress streams and models -/

/-- A found stream has the id that was asked for. -/
theorem State.stream?_id {s : State} {id : Word} {t : Stream} (h : s.stream? id = some t) : t.id = id := by
  simpa using List.find?_some h

/-- A changed stream is found changed. -/
theorem State.stream?_mapStream (s : State) (id : Word) {f : Stream → Stream} (h : ∀ t, (f t).id = t.id) :
    (s.mapStream id f).stream? id = (s.stream? id).map f :=
  find?_modifyFirst_same (fun t => by simp [h]) _

/-- Another stream is found as it was. -/
theorem State.stream?_mapStream_of_ne (s : State) {id k : Word} {f : Stream → Stream} (h : ∀ t, (f t).id = t.id)
    (ne : k ≠ id) : (s.mapStream id f).stream? k = s.stream? k :=
  find?_modifyFirst_other (fun t ht => by
    have : t.id = id := by simpa using ht
    simp [h, this, ne.symm]) _

/-- A changed ingress stream is found changed. -/
theorem State.ingress?_mapIngress (s : State) (id : Word) {f : Ingress → Ingress} (h : ∀ g, (f g).id = g.id) :
    (s.mapIngress id f).ingress? id = (s.ingress? id).map f :=
  find?_modifyFirst_same (fun g => by simp [h]) _

/-- A changed model is found changed. -/
theorem State.model?_mapModel (s : State) (id : Word) {f : Model → Model} (h : ∀ m, (f m).id = m.id) :
    (s.mapModel id f).model? id = (s.model? id).map f :=
  find?_modifyFirst_same (fun m => by simp [h]) _

end Sys2Proof.Machine
end

