-- ==== Sys2Proof/Laws/State.lean ====
section
/-!
SUPPORT. One lemma for each field of `State` and each update: what the update makes of the field.
-/
namespace Sys2Proof.Machine

open Sys2Proof

/-! ### mapVault -/

@[simp] theorem State.mapVault_pending (s : State) (f : Mem → Mem) : (s.mapVault f).pending = s.pending := rfl
@[simp] theorem State.mapVault_out (s : State) (f : Mem → Mem) : (s.mapVault f).out = s.out := rfl
@[simp] theorem State.mapVault_free (s : State) (f : Mem → Mem) : (s.mapVault f).free = s.free := rfl
@[simp] theorem State.mapVault_proto (s : State) (f : Mem → Mem) : (s.mapVault f).proto = s.proto := rfl
@[simp] theorem State.mapVault_live (s : State) (f : Mem → Mem) : (s.mapVault f).live = s.live := rfl
@[simp] theorem State.mapVault_flash (s : State) (f : Mem → Mem) : (s.mapVault f).flash = s.flash := rfl
@[simp] theorem State.mapVault_memory (s : State) (f : Mem → Mem) : (s.mapVault f).memory = { s.memory with vault := f s.memory.vault } := rfl
@[simp] theorem State.mapVault_units (s : State) (f : Mem → Mem) : (s.mapVault f).units = s.units := rfl
@[simp] theorem State.mapVault_sched (s : State) (f : Mem → Mem) : (s.mapVault f).sched = s.sched := rfl
@[simp] theorem State.mapVault_audio (s : State) (f : Mem → Mem) : (s.mapVault f).audio = s.audio := rfl
@[simp] theorem State.mapVault_links (s : State) (f : Mem → Mem) : (s.mapVault f).links = s.links := rfl
@[simp] theorem State.mapVault_net (s : State) (f : Mem → Mem) : (s.mapVault f).net = s.net := rfl
@[simp] theorem State.mapVault_power (s : State) (f : Mem → Mem) : (s.mapVault f).power = s.power := rfl
@[simp] theorem State.mapVault_bark (s : State) (f : Mem → Mem) : (s.mapVault f).bark = s.bark := rfl
@[simp] theorem State.mapVault_recorder (s : State) (f : Mem → Mem) : (s.mapVault f).recorder = s.recorder := rfl
@[simp] theorem State.mapVault_pace (s : State) (f : Mem → Mem) : (s.mapVault f).pace = s.pace := rfl

/-! ### mapExt -/

@[simp] theorem State.mapExt_pending (s : State) (f : Mem → Mem) : (s.mapExt f).pending = s.pending := rfl
@[simp] theorem State.mapExt_out (s : State) (f : Mem → Mem) : (s.mapExt f).out = s.out := rfl
@[simp] theorem State.mapExt_free (s : State) (f : Mem → Mem) : (s.mapExt f).free = s.free := rfl
@[simp] theorem State.mapExt_proto (s : State) (f : Mem → Mem) : (s.mapExt f).proto = s.proto := rfl
@[simp] theorem State.mapExt_live (s : State) (f : Mem → Mem) : (s.mapExt f).live = s.live := rfl
@[simp] theorem State.mapExt_flash (s : State) (f : Mem → Mem) : (s.mapExt f).flash = s.flash := rfl
@[simp] theorem State.mapExt_memory (s : State) (f : Mem → Mem) : (s.mapExt f).memory = { s.memory with ext := f s.memory.ext } := rfl
@[simp] theorem State.mapExt_units (s : State) (f : Mem → Mem) : (s.mapExt f).units = s.units := rfl
@[simp] theorem State.mapExt_sched (s : State) (f : Mem → Mem) : (s.mapExt f).sched = s.sched := rfl
@[simp] theorem State.mapExt_audio (s : State) (f : Mem → Mem) : (s.mapExt f).audio = s.audio := rfl
@[simp] theorem State.mapExt_links (s : State) (f : Mem → Mem) : (s.mapExt f).links = s.links := rfl
@[simp] theorem State.mapExt_net (s : State) (f : Mem → Mem) : (s.mapExt f).net = s.net := rfl
@[simp] theorem State.mapExt_power (s : State) (f : Mem → Mem) : (s.mapExt f).power = s.power := rfl
@[simp] theorem State.mapExt_bark (s : State) (f : Mem → Mem) : (s.mapExt f).bark = s.bark := rfl
@[simp] theorem State.mapExt_recorder (s : State) (f : Mem → Mem) : (s.mapExt f).recorder = s.recorder := rfl
@[simp] theorem State.mapExt_pace (s : State) (f : Mem → Mem) : (s.mapExt f).pace = s.pace := rfl

/-! ### emit -/

@[simp] theorem State.emit_pending (s : State) (o : Output) : (s.emit o).pending = s.pending := rfl
@[simp] theorem State.emit_out (s : State) (o : Output) : (s.emit o).out = s.out ++ [o] := rfl
@[simp] theorem State.emit_free (s : State) (o : Output) : (s.emit o).free = s.free := rfl
@[simp] theorem State.emit_proto (s : State) (o : Output) : (s.emit o).proto = s.proto := rfl
@[simp] theorem State.emit_live (s : State) (o : Output) : (s.emit o).live = s.live := rfl
@[simp] theorem State.emit_flash (s : State) (o : Output) : (s.emit o).flash = s.flash := rfl
@[simp] theorem State.emit_memory (s : State) (o : Output) : (s.emit o).memory = s.memory := rfl
@[simp] theorem State.emit_units (s : State) (o : Output) : (s.emit o).units = s.units := rfl
@[simp] theorem State.emit_sched (s : State) (o : Output) : (s.emit o).sched = s.sched := rfl
@[simp] theorem State.emit_audio (s : State) (o : Output) : (s.emit o).audio = s.audio := rfl
@[simp] theorem State.emit_links (s : State) (o : Output) : (s.emit o).links = s.links := rfl
@[simp] theorem State.emit_net (s : State) (o : Output) : (s.emit o).net = s.net := rfl
@[simp] theorem State.emit_power (s : State) (o : Output) : (s.emit o).power = s.power := rfl
@[simp] theorem State.emit_bark (s : State) (o : Output) : (s.emit o).bark = s.bark := rfl
@[simp] theorem State.emit_recorder (s : State) (o : Output) : (s.emit o).recorder = s.recorder := rfl
@[simp] theorem State.emit_pace (s : State) (o : Output) : (s.emit o).pace = s.pace := rfl

/-! ### emitAll -/

@[simp] theorem State.emitAll_pending (s : State) (os : List Output) : (s.emitAll os).pending = s.pending := rfl
@[simp] theorem State.emitAll_out (s : State) (os : List Output) : (s.emitAll os).out = s.out ++ os := rfl
@[simp] theorem State.emitAll_free (s : State) (os : List Output) : (s.emitAll os).free = s.free := rfl
@[simp] theorem State.emitAll_proto (s : State) (os : List Output) : (s.emitAll os).proto = s.proto := rfl
@[simp] theorem State.emitAll_live (s : State) (os : List Output) : (s.emitAll os).live = s.live := rfl
@[simp] theorem State.emitAll_flash (s : State) (os : List Output) : (s.emitAll os).flash = s.flash := rfl
@[simp] theorem State.emitAll_memory (s : State) (os : List Output) : (s.emitAll os).memory = s.memory := rfl
@[simp] theorem State.emitAll_units (s : State) (os : List Output) : (s.emitAll os).units = s.units := rfl
@[simp] theorem State.emitAll_sched (s : State) (os : List Output) : (s.emitAll os).sched = s.sched := rfl
@[simp] theorem State.emitAll_audio (s : State) (os : List Output) : (s.emitAll os).audio = s.audio := rfl
@[simp] theorem State.emitAll_links (s : State) (os : List Output) : (s.emitAll os).links = s.links := rfl
@[simp] theorem State.emitAll_net (s : State) (os : List Output) : (s.emitAll os).net = s.net := rfl
@[simp] theorem State.emitAll_power (s : State) (os : List Output) : (s.emitAll os).power = s.power := rfl
@[simp] theorem State.emitAll_bark (s : State) (os : List Output) : (s.emitAll os).bark = s.bark := rfl
@[simp] theorem State.emitAll_recorder (s : State) (os : List Output) : (s.emitAll os).recorder = s.recorder := rfl
@[simp] theorem State.emitAll_pace (s : State) (os : List Output) : (s.emitAll os).pace = s.pace := rfl

/-! ### mapJob -/

@[simp] theorem State.mapJob_pending (s : State) (i : Word) (f : Job → Job) : (s.mapJob i f).pending = s.pending := rfl
@[simp] theorem State.mapJob_out (s : State) (i : Word) (f : Job → Job) : (s.mapJob i f).out = s.out := rfl
@[simp] theorem State.mapJob_free (s : State) (i : Word) (f : Job → Job) : (s.mapJob i f).free = s.free := rfl
@[simp] theorem State.mapJob_proto (s : State) (i : Word) (f : Job → Job) : (s.mapJob i f).proto = s.proto := rfl
@[simp] theorem State.mapJob_live (s : State) (i : Word) (f : Job → Job) : (s.mapJob i f).live = s.live := rfl
@[simp] theorem State.mapJob_flash (s : State) (i : Word) (f : Job → Job) : (s.mapJob i f).flash = s.flash := rfl
@[simp] theorem State.mapJob_memory (s : State) (i : Word) (f : Job → Job) : (s.mapJob i f).memory = s.memory := rfl
@[simp] theorem State.mapJob_units (s : State) (i : Word) (f : Job → Job) : (s.mapJob i f).units = s.units := rfl
@[simp] theorem State.mapJob_sched (s : State) (i : Word) (f : Job → Job) : (s.mapJob i f).sched = { s.sched with jobs := modifyFirst s.sched.jobs (fun j => j.id == i) f } := rfl
@[simp] theorem State.mapJob_audio (s : State) (i : Word) (f : Job → Job) : (s.mapJob i f).audio = s.audio := rfl
@[simp] theorem State.mapJob_links (s : State) (i : Word) (f : Job → Job) : (s.mapJob i f).links = s.links := rfl
@[simp] theorem State.mapJob_net (s : State) (i : Word) (f : Job → Job) : (s.mapJob i f).net = s.net := rfl
@[simp] theorem State.mapJob_power (s : State) (i : Word) (f : Job → Job) : (s.mapJob i f).power = s.power := rfl
@[simp] theorem State.mapJob_bark (s : State) (i : Word) (f : Job → Job) : (s.mapJob i f).bark = s.bark := rfl
@[simp] theorem State.mapJob_recorder (s : State) (i : Word) (f : Job → Job) : (s.mapJob i f).recorder = s.recorder := rfl
@[simp] theorem State.mapJob_pace (s : State) (i : Word) (f : Job → Job) : (s.mapJob i f).pace = s.pace := rfl

/-! ### mapStream -/

@[simp] theorem State.mapStream_pending (s : State) (i : Word) (f : Stream → Stream) : (s.mapStream i f).pending = s.pending := rfl
@[simp] theorem State.mapStream_out (s : State) (i : Word) (f : Stream → Stream) : (s.mapStream i f).out = s.out := rfl
@[simp] theorem State.mapStream_free (s : State) (i : Word) (f : Stream → Stream) : (s.mapStream i f).free = s.free := rfl
@[simp] theorem State.mapStream_proto (s : State) (i : Word) (f : Stream → Stream) : (s.mapStream i f).proto = s.proto := rfl
@[simp] theorem State.mapStream_live (s : State) (i : Word) (f : Stream → Stream) : (s.mapStream i f).live = s.live := rfl
@[simp] theorem State.mapStream_flash (s : State) (i : Word) (f : Stream → Stream) : (s.mapStream i f).flash = s.flash := rfl
@[simp] theorem State.mapStream_memory (s : State) (i : Word) (f : Stream → Stream) : (s.mapStream i f).memory = s.memory := rfl
@[simp] theorem State.mapStream_units (s : State) (i : Word) (f : Stream → Stream) : (s.mapStream i f).units = s.units := rfl
@[simp] theorem State.mapStream_sched (s : State) (i : Word) (f : Stream → Stream) : (s.mapStream i f).sched = s.sched := rfl
@[simp] theorem State.mapStream_audio (s : State) (i : Word) (f : Stream → Stream) : (s.mapStream i f).audio = { s.audio with streams := modifyFirst s.audio.streams (fun t => t.id == i) f } := rfl
@[simp] theorem State.mapStream_links (s : State) (i : Word) (f : Stream → Stream) : (s.mapStream i f).links = s.links := rfl
@[simp] theorem State.mapStream_net (s : State) (i : Word) (f : Stream → Stream) : (s.mapStream i f).net = s.net := rfl
@[simp] theorem State.mapStream_power (s : State) (i : Word) (f : Stream → Stream) : (s.mapStream i f).power = s.power := rfl
@[simp] theorem State.mapStream_bark (s : State) (i : Word) (f : Stream → Stream) : (s.mapStream i f).bark = s.bark := rfl
@[simp] theorem State.mapStream_recorder (s : State) (i : Word) (f : Stream → Stream) : (s.mapStream i f).recorder = s.recorder := rfl
@[simp] theorem State.mapStream_pace (s : State) (i : Word) (f : Stream → Stream) : (s.mapStream i f).pace = s.pace := rfl

/-! ### mapIngress -/

@[simp] theorem State.mapIngress_pending (s : State) (i : Word) (f : Ingress → Ingress) : (s.mapIngress i f).pending = s.pending := rfl
@[simp] theorem State.mapIngress_out (s : State) (i : Word) (f : Ingress → Ingress) : (s.mapIngress i f).out = s.out := rfl
@[simp] theorem State.mapIngress_free (s : State) (i : Word) (f : Ingress → Ingress) : (s.mapIngress i f).free = s.free := rfl
@[simp] theorem State.mapIngress_proto (s : State) (i : Word) (f : Ingress → Ingress) : (s.mapIngress i f).proto = s.proto := rfl
@[simp] theorem State.mapIngress_live (s : State) (i : Word) (f : Ingress → Ingress) : (s.mapIngress i f).live = s.live := rfl
@[simp] theorem State.mapIngress_flash (s : State) (i : Word) (f : Ingress → Ingress) : (s.mapIngress i f).flash = s.flash := rfl
@[simp] theorem State.mapIngress_memory (s : State) (i : Word) (f : Ingress → Ingress) : (s.mapIngress i f).memory = s.memory := rfl
@[simp] theorem State.mapIngress_units (s : State) (i : Word) (f : Ingress → Ingress) : (s.mapIngress i f).units = s.units := rfl
@[simp] theorem State.mapIngress_sched (s : State) (i : Word) (f : Ingress → Ingress) : (s.mapIngress i f).sched = s.sched := rfl
@[simp] theorem State.mapIngress_audio (s : State) (i : Word) (f : Ingress → Ingress) : (s.mapIngress i f).audio = { s.audio with ingress := modifyFirst s.audio.ingress (fun t => t.id == i) f } := rfl
@[simp] theorem State.mapIngress_links (s : State) (i : Word) (f : Ingress → Ingress) : (s.mapIngress i f).links = s.links := rfl
@[simp] theorem State.mapIngress_net (s : State) (i : Word) (f : Ingress → Ingress) : (s.mapIngress i f).net = s.net := rfl
@[simp] theorem State.mapIngress_power (s : State) (i : Word) (f : Ingress → Ingress) : (s.mapIngress i f).power = s.power := rfl
@[simp] theorem State.mapIngress_bark (s : State) (i : Word) (f : Ingress → Ingress) : (s.mapIngress i f).bark = s.bark := rfl
@[simp] theorem State.mapIngress_recorder (s : State) (i : Word) (f : Ingress → Ingress) : (s.mapIngress i f).recorder = s.recorder := rfl
@[simp] theorem State.mapIngress_pace (s : State) (i : Word) (f : Ingress → Ingress) : (s.mapIngress i f).pace = s.pace := rfl

/-! ### mapModel -/

@[simp] theorem State.mapModel_pending (s : State) (i : Word) (f : Model → Model) : (s.mapModel i f).pending = s.pending := rfl
@[simp] theorem State.mapModel_out (s : State) (i : Word) (f : Model → Model) : (s.mapModel i f).out = s.out := rfl
@[simp] theorem State.mapModel_free (s : State) (i : Word) (f : Model → Model) : (s.mapModel i f).free = s.free := rfl
@[simp] theorem State.mapModel_proto (s : State) (i : Word) (f : Model → Model) : (s.mapModel i f).proto = s.proto := rfl
@[simp] theorem State.mapModel_live (s : State) (i : Word) (f : Model → Model) : (s.mapModel i f).live = s.live := rfl
@[simp] theorem State.mapModel_flash (s : State) (i : Word) (f : Model → Model) : (s.mapModel i f).flash = s.flash := rfl
@[simp] theorem State.mapModel_memory (s : State) (i : Word) (f : Model → Model) : (s.mapModel i f).memory = s.memory := rfl
@[simp] theorem State.mapModel_units (s : State) (i : Word) (f : Model → Model) : (s.mapModel i f).units = s.units := rfl
@[simp] theorem State.mapModel_sched (s : State) (i : Word) (f : Model → Model) : (s.mapModel i f).sched = { s.sched with models := modifyFirst s.sched.models (fun t => t.id == i) f } := rfl
@[simp] theorem State.mapModel_audio (s : State) (i : Word) (f : Model → Model) : (s.mapModel i f).audio = s.audio := rfl
@[simp] theorem State.mapModel_links (s : State) (i : Word) (f : Model → Model) : (s.mapModel i f).links = s.links := rfl
@[simp] theorem State.mapModel_net (s : State) (i : Word) (f : Model → Model) : (s.mapModel i f).net = s.net := rfl
@[simp] theorem State.mapModel_power (s : State) (i : Word) (f : Model → Model) : (s.mapModel i f).power = s.power := rfl
@[simp] theorem State.mapModel_bark (s : State) (i : Word) (f : Model → Model) : (s.mapModel i f).bark = s.bark := rfl
@[simp] theorem State.mapModel_recorder (s : State) (i : Word) (f : Model → Model) : (s.mapModel i f).recorder = s.recorder := rfl
@[simp] theorem State.mapModel_pace (s : State) (i : Word) (f : Model → Model) : (s.mapModel i f).pace = s.pace := rfl

/-! ### mapCtx -/

@[simp] theorem State.mapCtx_pending (s : State) (i : Word) (p : Nat) (f : Ctx → Ctx) : (s.mapCtx i p f).pending = s.pending := rfl
@[simp] theorem State.mapCtx_out (s : State) (i : Word) (p : Nat) (f : Ctx → Ctx) : (s.mapCtx i p f).out = s.out := rfl
@[simp] theorem State.mapCtx_free (s : State) (i : Word) (p : Nat) (f : Ctx → Ctx) : (s.mapCtx i p f).free = s.free := rfl
@[simp] theorem State.mapCtx_proto (s : State) (i : Word) (p : Nat) (f : Ctx → Ctx) : (s.mapCtx i p f).proto = s.proto := rfl
@[simp] theorem State.mapCtx_live (s : State) (i : Word) (p : Nat) (f : Ctx → Ctx) : (s.mapCtx i p f).live = s.live := rfl
@[simp] theorem State.mapCtx_flash (s : State) (i : Word) (p : Nat) (f : Ctx → Ctx) : (s.mapCtx i p f).flash = s.flash := rfl
@[simp] theorem State.mapCtx_memory (s : State) (i : Word) (p : Nat) (f : Ctx → Ctx) : (s.mapCtx i p f).memory = s.memory := rfl
@[simp] theorem State.mapCtx_units (s : State) (i : Word) (p : Nat) (f : Ctx → Ctx) : (s.mapCtx i p f).units = s.units := rfl
@[simp] theorem State.mapCtx_sched (s : State) (i : Word) (p : Nat) (f : Ctx → Ctx) : (s.mapCtx i p f).sched = { s.sched with ctxs := modifyFirst s.sched.ctxs (fun c => c.job == i && c.position == p) f } := rfl
@[simp] theorem State.mapCtx_audio (s : State) (i : Word) (p : Nat) (f : Ctx → Ctx) : (s.mapCtx i p f).audio = s.audio := rfl
@[simp] theorem State.mapCtx_links (s : State) (i : Word) (p : Nat) (f : Ctx → Ctx) : (s.mapCtx i p f).links = s.links := rfl
@[simp] theorem State.mapCtx_net (s : State) (i : Word) (p : Nat) (f : Ctx → Ctx) : (s.mapCtx i p f).net = s.net := rfl
@[simp] theorem State.mapCtx_power (s : State) (i : Word) (p : Nat) (f : Ctx → Ctx) : (s.mapCtx i p f).power = s.power := rfl
@[simp] theorem State.mapCtx_bark (s : State) (i : Word) (p : Nat) (f : Ctx → Ctx) : (s.mapCtx i p f).bark = s.bark := rfl
@[simp] theorem State.mapCtx_recorder (s : State) (i : Word) (p : Nat) (f : Ctx → Ctx) : (s.mapCtx i p f).recorder = s.recorder := rfl
@[simp] theorem State.mapCtx_pace (s : State) (i : Word) (p : Nat) (f : Ctx → Ctx) : (s.mapCtx i p f).pace = s.pace := rfl

/-! ### mapLoom -/

@[simp] theorem State.mapLoom_pending (s : State) (n : Nat) (f : LoomUnit → LoomUnit) : (s.mapLoom n f).pending = s.pending := rfl
@[simp] theorem State.mapLoom_out (s : State) (n : Nat) (f : LoomUnit → LoomUnit) : (s.mapLoom n f).out = s.out := rfl
@[simp] theorem State.mapLoom_free (s : State) (n : Nat) (f : LoomUnit → LoomUnit) : (s.mapLoom n f).free = s.free := rfl
@[simp] theorem State.mapLoom_proto (s : State) (n : Nat) (f : LoomUnit → LoomUnit) : (s.mapLoom n f).proto = s.proto := rfl
@[simp] theorem State.mapLoom_live (s : State) (n : Nat) (f : LoomUnit → LoomUnit) : (s.mapLoom n f).live = s.live := rfl
@[simp] theorem State.mapLoom_flash (s : State) (n : Nat) (f : LoomUnit → LoomUnit) : (s.mapLoom n f).flash = s.flash := rfl
@[simp] theorem State.mapLoom_memory (s : State) (n : Nat) (f : LoomUnit → LoomUnit) : (s.mapLoom n f).memory = s.memory := rfl
@[simp] theorem State.mapLoom_units (s : State) (n : Nat) (f : LoomUnit → LoomUnit) : (s.mapLoom n f).units = { s.units with looms := s.units.looms.modify n f } := rfl
@[simp] theorem State.mapLoom_sched (s : State) (n : Nat) (f : LoomUnit → LoomUnit) : (s.mapLoom n f).sched = s.sched := rfl
@[simp] theorem State.mapLoom_audio (s : State) (n : Nat) (f : LoomUnit → LoomUnit) : (s.mapLoom n f).audio = s.audio := rfl
@[simp] theorem State.mapLoom_links (s : State) (n : Nat) (f : LoomUnit → LoomUnit) : (s.mapLoom n f).links = s.links := rfl
@[simp] theorem State.mapLoom_net (s : State) (n : Nat) (f : LoomUnit → LoomUnit) : (s.mapLoom n f).net = s.net := rfl
@[simp] theorem State.mapLoom_power (s : State) (n : Nat) (f : LoomUnit → LoomUnit) : (s.mapLoom n f).power = s.power := rfl
@[simp] theorem State.mapLoom_bark (s : State) (n : Nat) (f : LoomUnit → LoomUnit) : (s.mapLoom n f).bark = s.bark := rfl
@[simp] theorem State.mapLoom_recorder (s : State) (n : Nat) (f : LoomUnit → LoomUnit) : (s.mapLoom n f).recorder = s.recorder := rfl
@[simp] theorem State.mapLoom_pace (s : State) (n : Nat) (f : LoomUnit → LoomUnit) : (s.mapLoom n f).pace = s.pace := rfl

/-! ### mapCluster -/

@[simp] theorem State.mapCluster_pending (s : State) (n : Nat) (f : Cluster → Cluster) : (s.mapCluster n f).pending = s.pending := rfl
@[simp] theorem State.mapCluster_out (s : State) (n : Nat) (f : Cluster → Cluster) : (s.mapCluster n f).out = s.out := rfl
@[simp] theorem State.mapCluster_free (s : State) (n : Nat) (f : Cluster → Cluster) : (s.mapCluster n f).free = s.free := rfl
@[simp] theorem State.mapCluster_proto (s : State) (n : Nat) (f : Cluster → Cluster) : (s.mapCluster n f).proto = s.proto := rfl
@[simp] theorem State.mapCluster_live (s : State) (n : Nat) (f : Cluster → Cluster) : (s.mapCluster n f).live = s.live := rfl
@[simp] theorem State.mapCluster_flash (s : State) (n : Nat) (f : Cluster → Cluster) : (s.mapCluster n f).flash = s.flash := rfl
@[simp] theorem State.mapCluster_memory (s : State) (n : Nat) (f : Cluster → Cluster) : (s.mapCluster n f).memory = s.memory := rfl
@[simp] theorem State.mapCluster_units (s : State) (n : Nat) (f : Cluster → Cluster) : (s.mapCluster n f).units = { s.units with clusters := s.units.clusters.modify n f } := rfl
@[simp] theorem State.mapCluster_sched (s : State) (n : Nat) (f : Cluster → Cluster) : (s.mapCluster n f).sched = s.sched := rfl
@[simp] theorem State.mapCluster_audio (s : State) (n : Nat) (f : Cluster → Cluster) : (s.mapCluster n f).audio = s.audio := rfl
@[simp] theorem State.mapCluster_links (s : State) (n : Nat) (f : Cluster → Cluster) : (s.mapCluster n f).links = s.links := rfl
@[simp] theorem State.mapCluster_net (s : State) (n : Nat) (f : Cluster → Cluster) : (s.mapCluster n f).net = s.net := rfl
@[simp] theorem State.mapCluster_power (s : State) (n : Nat) (f : Cluster → Cluster) : (s.mapCluster n f).power = s.power := rfl
@[simp] theorem State.mapCluster_bark (s : State) (n : Nat) (f : Cluster → Cluster) : (s.mapCluster n f).bark = s.bark := rfl
@[simp] theorem State.mapCluster_recorder (s : State) (n : Nat) (f : Cluster → Cluster) : (s.mapCluster n f).recorder = s.recorder := rfl
@[simp] theorem State.mapCluster_pace (s : State) (n : Nat) (f : Cluster → Cluster) : (s.mapCluster n f).pace = s.pace := rfl

/-! ### mapPort -/

@[simp] theorem State.mapPort_pending (s : State) (n : Nat) (f : Selvage → Selvage) : (s.mapPort n f).pending = s.pending := rfl
@[simp] theorem State.mapPort_out (s : State) (n : Nat) (f : Selvage → Selvage) : (s.mapPort n f).out = s.out := rfl
@[simp] theorem State.mapPort_free (s : State) (n : Nat) (f : Selvage → Selvage) : (s.mapPort n f).free = s.free := rfl
@[simp] theorem State.mapPort_proto (s : State) (n : Nat) (f : Selvage → Selvage) : (s.mapPort n f).proto = s.proto := rfl
@[simp] theorem State.mapPort_live (s : State) (n : Nat) (f : Selvage → Selvage) : (s.mapPort n f).live = s.live := rfl
@[simp] theorem State.mapPort_flash (s : State) (n : Nat) (f : Selvage → Selvage) : (s.mapPort n f).flash = s.flash := rfl
@[simp] theorem State.mapPort_memory (s : State) (n : Nat) (f : Selvage → Selvage) : (s.mapPort n f).memory = s.memory := rfl
@[simp] theorem State.mapPort_units (s : State) (n : Nat) (f : Selvage → Selvage) : (s.mapPort n f).units = s.units := rfl
@[simp] theorem State.mapPort_sched (s : State) (n : Nat) (f : Selvage → Selvage) : (s.mapPort n f).sched = s.sched := rfl
@[simp] theorem State.mapPort_audio (s : State) (n : Nat) (f : Selvage → Selvage) : (s.mapPort n f).audio = s.audio := rfl
@[simp] theorem State.mapPort_links (s : State) (n : Nat) (f : Selvage → Selvage) : (s.mapPort n f).links = { s.links with ports := s.links.ports.modify n f } := rfl
@[simp] theorem State.mapPort_net (s : State) (n : Nat) (f : Selvage → Selvage) : (s.mapPort n f).net = s.net := rfl
@[simp] theorem State.mapPort_power (s : State) (n : Nat) (f : Selvage → Selvage) : (s.mapPort n f).power = s.power := rfl
@[simp] theorem State.mapPort_bark (s : State) (n : Nat) (f : Selvage → Selvage) : (s.mapPort n f).bark = s.bark := rfl
@[simp] theorem State.mapPort_recorder (s : State) (n : Nat) (f : Selvage → Selvage) : (s.mapPort n f).recorder = s.recorder := rfl
@[simp] theorem State.mapPort_pace (s : State) (n : Nat) (f : Selvage → Selvage) : (s.mapPort n f).pace = s.pace := rfl

/-! ### mapPower -/

@[simp] theorem State.mapPower_pending (s : State) (f : Power → Power) : (s.mapPower f).pending = s.pending := rfl
@[simp] theorem State.mapPower_out (s : State) (f : Power → Power) : (s.mapPower f).out = s.out := rfl
@[simp] theorem State.mapPower_free (s : State) (f : Power → Power) : (s.mapPower f).free = s.free := rfl
@[simp] theorem State.mapPower_proto (s : State) (f : Power → Power) : (s.mapPower f).proto = s.proto := rfl
@[simp] theorem State.mapPower_live (s : State) (f : Power → Power) : (s.mapPower f).live = s.live := rfl
@[simp] theorem State.mapPower_flash (s : State) (f : Power → Power) : (s.mapPower f).flash = s.flash := rfl
@[simp] theorem State.mapPower_memory (s : State) (f : Power → Power) : (s.mapPower f).memory = s.memory := rfl
@[simp] theorem State.mapPower_units (s : State) (f : Power → Power) : (s.mapPower f).units = s.units := rfl
@[simp] theorem State.mapPower_sched (s : State) (f : Power → Power) : (s.mapPower f).sched = s.sched := rfl
@[simp] theorem State.mapPower_audio (s : State) (f : Power → Power) : (s.mapPower f).audio = s.audio := rfl
@[simp] theorem State.mapPower_links (s : State) (f : Power → Power) : (s.mapPower f).links = s.links := rfl
@[simp] theorem State.mapPower_net (s : State) (f : Power → Power) : (s.mapPower f).net = s.net := rfl
@[simp] theorem State.mapPower_power (s : State) (f : Power → Power) : (s.mapPower f).power = f s.power := rfl
@[simp] theorem State.mapPower_bark (s : State) (f : Power → Power) : (s.mapPower f).bark = s.bark := rfl
@[simp] theorem State.mapPower_recorder (s : State) (f : Power → Power) : (s.mapPower f).recorder = s.recorder := rfl
@[simp] theorem State.mapPower_pace (s : State) (f : Power → Power) : (s.mapPower f).pace = s.pace := rfl

/-! ### mapRecorder -/

@[simp] theorem State.mapRecorder_pending (s : State) (f : Recorder → Recorder) : (s.mapRecorder f).pending = s.pending := rfl
@[simp] theorem State.mapRecorder_out (s : State) (f : Recorder → Recorder) : (s.mapRecorder f).out = s.out := rfl
@[simp] theorem State.mapRecorder_free (s : State) (f : Recorder → Recorder) : (s.mapRecorder f).free = s.free := rfl
@[simp] theorem State.mapRecorder_proto (s : State) (f : Recorder → Recorder) : (s.mapRecorder f).proto = s.proto := rfl
@[simp] theorem State.mapRecorder_live (s : State) (f : Recorder → Recorder) : (s.mapRecorder f).live = s.live := rfl
@[simp] theorem State.mapRecorder_flash (s : State) (f : Recorder → Recorder) : (s.mapRecorder f).flash = s.flash := rfl
@[simp] theorem State.mapRecorder_memory (s : State) (f : Recorder → Recorder) : (s.mapRecorder f).memory = s.memory := rfl
@[simp] theorem State.mapRecorder_units (s : State) (f : Recorder → Recorder) : (s.mapRecorder f).units = s.units := rfl
@[simp] theorem State.mapRecorder_sched (s : State) (f : Recorder → Recorder) : (s.mapRecorder f).sched = s.sched := rfl
@[simp] theorem State.mapRecorder_audio (s : State) (f : Recorder → Recorder) : (s.mapRecorder f).audio = s.audio := rfl
@[simp] theorem State.mapRecorder_links (s : State) (f : Recorder → Recorder) : (s.mapRecorder f).links = s.links := rfl
@[simp] theorem State.mapRecorder_net (s : State) (f : Recorder → Recorder) : (s.mapRecorder f).net = s.net := rfl
@[simp] theorem State.mapRecorder_power (s : State) (f : Recorder → Recorder) : (s.mapRecorder f).power = s.power := rfl
@[simp] theorem State.mapRecorder_bark (s : State) (f : Recorder → Recorder) : (s.mapRecorder f).bark = s.bark := rfl
@[simp] theorem State.mapRecorder_recorder (s : State) (f : Recorder → Recorder) : (s.mapRecorder f).recorder = f s.recorder := rfl
@[simp] theorem State.mapRecorder_pace (s : State) (f : Recorder → Recorder) : (s.mapRecorder f).pace = s.pace := rfl

/-! ### mapStreams -/

@[simp] theorem State.mapStreams_pending (s : State) (f : Stream → Stream) : (s.mapStreams f).pending = s.pending := rfl
@[simp] theorem State.mapStreams_out (s : State) (f : Stream → Stream) : (s.mapStreams f).out = s.out := rfl
@[simp] theorem State.mapStreams_free (s : State) (f : Stream → Stream) : (s.mapStreams f).free = s.free := rfl
@[simp] theorem State.mapStreams_proto (s : State) (f : Stream → Stream) : (s.mapStreams f).proto = s.proto := rfl
@[simp] theorem State.mapStreams_live (s : State) (f : Stream → Stream) : (s.mapStreams f).live = s.live := rfl
@[simp] theorem State.mapStreams_flash (s : State) (f : Stream → Stream) : (s.mapStreams f).flash = s.flash := rfl
@[simp] theorem State.mapStreams_memory (s : State) (f : Stream → Stream) : (s.mapStreams f).memory = s.memory := rfl
@[simp] theorem State.mapStreams_units (s : State) (f : Stream → Stream) : (s.mapStreams f).units = s.units := rfl
@[simp] theorem State.mapStreams_sched (s : State) (f : Stream → Stream) : (s.mapStreams f).sched = s.sched := rfl
@[simp] theorem State.mapStreams_audio (s : State) (f : Stream → Stream) : (s.mapStreams f).audio = { s.audio with streams := s.audio.streams.map f } := rfl
@[simp] theorem State.mapStreams_links (s : State) (f : Stream → Stream) : (s.mapStreams f).links = s.links := rfl
@[simp] theorem State.mapStreams_net (s : State) (f : Stream → Stream) : (s.mapStreams f).net = s.net := rfl
@[simp] theorem State.mapStreams_power (s : State) (f : Stream → Stream) : (s.mapStreams f).power = s.power := rfl
@[simp] theorem State.mapStreams_bark (s : State) (f : Stream → Stream) : (s.mapStreams f).bark = s.bark := rfl
@[simp] theorem State.mapStreams_recorder (s : State) (f : Stream → Stream) : (s.mapStreams f).recorder = s.recorder := rfl
@[simp] theorem State.mapStreams_pace (s : State) (f : Stream → Stream) : (s.mapStreams f).pace = s.pace := rfl

/-! ### mapWclk -/

@[simp] theorem State.mapWclk_pending (s : State) (n : Nat) (f : Wclk → Wclk) : (s.mapWclk n f).pending = s.pending := rfl
@[simp] theorem State.mapWclk_out (s : State) (n : Nat) (f : Wclk → Wclk) : (s.mapWclk n f).out = s.out := rfl
@[simp] theorem State.mapWclk_free (s : State) (n : Nat) (f : Wclk → Wclk) : (s.mapWclk n f).free = s.free := rfl
@[simp] theorem State.mapWclk_proto (s : State) (n : Nat) (f : Wclk → Wclk) : (s.mapWclk n f).proto = s.proto := rfl
@[simp] theorem State.mapWclk_live (s : State) (n : Nat) (f : Wclk → Wclk) : (s.mapWclk n f).live = s.live := rfl
@[simp] theorem State.mapWclk_flash (s : State) (n : Nat) (f : Wclk → Wclk) : (s.mapWclk n f).flash = s.flash := rfl
@[simp] theorem State.mapWclk_memory (s : State) (n : Nat) (f : Wclk → Wclk) : (s.mapWclk n f).memory = s.memory := rfl
@[simp] theorem State.mapWclk_units (s : State) (n : Nat) (f : Wclk → Wclk) : (s.mapWclk n f).units = s.units := rfl
@[simp] theorem State.mapWclk_sched (s : State) (n : Nat) (f : Wclk → Wclk) : (s.mapWclk n f).sched = s.sched := rfl
@[simp] theorem State.mapWclk_audio (s : State) (n : Nat) (f : Wclk → Wclk) : (s.mapWclk n f).audio = { s.audio with wclks := s.audio.wclks.modify n f } := rfl
@[simp] theorem State.mapWclk_links (s : State) (n : Nat) (f : Wclk → Wclk) : (s.mapWclk n f).links = s.links := rfl
@[simp] theorem State.mapWclk_net (s : State) (n : Nat) (f : Wclk → Wclk) : (s.mapWclk n f).net = s.net := rfl
@[simp] theorem State.mapWclk_power (s : State) (n : Nat) (f : Wclk → Wclk) : (s.mapWclk n f).power = s.power := rfl
@[simp] theorem State.mapWclk_bark (s : State) (n : Nat) (f : Wclk → Wclk) : (s.mapWclk n f).bark = s.bark := rfl
@[simp] theorem State.mapWclk_recorder (s : State) (n : Nat) (f : Wclk → Wclk) : (s.mapWclk n f).recorder = s.recorder := rfl
@[simp] theorem State.mapWclk_pace (s : State) (n : Nat) (f : Wclk → Wclk) : (s.mapWclk n f).pace = s.pace := rfl

/-! ### mapBinding -/

@[simp] theorem State.mapBinding_pending (s : State) (n : Nat) (f : Binding → Binding) : (s.mapBinding n f).pending = s.pending := rfl
@[simp] theorem State.mapBinding_out (s : State) (n : Nat) (f : Binding → Binding) : (s.mapBinding n f).out = s.out := rfl
@[simp] theorem State.mapBinding_free (s : State) (n : Nat) (f : Binding → Binding) : (s.mapBinding n f).free = s.free := rfl
@[simp] theorem State.mapBinding_proto (s : State) (n : Nat) (f : Binding → Binding) : (s.mapBinding n f).proto = s.proto := rfl
@[simp] theorem State.mapBinding_live (s : State) (n : Nat) (f : Binding → Binding) : (s.mapBinding n f).live = s.live := rfl
@[simp] theorem State.mapBinding_flash (s : State) (n : Nat) (f : Binding → Binding) : (s.mapBinding n f).flash = s.flash := rfl
@[simp] theorem State.mapBinding_memory (s : State) (n : Nat) (f : Binding → Binding) : (s.mapBinding n f).memory = s.memory := rfl
@[simp] theorem State.mapBinding_units (s : State) (n : Nat) (f : Binding → Binding) : (s.mapBinding n f).units = s.units := rfl
@[simp] theorem State.mapBinding_sched (s : State) (n : Nat) (f : Binding → Binding) : (s.mapBinding n f).sched = s.sched := rfl
@[simp] theorem State.mapBinding_audio (s : State) (n : Nat) (f : Binding → Binding) : (s.mapBinding n f).audio = s.audio := rfl
@[simp] theorem State.mapBinding_links (s : State) (n : Nat) (f : Binding → Binding) : (s.mapBinding n f).links = { s.links with bindings := modifyFirst s.links.bindings (fun b => b.number == n) f } := rfl
@[simp] theorem State.mapBinding_net (s : State) (n : Nat) (f : Binding → Binding) : (s.mapBinding n f).net = s.net := rfl
@[simp] theorem State.mapBinding_power (s : State) (n : Nat) (f : Binding → Binding) : (s.mapBinding n f).power = s.power := rfl
@[simp] theorem State.mapBinding_bark (s : State) (n : Nat) (f : Binding → Binding) : (s.mapBinding n f).bark = s.bark := rfl
@[simp] theorem State.mapBinding_recorder (s : State) (n : Nat) (f : Binding → Binding) : (s.mapBinding n f).recorder = s.recorder := rfl
@[simp] theorem State.mapBinding_pace (s : State) (n : Nat) (f : Binding → Binding) : (s.mapBinding n f).pace = s.pace := rfl

/-! ### mapShuttle -/

@[simp] theorem State.mapShuttle_pending (s : State) (c p : Nat) (f : Shuttle → Shuttle) : (s.mapShuttle c p f).pending = s.pending := rfl
@[simp] theorem State.mapShuttle_out (s : State) (c p : Nat) (f : Shuttle → Shuttle) : (s.mapShuttle c p f).out = s.out := rfl
@[simp] theorem State.mapShuttle_free (s : State) (c p : Nat) (f : Shuttle → Shuttle) : (s.mapShuttle c p f).free = s.free := rfl
@[simp] theorem State.mapShuttle_proto (s : State) (c p : Nat) (f : Shuttle → Shuttle) : (s.mapShuttle c p f).proto = s.proto := rfl
@[simp] theorem State.mapShuttle_live (s : State) (c p : Nat) (f : Shuttle → Shuttle) : (s.mapShuttle c p f).live = s.live := rfl
@[simp] theorem State.mapShuttle_flash (s : State) (c p : Nat) (f : Shuttle → Shuttle) : (s.mapShuttle c p f).flash = s.flash := rfl
@[simp] theorem State.mapShuttle_memory (s : State) (c p : Nat) (f : Shuttle → Shuttle) : (s.mapShuttle c p f).memory = s.memory := rfl
@[simp] theorem State.mapShuttle_sched (s : State) (c p : Nat) (f : Shuttle → Shuttle) : (s.mapShuttle c p f).sched = s.sched := rfl
@[simp] theorem State.mapShuttle_audio (s : State) (c p : Nat) (f : Shuttle → Shuttle) : (s.mapShuttle c p f).audio = s.audio := rfl
@[simp] theorem State.mapShuttle_links (s : State) (c p : Nat) (f : Shuttle → Shuttle) : (s.mapShuttle c p f).links = s.links := rfl
@[simp] theorem State.mapShuttle_net (s : State) (c p : Nat) (f : Shuttle → Shuttle) : (s.mapShuttle c p f).net = s.net := rfl
@[simp] theorem State.mapShuttle_power (s : State) (c p : Nat) (f : Shuttle → Shuttle) : (s.mapShuttle c p f).power = s.power := rfl
@[simp] theorem State.mapShuttle_bark (s : State) (c p : Nat) (f : Shuttle → Shuttle) : (s.mapShuttle c p f).bark = s.bark := rfl
@[simp] theorem State.mapShuttle_recorder (s : State) (c p : Nat) (f : Shuttle → Shuttle) : (s.mapShuttle c p f).recorder = s.recorder := rfl
@[simp] theorem State.mapShuttle_pace (s : State) (c p : Nat) (f : Shuttle → Shuttle) : (s.mapShuttle c p f).pace = s.pace := rfl

/-! ### mapMaster -/

@[simp] theorem State.mapMaster_pending (s : State) (m : MasterId) (f : MasterState → MasterState) :
    (s.mapMaster m f).pending = s.pending := by cases m <;> rfl
@[simp] theorem State.mapMaster_out (s : State) (m : MasterId) (f : MasterState → MasterState) :
    (s.mapMaster m f).out = s.out := by cases m <;> rfl
@[simp] theorem State.mapMaster_free (s : State) (m : MasterId) (f : MasterState → MasterState) :
    (s.mapMaster m f).free = s.free := by cases m <;> rfl
@[simp] theorem State.mapMaster_live (s : State) (m : MasterId) (f : MasterState → MasterState) :
    (s.mapMaster m f).live = s.live := by cases m <;> rfl
@[simp] theorem State.mapMaster_flash (s : State) (m : MasterId) (f : MasterState → MasterState) :
    (s.mapMaster m f).flash = s.flash := by cases m <;> rfl
@[simp] theorem State.mapMaster_memory (s : State) (m : MasterId) (f : MasterState → MasterState) :
    (s.mapMaster m f).memory = s.memory := by cases m <;> rfl
@[simp] theorem State.mapMaster_units (s : State) (m : MasterId) (f : MasterState → MasterState) :
    (s.mapMaster m f).units = s.units := by cases m <;> rfl
@[simp] theorem State.mapMaster_sched (s : State) (m : MasterId) (f : MasterState → MasterState) :
    (s.mapMaster m f).sched = s.sched := by cases m <;> rfl
@[simp] theorem State.mapMaster_audio (s : State) (m : MasterId) (f : MasterState → MasterState) :
    (s.mapMaster m f).audio = s.audio := by cases m <;> rfl
@[simp] theorem State.mapMaster_links (s : State) (m : MasterId) (f : MasterState → MasterState) :
    (s.mapMaster m f).links = s.links := by cases m <;> rfl
@[simp] theorem State.mapMaster_net (s : State) (m : MasterId) (f : MasterState → MasterState) :
    (s.mapMaster m f).net = s.net := by cases m <;> rfl
@[simp] theorem State.mapMaster_power (s : State) (m : MasterId) (f : MasterState → MasterState) :
    (s.mapMaster m f).power = s.power := by cases m <;> rfl
@[simp] theorem State.mapMaster_bark (s : State) (m : MasterId) (f : MasterState → MasterState) :
    (s.mapMaster m f).bark = s.bark := by cases m <;> rfl
@[simp] theorem State.mapMaster_recorder (s : State) (m : MasterId) (f : MasterState → MasterState) :
    (s.mapMaster m f).recorder = s.recorder := by cases m <;> rfl
@[simp] theorem State.mapMaster_pace (s : State) (m : MasterId) (f : MasterState → MasterState) :
    (s.mapMaster m f).pace = s.pace := by cases m <;> rfl
@[simp] theorem State.mapMaster_replyQueue (s : State) (m : MasterId) (f : MasterState → MasterState) :
    (s.mapMaster m f).proto.replyQueue = s.proto.replyQueue := by cases m <;> rfl
@[simp] theorem State.mapMaster_doomed (s : State) (m : MasterId) (f : MasterState → MasterState) :
    (s.mapMaster m f).proto.doomed = s.proto.doomed := by cases m <;> rfl
@[simp] theorem State.mapMaster_fwQueue (s : State) (m : MasterId) (f : MasterState → MasterState) :
    (s.mapMaster m f).proto.fwQueue = s.proto.fwQueue := by cases m <;> rfl
@[simp] theorem State.mapMaster_held (s : State) (m : MasterId) (f : MasterState → MasterState) :
    (s.mapMaster m f).proto.held = s.proto.held := by cases m <;> rfl
@[simp] theorem State.mapMaster_twins (s : State) (m : MasterId) (f : MasterState → MasterState) :
    (s.mapMaster m f).proto.twins = s.proto.twins := by cases m <;> rfl
@[simp] theorem State.mapMaster_ip (s : State) (m : MasterId) (f : MasterState → MasterState) :
    (s.mapMaster m f).proto.ip = s.proto.ip := by cases m <;> rfl
@[simp] theorem State.mapMaster_same (s : State) (m : MasterId) (f : MasterState → MasterState) :
    (s.mapMaster m f).master m = f (s.master m) := by cases m <;> rfl
@[simp] theorem State.mapMaster_other (s : State) (m : MasterId) (f : MasterState → MasterState) :
    (s.mapMaster m.other f).master m = s.master m := by cases m <;> rfl
theorem State.mapMaster_of_ne (s : State) {m k : MasterId} (f : MasterState → MasterState) (h : k ≠ m) :
    (s.mapMaster m f).master k = s.master k := by cases m <;> cases k <;> first | rfl | exact absurd rfl h

end Sys2Proof.Machine
end

