-- ==== Sys2Proof/Laws/Cards.lean ====
section
/-!
SUPPORT. What the shared operations of cards do: finding engines ready or blocked changes passes alone, a chosen card runs its
own part, and a charge changes waves and passes alone.
-/
namespace Sys2Proof.Machine

open Sys2Proof Sys2Proof.Safety

/-! ### Changes of contexts alone -/

/-- Two states that differ in their contexts alone, and these in their passes alone. -/
def PassesOnly (s t : State) : Prop :=
  ∃ cs, t = { s with sched := { s.sched with ctxs := cs } } ∧
    List.Forall₂ (fun c d : Ctx => d = { c with passF := d.passF, passE := d.passE, blockedF := d.blockedF,
                                                blockedE := d.blockedE }) s.sched.ctxs cs

/-- No change. -/
theorem PassesOnly.refl (s : State) : PassesOnly s s := ⟨s.sched.ctxs, rfl, List.forall₂_same.2 fun _ _ => rfl⟩

/-- Two changes one after the other. -/
theorem PassesOnly.trans {s t u : State} (h1 : PassesOnly s t) (h2 : PassesOnly t u) : PassesOnly s u := by
  obtain ⟨cs, rfl, h1⟩ := h1
  obtain ⟨ds, rfl, h2⟩ := h2
  refine ⟨ds, rfl, ?_⟩
  dsimp only at h2
  revert h1 h2
  generalize s.sched.ctxs = l
  intro h1 h2
  induction h1 generalizing ds with
  | nil => cases h2; exact .nil
  | cons e _ ih =>
    cases h2 with
    | cons e2 t2 =>
      refine .cons ?_ (ih _ t2)
      rw [e2, e]

/-- A change of passes in one context changes passes alone. -/
theorem PassesOnly.mapCtx (s : State) (job : Word) (pos : Nat) (f : Ctx → Ctx)
    (h : ∀ c, f c = { c with passF := (f c).passF, passE := (f c).passE, blockedF := (f c).blockedF,
                             blockedE := (f c).blockedE }) :
    PassesOnly s (s.mapCtx job pos f) := by
  refine ⟨_, rfl, ?_⟩
  generalize s.sched.ctxs = l
  induction l with
  | nil => exact .nil
  | cons c l ih =>
    simp only [modifyFirst]
    split
    · exact .cons (h c) (List.forall₂_same.2 fun _ _ => rfl)
    · exact .cons rfl ih

/-- Setting a pass changes passes alone. -/
theorem PassesOnly.setPass (s : State) (job : Word) (pos : Nat) (e : Engine) (pass : Ctx → Nat) (blocked : Ctx → Bool) :
    PassesOnly s (s.mapCtx job pos fun c => c.setPass e (pass c) (blocked c)) :=
  PassesOnly.mapCtx s job pos _ fun _ => by cases e <;> rfl

/-- R274: raising the passes of a context changes passes alone. -/
theorem State.raisePasses_passes (s : State) (loom slot : Nat) (c : Ctx) : PassesOnly s (s.raisePasses loom slot c) :=
  PassesOnly.mapCtx s _ _ _ fun _ => rfl

/-- R274: one engine found ready or blocked. -/
theorem State.refreshOne_passes (s : State) (loom : Nat) (e : Engine) (slot : Nat) (c : Ctx) :
    PassesOnly s (s.refreshOne loom e slot c) := by
  unfold State.refreshOne
  dsimp only
  split
  · exact (State.raisePasses_passes s loom slot c).trans (PassesOnly.setPass _ _ _ e (fun c => c.passOf e) (fun _ => false))
  · split
    · exact PassesOnly.setPass s _ _ e (fun c => c.passOf e) (fun _ => true)
    · exact PassesOnly.refl s

/-- R274: finding the engines of a Loom ready or blocked changes passes alone. -/
theorem State.refresh_passes (s : State) (loom : Nat) : PassesOnly s (s.refresh loom) := by
  have one : ∀ (t : State) (e : Engine) (k : Nat), PassesOnly t (match t.resident? loom k with
      | some c => t.refreshOne loom e k c
      | none => t) := fun t e k => by
    split
    · exact State.refreshOne_passes t loom e k _
    · exact PassesOnly.refl t
  unfold State.refresh
  generalize s.residents loom = rs
  induction rs generalizing s with
  | nil => exact PassesOnly.refl s
  | cons r rs ih =>
    rw [List.foldl_cons]
    refine PassesOnly.trans ?_ (ih _)
    exact (one s .fetch r.1).trans (one _ .execute r.1)

/-- What a change of passes alone finds of a context. -/
theorem PassesOnly.ctx? {s t : State} (h : PassesOnly s t) (job : Word) (pos : Nat) :
    (∀ c, s.ctx? job pos = some c → ∃ d, t.ctx? job pos = some d
        ∧ d = { c with passF := d.passF, passE := d.passE, blockedF := d.blockedF, blockedE := d.blockedE }) ∧
      (s.ctx? job pos = none → t.ctx? job pos = none) := by
  obtain ⟨cs, rfl, h⟩ := h
  unfold State.ctx?
  dsimp only
  revert h
  generalize s.sched.ctxs = l
  intro h
  induction h with
  | nil => simp
  | cons e _ ih =>
    rename_i c d l l' _
    have hk : (d.job == job && d.position == pos) = (c.job == job && c.position == pos) := by rw [e]
    by_cases hc : (c.job == job && c.position == pos) = true
    · simp only [List.find?_cons, hk, hc]
      exact ⟨fun _ h => ⟨d, rfl, by cases h; exact e⟩, fun h => by cases h⟩
    · have hc' : (c.job == job && c.position == pos) = false := by simpa using hc
      simp only [List.find?_cons, hk, hc']
      exact ih

/-! ### A chosen card -/

/-- R93, R273: the event of a chosen card of its kind runs its own part on the issued state. -/
theorem State.cardEvent_of_chooses {s : State} {loom slot : Nat} {e : Engine} {c : Ctx} {card : Card}
    (h : Chooses s loom slot e c card) {kind : Card → Bool} (hk : kind card = true) (run : State → Ctx → Card → State) :
    s.cardEvent loom slot e kind run = (run (issued s loom slot e c card) c card).refresh loom := by
  obtain ⟨h1, h2, h3, _, h5, h6⟩ := h
  simp [State.cardEvent, h1, h2, h3, h5, h6, hk, issued]

/-- R93: the event of a card that is not of its kind changes nothing. -/
theorem State.cardEvent_other {s : State} {loom slot : Nat} {e : Engine} {c : Ctx} {card : Card}
    (h : Chooses s loom slot e c card) {kind : Card → Bool} (hk : kind card = false) (run : State → Ctx → Card → State) :
    s.cardEvent loom slot e kind run = s := by
  obtain ⟨h1, h2, h3, _, h5, _⟩ := h
  simp [State.cardEvent, h1, h2, h3, h5, hk]

/-- R98, R124: an execute card with a bad extent stops its context. -/
theorem State.runExec_bad {s : State} {c : Ctx} {card : Card} (h : s.extentsOk c .execute card = false)
    (run : Card → CardIn → Except Status CardOut) :
    s.runExec run c card = s.stopCard c .execute c.arch.execute.card .badParam := by
  simp [State.runExec, h]

/-- R93: an execute card with good extents whose own part succeeds completes. -/
theorem State.runExec_ok {s : State} {c : Ctx} {card : Card} (h : s.extentsOk c .execute card = true)
    {run : Card → CardIn → Except Status CardOut} {o : CardOut} (ho : run card (s.cardIn c) = .ok o) :
    s.runExec run c card = s.finishExec c card o := by
  simp [State.runExec, h, ho]

/-! ### Charging (R273) -/

/-- A charge changes jobs and contexts alone. -/
theorem State.charge_frame (s : State) (job : Word) (pos : Nat) (es : List Engine) (waves fixed : Nat) :
    ∃ js cs, s.charge job pos es waves fixed = { s with sched := { s.sched with jobs := js, ctxs := cs } } := by
  unfold State.charge
  dsimp only
  split
  · exact ⟨_, _, rfl⟩
  · exact ⟨_, _, rfl⟩

/-- R273: a completed execute card changes jobs and contexts alone. -/
theorem State.finishExec_frame (s : State) (c : Ctx) (card : Card) (o : CardOut) :
    ∃ js cs, s.finishExec c card o = { s with sched := { s.sched with jobs := js, ctxs := cs } } := by
  obtain ⟨js, cs, h⟩ := State.charge_frame (s.mapCtx c.job c.position fun d =>
    let arch := (d.arch.next .execute).signalled card
    { d with
      scratch := o.scratch, stripe := o.stripe,
      arch := { arch with arithFlags := o.flags, execStep := arch.execStep + if c.drawsExec card then 1 else 0 } })
    c.job c.position [.execute] (s.wavesOf c .execute card) 0
  exact ⟨js, cs, h⟩

/-! ### Traces (R427) -/

/-- Without a trace a card issues without a record. -/
theorem State.traceCard_of_none {s : State} (h : s.bark.trace = none) (loom slot : Nat) (e : Engine) (c : Ctx) (card : Card) :
    s.traceCard loom slot e c card = s := by
  have : ∀ (e : Engine) (i op : Nat), s.traceRecord loom slot e i op = s := fun e i op => by
    simp [State.traceRecord, h]
  simp [State.traceCard, this]

end Sys2Proof.Machine
end

