-- ==== Sys2Proof/Laws/Mem.lean ====
section
/-!
SUPPORT. Sparse memory: every operation keeps the canonical form, a byte that was written reads back, and every other byte
reads as before.
-/
namespace Sys2Proof.Machine

open Sys2Proof Sys2Proof.Safety

/-! ### The canonical form -/

/-- The canonical form, said of the list as a whole. -/
theorem Mem.wf_iff (m : Mem) : m.wf = true ↔ m.Pairwise (fun c d => c.1 < d.1) ∧ ∀ c ∈ m, c.2 ≠ 0 := by
  induction m with
  | nil => simp [Mem.wf]
  | cons c m ih =>
    cases m with
    | nil => simp [Mem.wf]
    | cons d m =>
      simp only [Mem.wf, Bool.and_eq_true, bne_iff_ne, decide_eq_true_eq, ih]
      constructor
      · rintro ⟨⟨h1, h2⟩, h3, h4⟩
        refine ⟨List.pairwise_cons.2 ⟨?_, h3⟩, fun e he => (List.mem_cons.1 he).elim (fun q => q ▸ h1) (h4 e)⟩
        intro e he
        rcases List.mem_cons.1 he with rfl | he
        · exact h2
        · exact Nat.lt_trans h2 ((List.pairwise_cons.1 h3).1 e he)
      · rintro ⟨h1, h2⟩
        exact ⟨⟨h2 c (by simp), (List.pairwise_cons.1 h1).1 d (by simp)⟩, (List.pairwise_cons.1 h1).2,
          fun e he => h2 e (List.mem_cons_of_mem _ he)⟩

/-- The cells of a written string lie inside it, and none is zero. -/
theorem Mem.mem_cells {a : Nat} {bs : List Byte} {c : Host.Cell} (h : c ∈ Mem.cells a bs) :
    a ≤ c.1 ∧ c.1 < a + bs.length ∧ c.2 ≠ 0 := by
  induction bs generalizing a with
  | nil => simp [Mem.cells] at h
  | cons b bs ih =>
    simp only [Mem.cells] at h
    split at h
    · obtain ⟨h1, h2, h3⟩ := ih h
      exact ⟨by omega, by simp; omega, h3⟩
    · rcases List.mem_cons.1 h with rfl | h
      · exact ⟨Nat.le_refl _, by simp, by assumption⟩
      · obtain ⟨h1, h2, h3⟩ := ih h
        exact ⟨by omega, by simp; omega, h3⟩

/-- The cells of a written string rise. -/
theorem Mem.cells_pairwise (a : Nat) (bs : List Byte) : (Mem.cells a bs).Pairwise fun c d => c.1 < d.1 := by
  induction bs generalizing a with
  | nil => simp [Mem.cells]
  | cons b bs ih =>
    simp only [Mem.cells]
    split
    · exact ih _
    · exact List.pairwise_cons.2 ⟨fun d hd => by have := (Mem.mem_cells hd).1; simp; omega, ih _⟩

/-- A write keeps the canonical form. -/
theorem Mem.wf_write {m : Mem} (h : m.wf = true) (a : Nat) (bs : List Byte) : (m.write a bs).wf = true := by
  obtain ⟨h1, h2⟩ := (Mem.wf_iff m).1 h
  refine (Mem.wf_iff _).2 ⟨?_, ?_⟩
  · rw [Mem.write, List.pairwise_append, List.pairwise_append]
    refine ⟨⟨h1.sublist List.filter_sublist, Mem.cells_pairwise a bs, ?_⟩, h1.sublist List.filter_sublist, ?_⟩
    · intro c hc d hd
      have := (Mem.mem_cells hd).1
      simp at hc; omega
    · intro c hc d hd
      simp only [List.mem_filter, decide_eq_true_eq] at hd
      rcases List.mem_append.1 hc with hc | hc
      · simp at hc; omega
      · have := (Mem.mem_cells hc).2.1; omega
  · intro c hc
    rcases List.mem_append.1 hc with hc | hc
    · rcases List.mem_append.1 hc with hc | hc
      · exact h2 c (List.mem_filter.1 hc).1
      · exact (Mem.mem_cells hc).2.2
    · exact h2 c (List.mem_filter.1 hc).1

/-- A write of one byte keeps the canonical form. -/
theorem Mem.wf_set {m : Mem} (h : m.wf = true) (a : Nat) (b : Byte) : (m.set a b).wf = true := Mem.wf_write h a [b]

/-- Clearing keeps the canonical form. -/
theorem Mem.wf_clear {m : Mem} (h : m.wf = true) (a n : Nat) : (m.clear a n).wf = true := by
  obtain ⟨h1, h2⟩ := (Mem.wf_iff m).1 h
  exact (Mem.wf_iff _).2 ⟨h1.sublist List.filter_sublist, fun c hc => h2 c (List.mem_filter.1 hc).1⟩

/-! ### Reading after writing -/

/-- A byte among filtered cells that pass. -/
theorem Mem.get_filter (m : Mem) (p : Host.Cell → Bool) (a : Nat) (h : ∀ b, p (a, b) = true) :
    Mem.get (m.filter p) a = m.get a := by
  unfold Mem.get
  induction m with
  | nil => rfl
  | cons c m ih =>
    obtain ⟨x, y⟩ := c
    by_cases e : a = x
    · subst e; simp [h y]
    · have : (a == x) = false := by simpa using e
      by_cases hp : p (x, y) = true
      · simpa [hp, List.lookup_cons, this] using ih
      · simpa [hp, List.lookup_cons, this] using ih

/-- No byte is listed among filtered cells that do not pass. -/
theorem Mem.lookup_filter_none (m : Mem) (p : Host.Cell → Bool) (a : Nat) (h : ∀ b, p (a, b) = false) :
    (m.filter p).lookup a = none := by
  induction m with
  | nil => rfl
  | cons c m ih =>
    obtain ⟨x, y⟩ := c
    by_cases hp : p (x, y) = true
    · have : (a == x) = false := by
        rw [beq_eq_false_iff_ne]; rintro rfl; simp [h y] at hp
      simp [hp, List.lookup_cons, this, ih]
    · simp [hp, ih]

/-- A zero byte makes no cell. -/
theorem Mem.cells_zero (a : Nat) (bs : List Byte) : Mem.cells a (0 :: bs) = Mem.cells (a + 1) bs := by
  rw [Mem.cells, if_pos rfl]

/-- A byte other than zero makes a cell. -/
theorem Mem.cells_cons (a : Nat) {b : Byte} (h : b ≠ 0) (bs : List Byte) :
    Mem.cells a (b :: bs) = (a, b) :: Mem.cells (a + 1) bs := by
  rw [Mem.cells, if_neg h]

/-- The byte at the first listed address. -/
theorem Mem.get_cons (x : Nat) (b : Byte) (m : Mem) (a : Nat) :
    Mem.get ((x, b) :: m) a = if a = x then b else m.get a := by
  unfold Mem.get
  by_cases e : a = x
  · subst e; simp
  · have : (a == x) = false := by simpa using e
    simp [List.lookup_cons, this, e]

/-- The byte at an address among the cells of a string. -/
theorem Mem.get_cells (a : Nat) (bs : List Byte) (x : Nat) :
    Mem.get (Mem.cells a bs) x = if a ≤ x then bs.getD (x - a) 0 else 0 := by
  induction bs generalizing a with
  | nil => simp [Mem.cells, Mem.get]
  | cons b bs ih =>
    have ih := ih (a + 1)
    by_cases hb : b = 0
    · subst hb
      rw [Mem.cells_zero, ih]
      rcases Nat.lt_trichotomy x a with h | rfl | h
      · rw [if_neg (by omega), if_neg (by omega)]
      · simp
      · rw [if_pos (by omega), if_pos (by omega), show x - a = (x - (a + 1)) + 1 by omega]; rfl
    · rw [Mem.cells_cons a hb, Mem.get_cons, ih]
      rcases Nat.lt_trichotomy x a with h | rfl | h
      · rw [if_neg (by omega), if_neg (by omega), if_neg (by omega)]
      · simp
      · rw [if_neg (by omega), if_pos (by omega), if_pos (by omega), show x - a = (x - (a + 1)) + 1 by omega]; rfl

/-- A byte of an appended memory. -/
theorem Mem.get_append (m n : Mem) (a : Nat) (h : m.lookup a = none) : Mem.get (m ++ n) a = n.get a := by
  simp [Mem.get, List.lookup_append, h]

/-- A byte that the appended memory does not list. -/
theorem Mem.get_append_left (m n : Mem) (a : Nat) (h : n.lookup a = none) : Mem.get (m ++ n) a = m.get a := by
  simp [Mem.get, List.lookup_append, h]

/-- The cells of a string list nothing outside it. -/
theorem Mem.lookup_cells_none {a x : Nat} {bs : List Byte} (h : x < a ∨ a + bs.length ≤ x) :
    (Mem.cells a bs).lookup x = none := by
  rw [List.lookup_eq_none_iff]
  rintro ⟨y, b⟩ hc
  have := Mem.mem_cells hc
  simp only at this
  simp only [bne_iff_ne, ne_eq]
  omega

/-- A byte outside the written range reads as before. -/
theorem Mem.get_write_of_not_mem (m : Mem) {a x : Nat} {bs : List Byte} (h : x < a ∨ a + bs.length ≤ x) :
    Mem.get (m.write a bs) x = m.get x := by
  unfold Mem.write
  rcases h with h | h
  · rw [Mem.get_append_left _ _ _ (Mem.lookup_filter_none _ _ _ fun b => by simp; omega),
      Mem.get_append_left _ _ _ (Mem.lookup_cells_none (.inl h)), Mem.get_filter _ _ _ fun b => by simpa using h]
  · rw [Mem.get_append, Mem.get_filter _ _ _ fun b => by simpa using h]
    rw [List.lookup_append, Mem.lookup_cells_none (.inr h), Mem.lookup_filter_none _ _ _ fun b => by simp; omega]
    rfl

/-- A written byte reads back. -/
theorem Mem.get_write_of_mem (m : Mem) {a x : Nat} {bs : List Byte} (h1 : a ≤ x) (h2 : x < a + bs.length) :
    Mem.get (m.write a bs) x = bs.getD (x - a) 0 := by
  unfold Mem.write
  rw [Mem.get_append_left _ _ _ (Mem.lookup_filter_none _ _ _ fun b => by simp; omega),
    Mem.get_append _ _ _ (Mem.lookup_filter_none _ _ _ fun b => by simp; omega), Mem.get_cells, if_pos h1]

/-- A cleared byte reads zero. -/
theorem Mem.get_clear_of_mem (m : Mem) {a n x : Nat} (h1 : a ≤ x) (h2 : x < a + n) : Mem.get (m.clear a n) x = 0 := by
  unfold Mem.get Mem.clear
  rw [Mem.lookup_filter_none _ _ _ fun b => by simp; omega]
  rfl

/-- A byte outside the cleared range reads as before. -/
theorem Mem.get_clear_of_not_mem (m : Mem) {a n x : Nat} (h : x < a ∨ a + n ≤ x) :
    Mem.get (m.clear a n) x = m.get x :=
  Mem.get_filter _ _ _ fun b => by simpa using h

/-- A read of n bytes gives n bytes. -/
@[simp] theorem Mem.length_read (m : Mem) (a n : Nat) : (m.read a n).length = n := by simp [Mem.read]

/-- A read, byte by byte. -/
theorem Mem.read_eq (m : Mem) (a n : Nat) : m.read a n = (List.range n).map fun i => m.get (a + i) := by
  unfold Mem.read
  refine List.map_congr_left fun i hi => Mem.get_filter _ _ _ fun b => ?_
  simp only [List.mem_range] at hi
  simp; omega

/-- What is written reads back. -/
theorem Mem.read_write (m : Mem) (a : Nat) (bs : List Byte) : (m.write a bs).read a bs.length = bs := by
  rw [Mem.read_eq]
  refine List.ext_getElem (by simp) fun i h1 h2 => ?_
  have h : Mem.get (m.write a bs) (a + i) = bs.getD (a + i - a) 0 :=
    Mem.get_write_of_mem m (Nat.le_add_right a i) (Nat.add_lt_add_left h2 a)
  simp [h, h2]

/-! ### The memories of the device -/

/-- Writing at a location keeps the memories canonical. -/
theorem State.writeLoc_canonical {s : State} (h : MemoryCanonical s) (l : Loc) (bs : List Byte) :
    MemoryCanonical (s.writeLoc l bs) := by
  cases l with
  | vault k => exact ⟨Mem.wf_write h.1 k bs, h.2⟩
  | chan k => exact ⟨h.1, Mem.wf_write h.2 k bs⟩
  | frame _ _ => exact h
  | token _ _ => exact h

/-- Writing model space keeps the memories canonical. -/
theorem State.modelWrite_canonical {s : State} (h : MemoryCanonical s) (o : Nat) (bs : List Byte) :
    MemoryCanonical (s.modelWrite o bs) := by
  unfold State.modelWrite
  generalize granulesOf 8192 o bs.length = gs
  induction gs generalizing s with
  | nil => exact h
  | cons g gs ih =>
    rw [List.foldl_cons]
    refine ih ?_
    split
    · exact ⟨h.1, Mem.wf_write h.2 _ _⟩
    · exact h

end Sys2Proof.Machine
end

