-- ==== Sys2Proof/Laws/Output.lean ====
section
/-!
SUPPORT. What sending does: flits, messages, packets and events change the links, the output and the protocol's record, and
nothing else of the device.
-/
namespace Sys2Proof.Machine

open Sys2Proof Sys2Proof.Safety

/-- Two states that differ in the links, the output and the protocol's record alone. -/
def OutputOnly (s t : State) : Prop := t = { s with links := t.links, out := t.out, proto := t.proto }

theorem OutputOnly.refl (s : State) : OutputOnly s s := rfl

theorem OutputOnly.trans {s t u : State} (h1 : OutputOnly s t) (h2 : OutputOnly t u) : OutputOnly s u := by
  unfold OutputOnly at *
  rw [h2, h1]

theorem OutputOnly.memory {s t : State} (h : OutputOnly s t) : t.memory = s.memory := by rw [h]
theorem OutputOnly.sched {s t : State} (h : OutputOnly s t) : t.sched = s.sched := by rw [h]
theorem OutputOnly.audio {s t : State} (h : OutputOnly s t) : t.audio = s.audio := by rw [h]
theorem OutputOnly.power {s t : State} (h : OutputOnly s t) : t.power = s.power := by rw [h]
theorem OutputOnly.bark {s t : State} (h : OutputOnly s t) : t.bark = s.bark := by rw [h]
theorem OutputOnly.flash {s t : State} (h : OutputOnly s t) : t.flash = s.flash := by rw [h]
theorem OutputOnly.live {s t : State} (h : OutputOnly s t) : t.live = s.live := by rw [h]
theorem OutputOnly.units {s t : State} (h : OutputOnly s t) : t.units = s.units := by rw [h]
theorem OutputOnly.recorder {s t : State} (h : OutputOnly s t) : t.recorder = s.recorder := by rw [h]
theorem OutputOnly.net {s t : State} (h : OutputOnly s t) : t.net = s.net := by rw [h]
theorem OutputOnly.pace {s t : State} (h : OutputOnly s t) : t.pace = s.pace := by rw [h]
theorem OutputOnly.pending {s t : State} (h : OutputOnly s t) : t.pending = s.pending := by rw [h]
theorem OutputOnly.free {s t : State} (h : OutputOnly s t) : t.free = s.free := by rw [h]

/-- A fold of such changes is such a change. -/
theorem OutputOnly.foldl {α : Type} {f : State → α → State} (h : ∀ s a, OutputOnly s (f s a)) (l : List α) (s : State) :
    OutputOnly s (l.foldl f s) := by
  induction l generalizing s with
  | nil => exact OutputOnly.refl s
  | cons a l ih => exact (h s a).trans (ih _)

/-! ### Flits and messages -/

theorem OutputOnly.mapPort (s : State) (n : Nat) (f : Selvage → Selvage) : OutputOnly s (s.mapPort n f) := rfl

theorem OutputOnly.emitFlit (s : State) (n : Nat) (bs : List Byte) : OutputOnly s (s.emitFlit n bs) := rfl

/-- R299: sending the flits that wait. -/
theorem OutputOnly.pump (fuel n : Nat) (s : State) : OutputOnly s (State.pump fuel n s) := by
  induction fuel generalizing s with
  | zero => exact OutputOnly.refl s
  | succ k ih =>
    unfold State.pump
    dsimp only
    split
    · exact OutputOnly.refl s
    · split
      · exact OutputOnly.refl s
      · exact OutputOnly.trans (OutputOnly.trans (OutputOnly.emitFlit s n _) (OutputOnly.mapPort _ n _)) (ih _)

/-- R314: a message. -/
theorem OutputOnly.sendMessage (s : State) (via : Option Nat) (odd : Bool) (device mtype dport : Nat) (lsid tag : Byte)
    (seq : Word) (body : List Byte) : OutputOnly s (s.sendMessage via odd device mtype dport lsid tag seq body) := by
  unfold State.sendMessage
  split
  · exact OutputOnly.mapPort s _ _
  · split
    · exact OutputOnly.trans (OutputOnly.mapPort s _ _) (OutputOnly.pump _ _ _)
    · exact OutputOnly.refl s

/-- R314: system control. -/
theorem OutputOnly.tell (s : State) (device : Nat) (c : Control) : OutputOnly s (s.tell device c) := by
  unfold State.tell
  split
  · exact OutputOnly.refl s
  · exact OutputOnly.sendMessage s _ _ _ _ _ _ _ _ _

/-! ### Packets and events -/

theorem OutputOnly.mapMaster (s : State) (m : MasterId) (f : MasterState → MasterState) :
    OutputOnly s (s.mapMaster m f) := by cases m <;> rfl

/-- R358: a packet handed to its interface. -/
theorem OutputOnly.sendPacket (s : State) (p : OutPacket) : OutputOnly s (s.sendPacket p) := by
  unfold State.sendPacket
  split
  · rfl
  · rfl
  · rfl
  · exact OutputOnly.sendMessage s _ _ _ _ _ _ _ _ _

/-- A packet by another interface than a Selvage leaves the links. -/
theorem State.sendPacket_links (s : State) {p : OutPacket} (h : p.iface ≠ .selvage) : (s.sendPacket p).links = s.links := by
  unfold State.sendPacket
  split
  · rfl
  · rfl
  · rfl
  · contradiction

/-- R365: the host's waiting events. -/
theorem OutputOnly.drainHost (s : State) : OutputOnly s s.drainHost := by
  unfold State.drainHost
  dsimp only
  split
  · exact OutputOnly.refl s
  · refine OutputOnly.trans ?_ (OutputOnly.foldl OutputOnly.sendPacket _ _)
    rfl

/-- R365: the waiting events of both masters. -/
theorem OutputOnly.drainEvents (s : State) : OutputOnly s s.drainEvents := by
  refine (OutputOnly.drainHost s).trans ?_
  rfl

/-- R365: an event for one master. -/
theorem OutputOnly.eventTo (s : State) (m : MasterId) (e : EventKind) (st : Status) (context hostTag : Word)
    (params : List Byte) : OutputOnly s (s.eventTo m e st context hostTag params) := by
  unfold State.eventTo
  dsimp only
  split
  · exact OutputOnly.refl s
  · split
    · exact OutputOnly.mapMaster s m _
    · exact OutputOnly.mapMaster s m _

/-- R365: an event changes the links, the output and the protocol's record alone. -/
theorem OutputOnly.event (s : State) (e : EventKind) (st : Status) (context hostTag : Word) (params : List Byte) :
    OutputOnly s (s.event e st context hostTag params) :=
  ((OutputOnly.eventTo s .host e st context hostTag params).trans
    (OutputOnly.eventTo _ .mgmt e st context hostTag params)).trans (OutputOnly.drainEvents _)

/-- R353: recording a sequence number. -/
theorem OutputOnly.accepted (s : State) (h : Hdr) : OutputOnly s (accepted s h) := OutputOnly.mapMaster s _ _

/-- R358: keeping and sending the one reply. -/
theorem OutputOnly.answered (op : Nat) (h : Hdr) (s : State) (st : Status) (context : Word) (rep : Bool)
    (params : List Byte) : OutputOnly s (answered op h s st context rep params) :=
  (OutputOnly.mapMaster s _ _).trans (OutputOnly.sendPacket _ _)

/-- R336: a transmit crossing that holds nothing sends nothing. -/
theorem State.linkCatchUp_empty {s : State} (h : s.linkEnqueue.net.queue = []) :
    s.linkCatchUp = if s.padsOpen 106 && s.hostLinkUp then { s.linkEnqueue with free := s.free + 1 } else s := by
  simp only [State.linkCatchUp, h, List.length_nil, Nat.min_zero, State.linkSend]
  rfl

end Sys2Proof.Machine
end

