-- ==== Sys2Proof/Laws/PerInstr.lean ====
section
/-!
SUPPORT. A fact of every instruction, one lemma for each: a command row has an OPCODE of the groups 0x00 to 0x0B, which names
some row whatever the parameters are (R351, R374), and an event is no packet.
-/
namespace Sys2Proof.Laws

open Sys2Proof

/-- R351: the OPCODE of a command row lies in the groups 0x00 to 0x0B and is known. -/
def Packet.Statement (i : Instr) : Prop :=
  ∀ (op : Nat) (h : Hdr) (ps : List Byte), packetOf i = some (op, h, ps) →
    op < 0x0C00 ∧ ∀ (h' : Hdr) (ps' : List Byte), (instrOf op h' ps').isSome = true

/-- A row whose packet has an OPCODE that is known. -/
theorem Packet.of_packet {i : Instr} {op : Nat} {h : Hdr} {ps : List Byte} (e : packetOf i = some (op, h, ps))
    (lt : op < 0x0C00) (known : ∀ (h' : Hdr) (ps' : List Byte), (instrOf op h' ps').isSome = true) :
    Packet.Statement i := by
  rintro op' h' ps' e'
  obtain ⟨rfl, -, -⟩ : op = op' ∧ h = h' ∧ ps = ps' := by simpa using e.symm.trans e'
  exact ⟨lt, known⟩

theorem Packet.hello (h : Hdr) (ps : List Byte) : Packet.Statement (.hello h ps) :=
  Packet.of_packet rfl (Nat.le_of_ble_eq_true rfl) fun _ _ => rfl

theorem Packet.identify (h : Hdr) (ps : List Byte) : Packet.Statement (.identify h ps) :=
  Packet.of_packet rfl (Nat.le_of_ble_eq_true rfl) fun _ _ => rfl

theorem Packet.ping (h : Hdr) (ps : List Byte) : Packet.Statement (.ping h ps) :=
  Packet.of_packet rfl (Nat.le_of_ble_eq_true rfl) fun _ _ => rfl

theorem Packet.status (h : Hdr) (ps : List Byte) : Packet.Statement (.status h ps) :=
  Packet.of_packet rfl (Nat.le_of_ble_eq_true rfl) fun _ _ => rfl

theorem Packet.reset (h : Hdr) (ps : List Byte) : Packet.Statement (.reset h ps) :=
  Packet.of_packet rfl (Nat.le_of_ble_eq_true rfl) fun _ _ => rfl

theorem Packet.paceRead (h : Hdr) (ps : List Byte) : Packet.Statement (.paceRead h ps) :=
  Packet.of_packet rfl (Nat.le_of_ble_eq_true rfl) fun _ _ => rfl

theorem Packet.modelLoadOpen (h : Hdr) (ps : List Byte) : Packet.Statement (.modelLoadOpen h ps) :=
  Packet.of_packet rfl (Nat.le_of_ble_eq_true rfl) fun _ _ => rfl

theorem Packet.modelLoadSegment (h : Hdr) (ps : List Byte) : Packet.Statement (.modelLoadSegment h ps) :=
  Packet.of_packet rfl (Nat.le_of_ble_eq_true rfl) fun _ _ => rfl

theorem Packet.modelLoadCommit (h : Hdr) (ps : List Byte) : Packet.Statement (.modelLoadCommit h ps) :=
  Packet.of_packet rfl (Nat.le_of_ble_eq_true rfl) fun _ _ => rfl

theorem Packet.modelVerify (h : Hdr) (ps : List Byte) : Packet.Statement (.modelVerify h ps) :=
  Packet.of_packet rfl (Nat.le_of_ble_eq_true rfl) fun _ _ => rfl

theorem Packet.modelUnload (h : Hdr) (ps : List Byte) : Packet.Statement (.modelUnload h ps) :=
  Packet.of_packet rfl (Nat.le_of_ble_eq_true rfl) fun _ _ => rfl

theorem Packet.memWrite (h : Hdr) (ps : List Byte) : Packet.Statement (.memWrite h ps) :=
  Packet.of_packet rfl (Nat.le_of_ble_eq_true rfl) fun _ _ => rfl

theorem Packet.memLayoutWrite (h : Hdr) (ps : List Byte) : Packet.Statement (.memLayoutWrite h ps) :=
  Packet.of_packet rfl (Nat.le_of_ble_eq_true rfl) fun _ _ => rfl

theorem Packet.memRead (h : Hdr) (ps : List Byte) : Packet.Statement (.memRead h ps) :=
  Packet.of_packet rfl (Nat.le_of_ble_eq_true rfl) fun _ _ => rfl

theorem Packet.deckLoad (h : Hdr) (ps : List Byte) : Packet.Statement (.deckLoad h ps) :=
  Packet.of_packet rfl (Nat.le_of_ble_eq_true rfl) fun _ _ => rfl

theorem Packet.deckUnload (h : Hdr) (ps : List Byte) : Packet.Statement (.deckUnload h ps) :=
  Packet.of_packet rfl (Nat.le_of_ble_eq_true rfl) fun _ _ => rfl

theorem Packet.jobSubmit (h : Hdr) (ps : List Byte) : Packet.Statement (.jobSubmit h ps) :=
  Packet.of_packet rfl (Nat.le_of_ble_eq_true rfl) fun _ _ => rfl

theorem Packet.jobCancel (h : Hdr) (ps : List Byte) : Packet.Statement (.jobCancel h ps) :=
  Packet.of_packet rfl (Nat.le_of_ble_eq_true rfl) fun _ _ => rfl

theorem Packet.jobStatus (h : Hdr) (ps : List Byte) : Packet.Statement (.jobStatus h ps) :=
  Packet.of_packet rfl (Nat.le_of_ble_eq_true rfl) fun _ _ => rfl

theorem Packet.resultFetch (h : Hdr) (ps : List Byte) : Packet.Statement (.resultFetch h ps) :=
  Packet.of_packet rfl (Nat.le_of_ble_eq_true rfl) fun _ _ => rfl

theorem Packet.resultRelease (h : Hdr) (ps : List Byte) : Packet.Statement (.resultRelease h ps) :=
  Packet.of_packet rfl (Nat.le_of_ble_eq_true rfl) fun _ _ => rfl

theorem Packet.sharesSetClient (h : Hdr) (ps : List Byte) : Packet.Statement (.sharesSetClient h ps) :=
  Packet.of_packet rfl (Nat.le_of_ble_eq_true rfl) fun _ _ => rfl

theorem Packet.sharesReadClient (h : Hdr) (ps : List Byte) : Packet.Statement (.sharesReadClient h ps) :=
  Packet.of_packet rfl (Nat.le_of_ble_eq_true rfl) fun _ _ => rfl

theorem Packet.schedConfigWrite (h : Hdr) (ps : List Byte) : Packet.Statement (.schedConfigWrite h ps) :=
  Packet.of_packet rfl (Nat.le_of_ble_eq_true rfl) fun _ _ => rfl

theorem Packet.schedConfigRead (h : Hdr) (ps : List Byte) : Packet.Statement (.schedConfigRead h ps) :=
  Packet.of_packet rfl (Nat.le_of_ble_eq_true rfl) fun _ _ => rfl

theorem Packet.accountRead (h : Hdr) (ps : List Byte) : Packet.Statement (.accountRead h ps) :=
  Packet.of_packet rfl (Nat.le_of_ble_eq_true rfl) fun _ _ => rfl

theorem Packet.streamOpen (h : Hdr) (ps : List Byte) : Packet.Statement (.streamOpen h ps) :=
  Packet.of_packet rfl (Nat.le_of_ble_eq_true rfl) fun _ _ => rfl

theorem Packet.streamFeed (h : Hdr) (ps : List Byte) : Packet.Statement (.streamFeed h ps) :=
  Packet.of_packet rfl (Nat.le_of_ble_eq_true rfl) fun _ _ => rfl

theorem Packet.streamMarkPhrase (h : Hdr) (ps : List Byte) : Packet.Statement (.streamMarkPhrase h ps) :=
  Packet.of_packet rfl (Nat.le_of_ble_eq_true rfl) fun _ _ => rfl

theorem Packet.streamMarkEnd (h : Hdr) (ps : List Byte) : Packet.Statement (.streamMarkEnd h ps) :=
  Packet.of_packet rfl (Nat.le_of_ble_eq_true rfl) fun _ _ => rfl

theorem Packet.streamClose (h : Hdr) (ps : List Byte) : Packet.Statement (.streamClose h ps) :=
  Packet.of_packet rfl (Nat.le_of_ble_eq_true rfl) fun _ _ => rfl

theorem Packet.streamRoute (h : Hdr) (ps : List Byte) : Packet.Statement (.streamRoute h ps) :=
  Packet.of_packet rfl (Nat.le_of_ble_eq_true rfl) fun _ _ => rfl

theorem Packet.streamFallbackThreshold (h : Hdr) (ps : List Byte) : Packet.Statement (.streamFallbackThreshold h ps) :=
  Packet.of_packet rfl (Nat.le_of_ble_eq_true rfl) fun _ _ => rfl

theorem Packet.streamFallbackClear (h : Hdr) (ps : List Byte) : Packet.Statement (.streamFallbackClear h ps) :=
  Packet.of_packet rfl (Nat.le_of_ble_eq_true rfl) fun _ _ => rfl

theorem Packet.streamFallbackReturn (h : Hdr) (ps : List Byte) : Packet.Statement (.streamFallbackReturn h ps) :=
  Packet.of_packet rfl (Nat.le_of_ble_eq_true rfl) fun _ _ => rfl

theorem Packet.streamStatus (h : Hdr) (ps : List Byte) : Packet.Statement (.streamStatus h ps) :=
  Packet.of_packet rfl (Nat.le_of_ble_eq_true rfl) fun _ _ => rfl

theorem Packet.portConfigWrite (h : Hdr) (ps : List Byte) : Packet.Statement (.portConfigWrite h ps) :=
  Packet.of_packet rfl (Nat.le_of_ble_eq_true rfl) fun _ _ => rfl

theorem Packet.portConfigRead (h : Hdr) (ps : List Byte) : Packet.Statement (.portConfigRead h ps) :=
  Packet.of_packet rfl (Nat.le_of_ble_eq_true rfl) fun _ _ => rfl

theorem Packet.portStart (h : Hdr) (ps : List Byte) : Packet.Statement (.portStart h ps) :=
  Packet.of_packet rfl (Nat.le_of_ble_eq_true rfl) fun _ _ => rfl

theorem Packet.portStop (h : Hdr) (ps : List Byte) : Packet.Statement (.portStop h ps) :=
  Packet.of_packet rfl (Nat.le_of_ble_eq_true rfl) fun _ _ => rfl

theorem Packet.portStatus (h : Hdr) (ps : List Byte) : Packet.Statement (.portStatus h ps) :=
  Packet.of_packet rfl (Nat.le_of_ble_eq_true rfl) fun _ _ => rfl

theorem Packet.cardConfigOpen (h : Hdr) (ps : List Byte) : Packet.Statement (.cardConfigOpen h ps) :=
  Packet.of_packet rfl (Nat.le_of_ble_eq_true rfl) fun _ _ => rfl

theorem Packet.cardConfigClose (h : Hdr) (ps : List Byte) : Packet.Statement (.cardConfigClose h ps) :=
  Packet.of_packet rfl (Nat.le_of_ble_eq_true rfl) fun _ _ => rfl

theorem Packet.cardGain (h : Hdr) (ps : List Byte) : Packet.Statement (.cardGain h ps) :=
  Packet.of_packet rfl (Nat.le_of_ble_eq_true rfl) fun _ _ => rfl

theorem Packet.cardTapStart (h : Hdr) (ps : List Byte) : Packet.Statement (.cardTapStart h ps) :=
  Packet.of_packet rfl (Nat.le_of_ble_eq_true rfl) fun _ _ => rfl

theorem Packet.cardTapStop (h : Hdr) (ps : List Byte) : Packet.Statement (.cardTapStop h ps) :=
  Packet.of_packet rfl (Nat.le_of_ble_eq_true rfl) fun _ _ => rfl

theorem Packet.cardStats (h : Hdr) (ps : List Byte) : Packet.Statement (.cardStats h ps) :=
  Packet.of_packet rfl (Nat.le_of_ble_eq_true rfl) fun _ _ => rfl

theorem Packet.powerState (h : Hdr) (ps : List Byte) : Packet.Statement (.powerState h ps) :=
  Packet.of_packet rfl (Nat.le_of_ble_eq_true rfl) fun _ _ => rfl

theorem Packet.powerStateRead (h : Hdr) (ps : List Byte) : Packet.Statement (.powerStateRead h ps) :=
  Packet.of_packet rfl (Nat.le_of_ble_eq_true rfl) fun _ _ => rfl

theorem Packet.domainCtrlOff (h : Hdr) (ps : List Byte) : Packet.Statement (.domainCtrlOff h ps) :=
  Packet.of_packet rfl (Nat.le_of_ble_eq_true rfl) fun _ _ => rfl

theorem Packet.domainCtrlOn (h : Hdr) (ps : List Byte) : Packet.Statement (.domainCtrlOn h ps) :=
  Packet.of_packet rfl (Nat.le_of_ble_eq_true rfl) fun _ _ => rfl

theorem Packet.domainCtrlRead (h : Hdr) (ps : List Byte) : Packet.Statement (.domainCtrlRead h ps) :=
  Packet.of_packet rfl (Nat.le_of_ble_eq_true rfl) fun _ _ => rfl

theorem Packet.padRelease (h : Hdr) (ps : List Byte) : Packet.Statement (.padRelease h ps) :=
  Packet.of_packet rfl (Nat.le_of_ble_eq_true rfl) fun _ _ => rfl

theorem Packet.voltagePolicyWrite (h : Hdr) (ps : List Byte) : Packet.Statement (.voltagePolicyWrite h ps) :=
  Packet.of_packet rfl (Nat.le_of_ble_eq_true rfl) fun _ _ => rfl

theorem Packet.voltagePolicyRead (h : Hdr) (ps : List Byte) : Packet.Statement (.voltagePolicyRead h ps) :=
  Packet.of_packet rfl (Nat.le_of_ble_eq_true rfl) fun _ _ => rfl

theorem Packet.powerCeilingSet (h : Hdr) (ps : List Byte) : Packet.Statement (.powerCeilingSet h ps) :=
  Packet.of_packet rfl (Nat.le_of_ble_eq_true rfl) fun _ _ => rfl

theorem Packet.powerCeilingRead (h : Hdr) (ps : List Byte) : Packet.Statement (.powerCeilingRead h ps) :=
  Packet.of_packet rfl (Nat.le_of_ble_eq_true rfl) fun _ _ => rfl

theorem Packet.attest (h : Hdr) (ps : List Byte) : Packet.Statement (.attest h ps) :=
  Packet.of_packet rfl (Nat.le_of_ble_eq_true rfl) fun _ _ => rfl

theorem Packet.keyInstall (h : Hdr) (ps : List Byte) : Packet.Statement (.keyInstall h ps) :=
  Packet.of_packet rfl (Nat.le_of_ble_eq_true rfl) fun _ _ => rfl

theorem Packet.lifecycleTransition (h : Hdr) (ps : List Byte) : Packet.Statement (.lifecycleTransition h ps) :=
  Packet.of_packet rfl (Nat.le_of_ble_eq_true rfl) fun _ _ => rfl

theorem Packet.lifecycleRead (h : Hdr) (ps : List Byte) : Packet.Statement (.lifecycleRead h ps) :=
  Packet.of_packet rfl (Nat.le_of_ble_eq_true rfl) fun _ _ => rfl

theorem Packet.fwInstallManifest (h : Hdr) (ps : List Byte) : Packet.Statement (.fwInstallManifest h ps) :=
  Packet.of_packet rfl (Nat.le_of_ble_eq_true rfl) fun _ _ => rfl

theorem Packet.fwInstallChunk (h : Hdr) (ps : List Byte) : Packet.Statement (.fwInstallChunk h ps) :=
  Packet.of_packet rfl (Nat.le_of_ble_eq_true rfl) fun _ _ => rfl

theorem Packet.fwInstallFinish (h : Hdr) (ps : List Byte) : Packet.Statement (.fwInstallFinish h ps) :=
  Packet.of_packet rfl (Nat.le_of_ble_eq_true rfl) fun _ _ => rfl

theorem Packet.fwInstallRead (h : Hdr) (ps : List Byte) : Packet.Statement (.fwInstallRead h ps) :=
  Packet.of_packet rfl (Nat.le_of_ble_eq_true rfl) fun _ _ => rfl

theorem Packet.modelKeyInstall (h : Hdr) (ps : List Byte) : Packet.Statement (.modelKeyInstall h ps) :=
  Packet.of_packet rfl (Nat.le_of_ble_eq_true rfl) fun _ _ => rfl

theorem Packet.modelKeyDelete (h : Hdr) (ps : List Byte) : Packet.Statement (.modelKeyDelete h ps) :=
  Packet.of_packet rfl (Nat.le_of_ble_eq_true rfl) fun _ _ => rfl

theorem Packet.debugUnlock (h : Hdr) (ps : List Byte) : Packet.Statement (.debugUnlock h ps) :=
  Packet.of_packet rfl (Nat.le_of_ble_eq_true rfl) fun _ _ => rfl

theorem Packet.debugLock (h : Hdr) (ps : List Byte) : Packet.Statement (.debugLock h ps) :=
  Packet.of_packet rfl (Nat.le_of_ble_eq_true rfl) fun _ _ => rfl

theorem Packet.traceCtrlStart (h : Hdr) (ps : List Byte) : Packet.Statement (.traceCtrlStart h ps) :=
  Packet.of_packet rfl (Nat.le_of_ble_eq_true rfl) fun _ _ => rfl

theorem Packet.traceCtrlStop (h : Hdr) (ps : List Byte) : Packet.Statement (.traceCtrlStop h ps) :=
  Packet.of_packet rfl (Nat.le_of_ble_eq_true rfl) fun _ _ => rfl

theorem Packet.loomHalt (h : Hdr) (ps : List Byte) : Packet.Statement (.loomHalt h ps) :=
  Packet.of_packet rfl (Nat.le_of_ble_eq_true rfl) fun _ _ => rfl

theorem Packet.loomResume (h : Hdr) (ps : List Byte) : Packet.Statement (.loomResume h ps) :=
  Packet.of_packet rfl (Nat.le_of_ble_eq_true rfl) fun _ _ => rfl

theorem Packet.loomStep (h : Hdr) (ps : List Byte) : Packet.Statement (.loomStep h ps) :=
  Packet.of_packet rfl (Nat.le_of_ble_eq_true rfl) fun _ _ => rfl

theorem Packet.ringInfo (h : Hdr) (ps : List Byte) : Packet.Statement (.ringInfo h ps) :=
  Packet.of_packet rfl (Nat.le_of_ble_eq_true rfl) fun _ _ => rfl

theorem Packet.ringRead (h : Hdr) (ps : List Byte) : Packet.Statement (.ringRead h ps) :=
  Packet.of_packet rfl (Nat.le_of_ble_eq_true rfl) fun _ _ => rfl

theorem Packet.tableWrite (h : Hdr) (ps : List Byte) : Packet.Statement (.tableWrite h ps) :=
  Packet.of_packet rfl (Nat.le_of_ble_eq_true rfl) fun _ _ => rfl

theorem Packet.tableRead (h : Hdr) (ps : List Byte) : Packet.Statement (.tableRead h ps) :=
  Packet.of_packet rfl (Nat.le_of_ble_eq_true rfl) fun _ _ => rfl

theorem Packet.settingsCommit (h : Hdr) (ps : List Byte) : Packet.Statement (.settingsCommit h ps) :=
  Packet.of_packet rfl (Nat.le_of_ble_eq_true rfl) fun _ _ => rfl

theorem Packet.settingsInvalidate (h : Hdr) (ps : List Byte) : Packet.Statement (.settingsInvalidate h ps) :=
  Packet.of_packet rfl (Nat.le_of_ble_eq_true rfl) fun _ _ => rfl

theorem Packet.settingsRead (h : Hdr) (ps : List Byte) : Packet.Statement (.settingsRead h ps) :=
  Packet.of_packet rfl (Nat.le_of_ble_eq_true rfl) fun _ _ => rfl

theorem Packet.sysEnumerate (h : Hdr) (ps : List Byte) : Packet.Statement (.sysEnumerate h ps) :=
  Packet.of_packet rfl (Nat.le_of_ble_eq_true rfl) fun _ _ => rfl

theorem Packet.sysPhaseAssign (h : Hdr) (ps : List Byte) : Packet.Statement (.sysPhaseAssign h ps) :=
  Packet.of_packet rfl (Nat.le_of_ble_eq_true rfl) fun _ _ => rfl

theorem Packet.sysRouteBind (h : Hdr) (ps : List Byte) : Packet.Statement (.sysRouteBind h ps) :=
  Packet.of_packet rfl (Nat.le_of_ble_eq_true rfl) fun _ _ => rfl

theorem Packet.sysRouteUnbind (h : Hdr) (ps : List Byte) : Packet.Statement (.sysRouteUnbind h ps) :=
  Packet.of_packet rfl (Nat.le_of_ble_eq_true rfl) fun _ _ => rfl

theorem Packet.linkStatus (h : Hdr) (ps : List Byte) : Packet.Statement (.linkStatus h ps) :=
  Packet.of_packet rfl (Nat.le_of_ble_eq_true rfl) fun _ _ => rfl

theorem Packet.malformedPacket (iface : Iface) (src : Endpoint) (bytes : List Byte) : Packet.Statement (.malformedPacket iface src bytes) := fun _ _ _ e => nomatch e

theorem Packet.fragmentReceived (opcode : Half) (h : Hdr) (ps : List Byte) : Packet.Statement (.fragmentReceived opcode h ps) := fun _ _ _ e => nomatch e

theorem Packet.fragmentAssemblyExpiry (m : MasterId) (opcode : Half) (context hostTag : Word) : Packet.Statement (.fragmentAssemblyExpiry m opcode context hostTag) := fun _ _ _ e => nomatch e

theorem Packet.ipFragmentReceived (f : IpFrag) : Packet.Statement (.ipFragmentReceived f) := fun _ _ _ e => nomatch e

theorem Packet.ipReassemblyExpiry (v6 : Bool) (src dst : List Byte) (ident : Word) : Packet.Statement (.ipReassemblyExpiry v6 src dst ident) := fun _ _ _ e => nomatch e

theorem Packet.networkControlFrame (f : NetFrame) : Packet.Statement (.networkControlFrame f) := fun _ _ _ e => nomatch e

theorem Packet.dhcpReply (f : DhcpFrame) : Packet.Statement (.dhcpReply f) := fun _ _ _ e => nomatch e

theorem Packet.eapolFrame (bytes : List Byte) : Packet.Statement (.eapolFrame bytes) := fun _ _ _ e => nomatch e

theorem Packet.hostLinkUp (rate : BitVec 2) (leader lpi : Bool) : Packet.Statement (.hostLinkUp rate leader lpi) := fun _ _ _ e => nomatch e

theorem Packet.hostLinkDown : Packet.Statement .hostLinkDown := fun _ _ _ e => nomatch e

theorem Packet.trainingFailed : Packet.Statement .trainingFailed := fun _ _ _ e => nomatch e

theorem Packet.readvertiseTimer : Packet.Statement .readvertiseTimer := fun _ _ _ e => nomatch e

theorem Packet.load (loom slot : Nat) : Packet.Statement (.load loom slot) := fun _ _ _ e => nomatch e

theorem Packet.store (loom slot : Nat) : Packet.Statement (.store loom slot) := fun _ _ _ e => nomatch e

theorem Packet.loadC (loom slot : Nat) : Packet.Statement (.loadC loom slot) := fun _ _ _ e => nomatch e

theorem Packet.storeC (loom slot : Nat) : Packet.Statement (.storeC loom slot) := fun _ _ _ e => nomatch e

theorem Packet.peerSend (loom slot : Nat) : Packet.Statement (.peerSend loom slot) := fun _ _ _ e => nomatch e

theorem Packet.peerReceive (loom slot : Nat) : Packet.Statement (.peerReceive loom slot) := fun _ _ _ e => nomatch e

theorem Packet.wait (loom slot : Nat) (eng : Engine) : Packet.Statement (.wait loom slot eng) := fun _ _ _ e => nomatch e

theorem Packet.signal (loom slot : Nat) (eng : Engine) : Packet.Statement (.signal loom slot eng) := fun _ _ _ e => nomatch e

theorem Packet.knot (loom slot : Nat) : Packet.Statement (.knot loom slot) := fun _ _ _ e => nomatch e

theorem Packet.loop (loom slot : Nat) (eng : Engine) : Packet.Statement (.loop loom slot eng) := fun _ _ _ e => nomatch e

theorem Packet.endLoop (loom slot : Nat) (eng : Engine) : Packet.Statement (.endLoop loom slot eng) := fun _ _ _ e => nomatch e

theorem Packet.mma (loom slot : Nat) : Packet.Statement (.mma loom slot) := fun _ _ _ e => nomatch e

theorem Packet.mmaG (loom slot : Nat) : Packet.Statement (.mmaG loom slot) := fun _ _ _ e => nomatch e

theorem Packet.vop (loom slot : Nat) : Packet.Statement (.vop loom slot) := fun _ _ _ e => nomatch e

theorem Packet.curve (loom slot : Nat) : Packet.Statement (.curve loom slot) := fun _ _ _ e => nomatch e

theorem Packet.reduce (loom slot : Nat) : Packet.Statement (.reduce loom slot) := fun _ _ _ e => nomatch e

theorem Packet.norm (loom slot : Nat) : Packet.Statement (.norm loom slot) := fun _ _ _ e => nomatch e

theorem Packet.scan (loom slot : Nat) : Packet.Statement (.scan loom slot) := fun _ _ _ e => nomatch e

theorem Packet.conv (loom slot : Nat) : Packet.Statement (.conv loom slot) := fun _ _ _ e => nomatch e

theorem Packet.qstat (loom slot : Nat) : Packet.Statement (.qstat loom slot) := fun _ _ _ e => nomatch e

theorem Packet.narrow (loom slot : Nat) : Packet.Statement (.narrow loom slot) := fun _ _ _ e => nomatch e

theorem Packet.widen (loom slot : Nat) : Packet.Statement (.widen loom slot) := fun _ _ _ e => nomatch e

theorem Packet.grainKeyLoad (loom slot : Nat) : Packet.Statement (.grainKeyLoad loom slot) := fun _ _ _ e => nomatch e

theorem Packet.grainFill (loom slot : Nat) : Packet.Statement (.grainFill loom slot) := fun _ _ _ e => nomatch e

theorem Packet.gsample (loom slot : Nat) : Packet.Statement (.gsample loom slot) := fun _ _ _ e => nomatch e

theorem Packet.halt (loom slot : Nat) (eng : Engine) : Packet.Statement (.halt loom slot eng) := fun _ _ _ e => nomatch e

theorem Packet.pieceIssue (loom : Nat) : Packet.Statement (.pieceIssue loom) := fun _ _ _ e => nomatch e

theorem Packet.pieceComplete (loom : Nat) (piece : PieceEnd) : Packet.Statement (.pieceComplete loom piece) := fun _ _ _ e => nomatch e

theorem Packet.jobStart : Packet.Statement .jobStart := fun _ _ _ e => nomatch e

theorem Packet.contextAdmit (loom : Nat) : Packet.Statement (.contextAdmit loom) := fun _ _ _ e => nomatch e

theorem Packet.waySpilled (loom : Nat) : Packet.Statement (.waySpilled loom) := fun _ _ _ e => nomatch e

theorem Packet.sliceEnd (loom slot : Nat) : Packet.Statement (.sliceEnd loom slot) := fun _ _ _ e => nomatch e

theorem Packet.releaseToKnot (loom : Nat) : Packet.Statement (.releaseToKnot loom) := fun _ _ _ e => nomatch e

theorem Packet.resultExpiry (job : Word) : Packet.Statement (.resultExpiry job) := fun _ _ _ e => nomatch e

theorem Packet.batchStepStart (job : Word) : Packet.Statement (.batchStepStart job) := fun _ _ _ e => nomatch e

theorem Packet.batchStepEnd (job : Word) : Packet.Statement (.batchStepEnd job) := fun _ _ _ e => nomatch e

theorem Packet.phraseJobStart (stream : Word) : Packet.Statement (.phraseJobStart stream) := fun _ _ _ e => nomatch e

theorem Packet.tokenRecord (job : Word) : Packet.Statement (.tokenRecord job) := fun _ _ _ e => nomatch e

theorem Packet.frameRecord (stream : Word) : Packet.Statement (.frameRecord stream) := fun _ _ _ e => nomatch e

theorem Packet.frameCommit (stream : Word) : Packet.Statement (.frameCommit stream) := fun _ _ _ e => nomatch e

theorem Packet.batchStart (cluster pos : Nat) : Packet.Statement (.batchStart cluster pos) := fun _ _ _ e => nomatch e

theorem Packet.microMv (cluster pos : Nat) : Packet.Statement (.microMv cluster pos) := fun _ _ _ e => nomatch e

theorem Packet.microEw (cluster pos : Nat) : Packet.Statement (.microEw cluster pos) := fun _ _ _ e => nomatch e

theorem Packet.microCrv (cluster pos : Nat) : Packet.Statement (.microCrv cluster pos) := fun _ _ _ e => nomatch e

theorem Packet.microCvt (cluster pos : Nat) : Packet.Statement (.microCvt cluster pos) := fun _ _ _ e => nomatch e

theorem Packet.microOut (cluster pos : Nat) : Packet.Statement (.microOut cluster pos) := fun _ _ _ e => nomatch e

theorem Packet.microDraw (cluster pos : Nat) : Packet.Statement (.microDraw cluster pos) := fun _ _ _ e => nomatch e

theorem Packet.microEnd (cluster pos : Nat) : Packet.Statement (.microEnd cluster pos) := fun _ _ _ e => nomatch e

theorem Packet.batchEnd (cluster pos : Nat) : Packet.Statement (.batchEnd cluster pos) := fun _ _ _ e => nomatch e

theorem Packet.contextMoveStart (stream : Word) : Packet.Statement (.contextMoveStart stream) := fun _ _ _ e => nomatch e

theorem Packet.contextMoveArrive (stream : Word) : Packet.Statement (.contextMoveArrive stream) := fun _ _ _ e => nomatch e

theorem Packet.programLoadCluster (cluster : Nat) (program : Word) : Packet.Statement (.programLoadCluster cluster program) := fun _ _ _ e => nomatch e

theorem Packet.tallyEvaluation (stream : Word) : Packet.Statement (.tallyEvaluation stream) := fun _ _ _ e => nomatch e

theorem Packet.egressStart (stream : Word) : Packet.Statement (.egressStart stream) := fun _ _ _ e => nomatch e

theorem Packet.releaseInstant (stream : Word) : Packet.Statement (.releaseInstant stream) := fun _ _ _ e => nomatch e

theorem Packet.reedInputLock (n : Nat) : Packet.Statement (.reedInputLock n) := fun _ _ _ e => nomatch e

theorem Packet.reedInputLockLoss (n : Nat) : Packet.Statement (.reedInputLockLoss n) := fun _ _ _ e => nomatch e

theorem Packet.reedInputFrame (n : Nat) (f : ReedFrame) : Packet.Statement (.reedInputFrame n f) := fun _ _ _ e => nomatch e

theorem Packet.wclkLock (n : Nat) : Packet.Statement (.wclkLock n) := fun _ _ _ e => nomatch e

theorem Packet.wclkLockLoss (n : Nat) : Packet.Statement (.wclkLockLoss n) := fun _ _ _ e => nomatch e

theorem Packet.reedStartTick (port : Nat) : Packet.Statement (.reedStartTick port) := fun _ _ _ e => nomatch e

theorem Packet.reedDataStart (port : Nat) : Packet.Statement (.reedDataStart port) := fun _ _ _ e => nomatch e

theorem Packet.reedOutputFrame (port : Nat) : Packet.Statement (.reedOutputFrame port) := fun _ _ _ e => nomatch e

theorem Packet.reedOutputClockLoss (n : Nat) : Packet.Statement (.reedOutputClockLoss n) := fun _ _ _ e => nomatch e

theorem Packet.rateMeasureWindow (port : Nat) (rate : BitVec 25) : Packet.Statement (.rateMeasureWindow port rate) := fun _ _ _ e => nomatch e

theorem Packet.cardingStripe : Packet.Statement .cardingStripe := fun _ _ _ e => nomatch e

theorem Packet.paceWindow (w : Window) : Packet.Statement (.paceWindow w) := fun _ _ _ e => nomatch e

theorem Packet.thermalSensorConversion (cs : List Conversion) : Packet.Statement (.thermalSensorConversion cs) := fun _ _ _ e => nomatch e

theorem Packet.thermalTrip (sensor : Nat) (tempC : Int) : Packet.Statement (.thermalTrip sensor tempC) := fun _ _ _ e => nomatch e

theorem Packet.vcoreUndervoltage (f : SupplyFault) : Packet.Statement (.vcoreUndervoltage f) := fun _ _ _ e => nomatch e

theorem Packet.domainPowerGood (report : DomainReport) : Packet.Statement (.domainPowerGood report) := fun _ _ _ e => nomatch e

theorem Packet.regulatorAck (rail : Rail) : Packet.Statement (.regulatorAck rail) := fun _ _ _ e => nomatch e

theorem Packet.regulatorTimeout (rail : Rail) : Packet.Statement (.regulatorTimeout rail) := fun _ _ _ e => nomatch e

theorem Packet.wakePin (heldUs : Nat) : Packet.Statement (.wakePin heldUs) := fun _ _ _ e => nomatch e

theorem Packet.wakeBusFrame (addr : Byte) (bytes : List Byte) : Packet.Statement (.wakeBusFrame addr bytes) := fun _ _ _ e => nomatch e

theorem Packet.wakeBusRead (addr : Byte) : Packet.Statement (.wakeBusRead addr) := fun _ _ _ e => nomatch e

theorem Packet.wakeBusStall : Packet.Statement .wakeBusStall := fun _ _ _ e => nomatch e

theorem Packet.selfRefreshSupervision (temps : List Int) : Packet.Statement (.selfRefreshSupervision temps) := fun _ _ _ e => nomatch e

theorem Packet.canopyRefresh (quadrant : Nat) (tempC : Int) : Packet.Statement (.canopyRefresh quadrant tempC) := fun _ _ _ e => nomatch e

theorem Packet.patrolScrub (vault : Nat) (corrected : Bool) : Packet.Statement (.patrolScrub vault corrected) := fun _ _ _ e => nomatch e

theorem Packet.wckDriftCheck (ch : Nat) (drift : Bool) : Packet.Statement (.wckDriftCheck ch drift) := fun _ _ _ e => nomatch e

theorem Packet.uncorrectableWord (canopy : Bool) (unit : Nat) (offset : DWord) (reader : Reader) : Packet.Statement (.uncorrectableWord canopy unit offset reader) := fun _ _ _ e => nomatch e

theorem Packet.loomFault (loom : Nat) (mech : Mechanism) (test : SelfTest) : Packet.Statement (.loomFault loom mech test) := fun _ _ _ e => nomatch e

theorem Packet.handshakeWatchdog (unit : WatchedUnit) : Packet.Statement (.handshakeWatchdog unit) := fun _ _ _ e => nomatch e

theorem Packet.shuttleFault (cluster pos : Nat) (mech : Mechanism) (test : SelfTest) : Packet.Statement (.shuttleFault cluster pos mech test) := fun _ _ _ e => nomatch e

theorem Packet.faultNoSpare (unit : SoloUnit) (mech : Mechanism) : Packet.Statement (.faultNoSpare unit mech) := fun _ _ _ e => nomatch e

theorem Packet.scaleUnitFault (port : Nat) : Packet.Statement (.scaleUnitFault port) := fun _ _ _ e => nomatch e

theorem Packet.flitReceived (port : Nat) (bytes : List Byte) : Packet.Statement (.flitReceived port bytes) := fun _ _ _ e => nomatch e

theorem Packet.ackTimer (port : Nat) : Packet.Statement (.ackTimer port) := fun _ _ _ e => nomatch e

theorem Packet.replayTimeout (port : Nat) : Packet.Statement (.replayTimeout port) := fun _ _ _ e => nomatch e

theorem Packet.portRetrain (port : Nat) (cause : RetrainCause) : Packet.Statement (.portRetrain port cause) := fun _ _ _ e => nomatch e

theorem Packet.portTraining (port : Nat) (found : Option Training) : Packet.Statement (.portTraining port found) := fun _ _ _ e => nomatch e

theorem Packet.failedPortRetry (port : Nat) : Packet.Statement (.failedPortRetry port) := fun _ _ _ e => nomatch e

theorem Packet.linkMessage (port : Nat) : Packet.Statement (.linkMessage port) := fun _ _ _ e => nomatch e

theorem Packet.blockAck (binding recvEnd : Nat) (blockSeq : Word) : Packet.Statement (.blockAck binding recvEnd blockSeq) := fun _ _ _ e => nomatch e

theorem Packet.retransmitRequest (binding recvEnd : Nat) (blockSeq : Word) : Packet.Statement (.retransmitRequest binding recvEnd blockSeq) := fun _ _ _ e => nomatch e

theorem Packet.pairMatch (port : Nat) (lsid : Byte) : Packet.Statement (.pairMatch port lsid) := fun _ _ _ e => nomatch e

theorem Packet.operatingMinute : Packet.Statement .operatingMinute := fun _ _ _ e => nomatch e

theorem Packet.recordWrite : Packet.Statement .recordWrite := fun _ _ _ e => nomatch e

theorem Packet.entropyFailure : Packet.Statement .entropyFailure := fun _ _ _ e => nomatch e

theorem Packet.vaonApplied : Packet.Statement .vaonApplied := fun _ _ _ e => nomatch e

theorem Packet.resetNRelease : Packet.Statement .resetNRelease := fun _ _ _ e => nomatch e

theorem Packet.coldBoot (f : BootFindings) : Packet.Statement (.coldBoot f) := fun _ _ _ e => nomatch e

theorem Packet.warmReset (f : WarmFindings) : Packet.Statement (.warmReset f) := fun _ _ _ e => nomatch e

theorem Packet.vaonRemoved (bitsWritten : Bool) : Packet.Statement (.vaonRemoved bitsWritten) := fun _ _ _ e => nomatch e

theorem Packet.resetNLow (heldUs : Nat) : Packet.Statement (.resetNLow heldUs) := fun _ _ _ e => nomatch e

theorem Packet.dapAccess (a : DapAccess) : Packet.Statement (.dapAccess a) := fun _ _ _ e => nomatch e

end Sys2Proof.Laws
end

