-- ==== Sys2Proof/Laws/Protocol.lean ====
section
/-!
SUPPORT. What the shared operations of the command protocol do: a packet that the block takes runs its own part on the state
that records its sequence number, and its one reply is kept and sent.
-/
namespace Sys2Proof.Machine

open Sys2Proof Sys2Proof.Safety

@[simp] theorem MasterState.accept_session (ms : MasterState) (seq : Word) : (ms.accept seq).session = ms.session := rfl
@[simp] theorem MasterState.accept_assemblies (ms : MasterState) (seq : Word) :
    (ms.accept seq).assemblies = ms.assemblies := rfl
@[simp] theorem MasterState.accept_assembly (ms : MasterState) (seq : Word) (op : Nat) (h : Hdr) :
    (ms.accept seq).assembly? op h = ms.assembly? op h := rfl

/-- R353: recording a sequence number leaves the assemblies as they are. -/
theorem State.joined_accept (s : State) (m : MasterId) (seq : Word) (p : Nat × Hdr × List Byte) :
    (s.mapMaster m fun ms => ms.accept seq).joined p = s.joined p := by
  have : ((s.mapMaster m fun ms => ms.accept seq).master p.2.1.iface.master).assembly? p.1 p.2.1
      = (s.master p.2.1.iface.master).assembly? p.1 p.2.1 := by
    by_cases e : p.2.1.iface.master = m
    · subst e; simp
    · rw [State.mapMaster_of_ne s _ e]
  simp [State.joined, this]

/-- A command conflicts only with commands of the other master (R361). -/
theorem conflicting_master {p q : Nat × Hdr × List Byte} (h : conflicting p q = true) :
    q.2.1.iface.master ≠ p.2.1.iface.master := by
  simp only [conflicting, Bool.and_eq_true, bne_iff_ne] at h
  exact fun e => h.1.1 e.symm

/-- Every packet that is pending beside one is one of those that wait, with its joined parameters (R361). -/
theorem State.mem_others {s : State} {q : Nat × Hdr × List Byte} (h : q ∈ s.others) :
    ∃ r ∈ (s.pending ++ s.proto.fwQueue).filterMap packetOf, s.joined r = q := by
  simp only [State.others, List.mem_filter, List.mem_map] at h
  exact h.1

/-- R361, R362: with no withdrawal, no transition of the controller and no conflicting command about, the conflict check
passes. -/
theorem State.conflictCheck_ok {s : State} {p : Nat × Hdr × List Byte}
    (hd : ∀ d ∈ s.proto.doomed, ¬ (d.master = p.2.1.iface.master ∧ d.seq = p.2.1.seq)) (he : s.entryWins p = none)
    (hq : ∀ q ∈ (s.pending ++ s.proto.fwQueue).filterMap packetOf, conflicting p (s.joined q) = false) :
    s.conflictCheck p = .ok s := by
  have h1 : (s.proto.doomed.find? fun d => d.master == p.2.1.iface.master && d.seq == p.2.1.seq) = none := by
    rw [List.find?_eq_none]
    intro d hm; simpa using hd d hm
  have h2 : s.rivals p = [] := by
    simp only [State.rivals, List.filter_eq_nil_iff]
    intro q hm
    obtain ⟨r, hr, rfl⟩ := State.mem_others hm
    simp [hq r hr]
  simp [State.conflictCheck, h1, he, h2]

/-- R361: with no identical command about, an answer is left for none. -/
theorem State.leftFor_none {s : State} {p : Nat × Hdr × List Byte} (a : Answer)
    (hq : ∀ q ∈ (s.pending ++ s.proto.fwQueue).filterMap packetOf, identical p (s.joined q) = false) :
    a.leftFor (s.others.filter fun q => identical p q) = a := by
  have h : (s.others.filter fun q => identical p q) = [] := by
    simp only [List.filter_eq_nil_iff]
    intro q hm
    obtain ⟨r, hr, rfl⟩ := State.mem_others hm
    simp [hq r hr]
  simp [Answer.leftFor, h]

/-- R351 to R362: a packet that the block takes runs its own part on the accepted state, and its answer is finished. -/
theorem State.command_of_takes {s : State} {op : Nat} {h : Hdr} {ps : List Byte} (ht : Takes s op h ps) (i : Instr)
    (run : List Byte → State → Answer) :
    s.command i op h ps false run = State.finish op h (run ps (accepted s h)) := by
  obtain ⟨hb, hl, hw, hg, hr, hv, hh, hm, hc, hf, ha, hk, hs, hd, ht, he, hq⟩ := ht
  have hwake : (h.iface == .wakeBus && s.power.boot == .ready && s.busWakes) = false := by
    by_cases e : h.iface = .wakeBus
    · simp [e, hw e]
    · simp [e]
  have hroot : (h.iface == .hostLink && s.links.device.isSome && !s.links.isRoot && op != 0x0B01) = false := by
    by_cases e : h.iface = .hostLink
    · rcases hr e with e2 | e2 | e2 <;> simp [e2]
    · simp [e]
  have hcheck : (accepted s h).checked op h ps false run = run ps (accepted s h) := by
    have hses : (!((accepted s h).master h.iface.master).session && !(decide (1 ≤ op) && decide (op ≤ 4))) = false := by
      rcases hs with e | e
      · simp [accepted, e]
      · simp [e.1, e.2]
    have hj : (accepted s h).joined (op, h, ps) = (op, h, ps) := by simp [State.joined, accepted, ha]
    have ht' : (accepted s h).twin? h = none := by simpa [State.twin?, accepted] using ht
    have he' : (accepted s h).entryWins (op, h, ps) = none := by simpa [State.entryWins, accepted] using he
    have hcc : (accepted s h).conflictCheck (op, h, ps) = .ok (accepted s h) :=
      State.conflictCheck_ok (by simpa [accepted] using hd) he' fun q hm => by
        rw [accepted, State.joined_accept]
        exact (hq q (by simpa [accepted] using hm)).1
    have has : (accepted s h).assemble op h ps false run = run ps (accepted s h) := by
      simp [State.assemble, accepted, ha]
    have hid := State.leftFor_none (s := accepted s h) (p := (op, h, ps)) (run ps (accepted s h)) fun q hm => by
        rw [accepted, State.joined_accept]
        exact (hq q (by simpa [accepted] using hm)).2
    have hb' : (accepted s h).power.boot = .ready := by simp [accepted, hb]
    simp only [State.checked, hk, hses, State.judged, hj, hcc, ht', hb']
    simpa [has] using hid
  simp only [State.command, hh, hwake, hl, hg, hm, State.dispatch, State.route, hroot, hv, State.execute, State.sequenced,
    hc, hf]
  simp only [Bool.not_true, Bool.false_eq_true, if_false, Option.any_none]
  exact congrArg _ hcheck

/-- R358: a finished answer of the command's own part without a later effect. -/
theorem State.finish_answer (op : Nat) (h : Hdr) (st : Status) (c : Option Word) (rep : Bool) (params : List Byte)
    (s : State) :
    State.finish op h ⟨st, params, c, rep, s, id⟩ = answered op h s st (c.getD h.context) rep params := rfl

end Sys2Proof.Machine
end

