-- ==== Sys2Proof/Tests/Slice0.lean ====
section
/-!
SUPPORT. The model's own tests: ill-formed instructions that the checks refuse, a state and operands that meet the premises of
every statement, and single steps with results taken from the specification.
-/
namespace Sys2Proof.Tests

open Sys2Proof Sys2Proof.Machine Sys2Proof.Safety

set_option Elab.async false

/-! ### States that the witnesses start from -/

/-- A master with an open session. -/
def master (i : Iface) : MasterState :=
  { MasterState.fresh i with session := true, eventMask := 0x3F, dest := ⟨[10, 0, 0, 1], 41730⟩, newest := some 100 }

/-- The state after reset with the sessions of both masters open. -/
def base : State :=
  { State.reset with proto := { Proto.fresh with host := master .hostLink, mgmt := master .wakeBus } }

/-- A header of the host with SEQUENCE 101 and a CONTEXT. -/
def hdr (context : Nat) : Hdr :=
  { iface := .hostLink, src := ⟨[10, 0, 0, 1], 41730⟩, seq := 101, device := 0, context := BitVec.ofNat 32 context, hostTag := 7 }

/-- A Committed model 9 of 2 MiB at model offset 0 with its one segment. -/
def model9 : Model :=
  { id := 9, bytes := 2097152, base := 0, encrypted := false, keyId := 0, committed := true,
    segments := [(0, zeros 32)], plain := [], hot := [], programs := [] }

/-- HALT (R112). -/
def haltCard : Card := 0x3F000000000000000000000000000000#128

/-- R114 to R116: a deck of one position on dent 0, of one way, with the given streams, and waves that bound them. -/
def deckBytes (fetch execute : List Card) : List Byte :=
  let f := fetch.flatMap fun c => leBytes 16 c.toNat
  let e := execute.flatMap fun c => leBytes 16 c.toNat
  let head := leBytes 4 0x594C4443 ++ leBytes 2 1 ++ leBytes 2 256 ++ leBytes 4 (320 + f.length + e.length) ++ leBytes 2 1
    ++ leBytes 2 1 ++ leBytes 8 1000 ++ leBytes 8 4 ++ zeros 40 ++ leBytes 16 0xD1 ++ leBytes 4 256 ++ leBytes 4 288
    ++ leBytes 4 0 ++ leBytes 4 288 ++ leBytes 4 24 ++ leBytes 4 320 ++ leBytes 4 (f.length + e.length) ++ zeros 136
  let dir := leBytes 4 320 ++ leBytes 4 fetch.length ++ leBytes 4 (320 + f.length) ++ leBytes 4 execute.length
    ++ leBytes 4 1000 ++ zeros 4 ++ [1, 0] ++ zeros 2 ++ leBytes 4 1000
  let place := leBytes 8 1 ++ leBytes 2 0 ++ zeros 2 ++ leBytes 4 0 ++ [0] ++ zeros 7
  head ++ leBytes 4 (crc32c head).toNat ++ dir ++ place ++ zeros 8 ++ f ++ e

/-- The deck that only halts. -/
def haltDeck : List Byte := deckBytes [haltCard] [haltCard]

/-- The state with model 9, whose bytes begin with a deck. -/
def withDeckBytes (d : List Byte) : State :=
  ({ base with sched := { Sched.fresh with models := [model9] } }).modelWrite 0 d

/-- The deck of one position as loaded under number 1. -/
def deck1 (d : List Byte) : Deck :=
  { number := 1, model := 9, offset := 0, length := d.length, binds := [], image := deckImage d }

/-- The state with deck 1 loaded. -/
def withDeck (d : List Byte) : State :=
  let s := withDeckBytes d
  { s with sched := { s.sched with decks := [deck1 d] } }

/-- A job 5 of a deck, as it waits. -/
def job5 (d : List Byte) : Job := (Job.entering 5 0 .plain).withDeck (deck1 d) false

/-- The state with the waiting job 5 of the deck. -/
def withJob (d : List Byte) : State :=
  let s := withDeck d
  { s with sched := { s.sched with jobs := [job5 d] } }

/-- Job 5 Ready with a result of two bytes. -/
def readyJob : Job := { job5 haltDeck with ready := true, result := [1, 2] }

/-- The state with the Ready job 5. -/
def withReady : State :=
  let s := withDeck haltDeck
  { s with sched := { s.sched with jobs := [readyJob] } }

/-- A stream 3 of 48 kHz samples on cluster 0, Shuttle 0. -/
def stream3 : Stream :=
  { Stream.opened 3 (ShuttleCtx.opened 77 (zeros 32) []) with rate := 48000, slot := some 0, saveVault := 16 }

/-- The state with stream 3. -/
def withStream (t : Stream) : State := { base with audio := { Audio.fresh with streams := [t] } }

/-- An ingress stream 4 of input 0, left channel, with frames of 64 samples. -/
def ingress4 : Ingress :=
  { id := 4, port := 0, channel := 0, curve := 0, frameSamples := 64, repair := 0, gain := 0x3F800000, rampFrom := none,
    statsEvery := 0, saveVault := 50, saveBlock := 0, input := [], d := 0, prevY := none, lastOut := 0, run := .none,
    fadeIn := 0, sections := List.replicate 8 (0, 0), frame := 0, pos := 0, processed := 0, outs := [], clicks := 0,
    dropouts := 0, settled := false, lockFlag := false, lockLost := false, settings := [], taps := [],
    ring := Ring.start 0xFF 0x01000000000 2 4, stats := [(0, zeros 32)] }

/-- The state with ingress stream 4. -/
def withIngress : State := { base with audio := { Audio.fresh with ingress := [ingress4] } }

/-- R199: a step program 77 of the given micro-steps, with 4 state words and 4 FP32 conditioning values. -/
def programBytes (steps : List Card) : List Byte :=
  let waves := steps.map (microWaves Factory.table1)
  let fill := (waves.map (·.2)).foldl (· + ·) 0
  let head := leBytes 4 0x53545031 ++ leBytes 2 1 ++ leBytes 2 steps.length ++ leBytes 4 77
    ++ leBytes 2 (fill + (waves.map (·.1)).foldl (· + ·) 0) ++ leBytes 2 fill ++ leBytes 2 4 ++ [7, 0] ++ zeros 32 ++ leBytes 2 4
    ++ zeros 2 ++ leBytes 4 0 ++ leBytes 4 128 ++ leBytes 4 (128 + 16 * steps.length) ++ leBytes 4 0 ++ zeros 52
  head ++ leBytes 4 (crc32c head).toNat ++ steps.flatMap (fun c => leBytes 16 c.toNat) ++ zeros 16

/-- OUT of word 0, and END (R201). -/
def outCard : Card := 0x05000000000000000000000000000000#128
def endCard : Card := 0x0F000000000000000000000000000000#128

/-- The state with model 9, whose bytes are a program, and some streams. -/
def withProgram (steps : List Card) (ts : List Stream) : State :=
  ({ base with
      sched := { Sched.fresh with models := [{ model9 with programs := [0] }] },
      audio := { Audio.fresh with streams := ts } }).modelWrite 0 (programBytes steps)

/-! ### Deciding the premises -/

/-- What `Takes` says, as a Boolean. -/
def takesNow (s : State) (op : Nat) (h : Hdr) (ps : List Byte) : Bool := decide (Takes s op h ps)

theorem takes_iff (s : State) (op : Nat) (h : Hdr) (ps : List Byte) : Takes s op h ps ↔ takesNow s op h ps = true :=
  decide_eq_true_iff.symm

/-! ### States in which a context runs -/

/-- A card of an operation code with fields at their lowest bits. -/
def mkCard (op : Nat) (fs : List (Nat × Nat)) : Card :=
  BitVec.ofNat 128 ((fs.map fun f => f.2 * 2 ^ f.1).foldl (· + ·) (op * 2 ^ 120))

/-- A resident context of job 5 on Loom 0, in slot 0, with one way. -/
def ctx5 : Ctx :=
  { Ctx.fresh 5 0 0 (Arch.initial 0 0) with
    place := .resident 0 0, ways := [some 0], units := [], knotPlaced := true, blockedF := false, blockedE := false }

/-- Job 5 as it runs. -/
def started5 (d : List Byte) : Job := { job5 d with started := true, alternative := some 0 }

/-- The state in which job 5 runs. -/
def running (d : List Byte) (c : Ctx) : State :=
  let s := withDeck d
  { s with sched := { s.sched with jobs := [started5 d], ctxs := [c] } }

/-- The context of job 5 as a choice finds it. -/
def found (s : State) : Ctx := ((s.refresh 0).resident? 0 0).getD ctx5

/-! ### Premises that are met: sessions, models, memory, decks, jobs -/

theorem witness_SessionCommandsComplete :
    (Takes base 0x0001 (hdr 0) [0, 63, 0, 0] ∧ be [0, 63, 0, 0] 0 2 < 64 ∧ zeroAt [0, 63, 0, 0] 2 2 = true) ∧
    Takes base 0x0002 (hdr 0) [] ∧ (Takes base 0x0003 (hdr 0) (zeros 8960) ∧ (zeros 8960).length ≤ 8960) ∧
    Takes base 0x0004 (hdr 0) [] ∧
    (Takes base 0x0005 (hdr 0) [1, 0, 0, 0] ∧ be [1, 0, 0, 0] 0 1 ≤ 1 ∧ zeroAt [1, 0, 0, 0] 1 3 = true) := by
  simp only [takes_iff]
  refine ⟨by decide +kernel, by decide +kernel, ⟨by decide +kernel, (List.length_replicate ..).le⟩, by decide +kernel,
    by decide +kernel⟩

/-- A loading model of two segments, none present, and one that is complete. -/
def loading9 : Model := { model9 with bytes := 2097153, committed := false, segments := [] }
def complete9 : Model := { model9 with bytes := 16384, committed := false, segments := [(0, zeros 32)] }

/-- A loading encrypted model of one byte, under key 5. -/
def secret9 : Model :=
  { model9 with bytes := 1, committed := false, encrypted := true, keyId := 5, segments := [] }

/-- Model key 5 installed. -/
def keyed (s : State) : State := { s with bark := { s.bark with modelKeys := [(5, zeros 32)] } }

/-- R379: the tag of segment 0 of that model with these bytes. -/
def secretTag (data : List Byte) : List Byte :=
  Crypto.gcmTag (zeros 32) (beBytes 4 9 ++ beBytes 4 0 ++ beBytes 4 5) (beBytes 8 1 ++ beBytes 4 1) data

/-- The state with one model. -/
def withModel (m : Model) : State := { base with sched := { Sched.fresh with models := [m] } }

set_option maxRecDepth 100000 in
theorem witness_ModelLoadingCompletes :
    (let ps := [0, 0, 0, 0] ++ beBytes 4 9 ++ beBytes 8 2097153 ++ zeros 8
     Takes base 0x0101 (hdr 0) ps ∧ ps.length = 24 ∧ be ps 0 1 = 0 ∧ be ps 1 1 = 0 ∧ zeroAt ps 2 2 = true ∧ be ps 4 4 ≠ 0 ∧
     1 ≤ be ps 8 8 ∧ be ps 8 8 ≤ 2 ^ 41 - 2 ^ 21 ∧ be ps 16 4 = 0 ∧ zeroAt ps 20 4 = true ∧ base.model? 9 = none ∧
     base.modelPlace (be ps 8 8) = some 0 ∧ base.sched.models.length < 64) ∧
    (let ps := [0, 1, 0, 0] ++ beBytes 4 9 ++ beBytes 8 2097153 ++ zeros 8
     let s := withModel loading9
     Takes s 0x0101 (hdr 0) ps ∧ ps.length = 24 ∧ be ps 0 1 = 0 ∧ be ps 1 1 = 1 ∧ zeroAt ps 2 2 = true ∧ be ps 4 4 ≠ 0 ∧
     1 ≤ be ps 8 8 ∧ be ps 16 4 = 0 ∧ zeroAt ps 20 4 = true ∧ s.model? (BitVec.ofNat 32 (be ps 4 4)) = some loading9 ∧
     loading9.committed = false ∧ loading9.encrypted = false ∧ loading9.bytes = be ps 8 8 ∧ loading9.keyId = 0) ∧
    (let ps := [1, 0, 0, 0] ++ beBytes 4 9 ++ beBytes 4 1 ++ beBytes 4 1 ++ Crypto.digest [0xAB] ++ zeros 16 ++ [0xAB]
     let s := withModel loading9
     Takes s 0x0101 (hdr 0) ps ∧ s.model? loading9.id = some loading9 ∧ be ps 0 1 = 1 ∧ zeroAt ps 1 3 = true ∧
     be ps 4 4 = loading9.id.toNat ∧ be ps 8 4 < segmentsOf loading9.bytes ∧
     be ps 12 4 = loading9.segmentLen (be ps 8 4) ∧ ps.length = 64 + be ps 12 4 ∧
     Crypto.digest (ps.drop 64) = slice ps 16 32 ∧ zeroAt ps 48 16 = true ∧ loading9.has (be ps 8 4) = false ∧
     ({ loading9 with segments := [(1, zeros 32)] } : Model).has (be ps 8 4) = true) ∧
    (let ps := [0, 2, 0, 0] ++ beBytes 4 9 ++ beBytes 8 1 ++ beBytes 4 5 ++ zeros 4
     let s := keyed base
     Takes s 0x0101 (hdr 0) ps ∧ bitOf (be ps 1 1) 1 = true ∧ (s.modelKey? (BitVec.ofNat 32 (be ps 16 4))).isSome = true ∧
     s.model? (BitVec.ofNat 32 (be ps 4 4)) = none ∧ s.modelPlace (be ps 8 8) = some 0) ∧
    (let ps := [1, 0, 0, 0] ++ beBytes 4 9 ++ beBytes 4 0 ++ beBytes 4 1 ++ Crypto.digest [0xAB] ++ secretTag [0xAB] ++ [0xAB]
     let s := keyed (withModel secret9)
     Takes s 0x0101 (hdr 0) ps ∧ s.model? secret9.id = some secret9 ∧ be ps 12 4 = secret9.segmentLen (be ps 8 4) ∧
     ps.length = 64 + be ps 12 4 ∧ Crypto.digest (ps.drop 64) = slice ps 16 32 ∧
     ((s.modelKey? secret9.keyId).bind fun k => openSegment secret9 k (be ps 8 4) (slice ps 48 16) (ps.drop 64)).isSome = true) ∧
    (let ps := [2, 0, 0, 0] ++ beBytes 4 9 ++ beBytes 2 1 ++ beBytes 2 0 ++ zeros 4 ++ beBytes 8 8192 ++ beBytes 8 8192
       ++ beBytes 8 1
     let s := withModel complete9
     Takes s 0x0101 (hdr 0) ps ∧ s.model? complete9.id = some complete9 ∧ ps.length = 16 + 24 * be ps 8 2 + 8 * be ps 10 2 ∧
     be ps 0 1 = 2 ∧ zeroAt ps 1 3 = true ∧ be ps 4 4 = complete9.id.toNat ∧ be ps 8 2 = 1 ∧ be ps 10 2 = 0 ∧
     zeroAt ps 12 4 = true ∧ complete9.committed = false ∧ complete9.missing = [] ∧
     (∀ x ∈ hotEntries ps 1, x.offset % 8192 = 0 ∧ x.length % 8192 = 0 ∧ x.offset + x.length ≤ complete9.bytes) ∧
     hotEntries ps 1 ≠ [] ∧ s.programsOf { complete9 with hot := hotEntries ps 1 } = [] ∧
     ∀ d < 64, hotBytes (hotEntries ps 1) d ≤ 64 * 2 ^ 20 * fld s.units.layout 3 0) ∧
    (let ps := beBytes 4 9 ++ beBytes 4 0 ++ beBytes 4 1
     let m : Model := { model9 with bytes := 1, segments := [(0, Crypto.digest [0])] }
     Takes (withModel m) 0x0102 (hdr 0) ps ∧ ps.length = 12 ∧ be ps 0 4 = m.id.toNat ∧ 1 ≤ be ps 8 4 ∧
     be ps 4 4 + be ps 8 4 ≤ segmentsOf m.bytes ∧ (withModel m).badSegments m (be ps 4 4) (be ps 8 4) = [] ∧
     let bad : Model := { m with segments := [(0, zeros 32)] }
     (withModel bad).badSegments bad (be ps 4 4) (be ps 8 4) = [0]) ∧
    (Takes (withModel model9) 0x0103 (hdr 0) (beBytes 4 9) ∧ be (beBytes 4 9) 0 4 = model9.id.toNat ∧
      (withModel model9).modelBusy model9 = false) := by
  simp only [takes_iff]; refine ⟨?_, ?_, ?_, ?_, ?_, ?_, ?_, ?_⟩ <;> decide +kernel

set_option maxRecDepth 100000 in
theorem witness_MemoryCommandsComplete :
    (let ps := [0, 0, 0, 0] ++ beBytes 8 0x01000000000 ++ beBytes 4 2 ++ [1, 2]
     Takes base 0x0104 (hdr 0) ps ∧ ps.length = 18 ∧ be ps 0 1 = 0 ∧ zeroAt ps 1 3 = true ∧ be ps 12 4 = 2 ∧
     base.direct (be ps 4 8) 2 = some ((false, 0), .vault 0) ∧ base.memBusy (false, 0) = false) ∧
    (let ps := [1, 0, 0, 0] ++ zeros 8 ++ beBytes 4 8 ++ beBytes 8 (4 * 2 ^ 28 + 8)
     Takes base 0x0104 (hdr 0) ps ∧ ps.length = 24 ∧ be ps 0 1 = 1 ∧ zeroAt ps 1 3 = true ∧ be ps 4 8 = 0 ∧ be ps 12 4 = 8 ∧
     memLayoutOk (BitVec.ofNat 64 (beNat (ps.drop 16))) = true) ∧
    (let ps := [0, 0, 0, 0] ++ beBytes 8 0x04000000000 ++ beBytes 4 8960
     Takes base 0x0105 (hdr 0) ps ∧ ps.length = 16 ∧ be ps 0 1 = 0 ∧ zeroAt ps 1 3 = true ∧ be ps 12 4 = 8960 ∧
     base.direct (be ps 4 8) 8960 = some ((true, 0), .chan 0) ∧ base.memBusy (true, 0) = false) ∧
    (let ps := [1, 0, 0, 0] ++ zeros 8 ++ beBytes 4 8
     Takes base 0x0105 (hdr 0) ps ∧ ps.length = 16 ∧ be ps 0 1 = 1 ∧ zeroAt ps 1 3 = true ∧ be ps 4 8 = 0 ∧
     be ps 12 4 = 8) := by
  simp only [takes_iff]; decide +kernel

set_option maxRecDepth 100000 in
theorem witness_DeckCommandsComplete :
    (let s := withDeckBytes haltDeck
     let ps := beBytes 4 9 ++ beBytes 8 0 ++ beBytes 4 haltDeck.length ++ [0] ++ zeros 3
     Takes s 0x0106 (hdr 0) ps ∧ ps.length = 20 + 4 * be ps 16 1 ∧ zeroAt ps 17 3 = true ∧
     s.model? (BitVec.ofNat 32 (be ps 0 4)) = some model9 ∧ model9.committed = true ∧ be ps 4 8 % 16 = 0 ∧
     be ps 4 8 + be ps 12 4 ≤ model9.bytes ∧
     s.deckFault (s.modelRead (model9.base + be ps 4 8) (be ps 12 4)) (be ps 12 4) = none ∧ s.bindFault [] = none ∧
     s.sched.decks = [] ∧ s.freeDeck = some 1) ∧
    (let s := withDeck haltDeck
     Takes s 0x0107 (hdr 1) [] ∧ (s.deck? (hdr 1).context.toNat).isSome = true ∧ s.sched.jobs = [] ∧ s.audio.streams = []) := by
  simp only [takes_iff]; decide +kernel

/-- A JOB_SUBMIT of a plain job of deck 1 with a result of 64 bytes, and one of a batch. -/
def submitPs (kind : Byte) : List Byte :=
  beBytes 4 1 ++ [7, kind, 0, 0] ++ zeros 24 ++ beBytes 8 0x00000000000 ++ beBytes 4 64 ++ zeros 28

set_option maxRecDepth 100000 in
theorem witness_JobSubmitAndCancelComplete :
    (∀ k ∈ ([0, 1] : List Byte),
     let s := withDeck haltDeck
     let ps := submitPs k
     Takes s 0x0201 (hdr 0) ps ∧ ps.length = 72 + 4 * be ps 64 4 ∧ firstBad (s.jobChecks ps) = none ∧
     be ps 24 1 = s.deviceNo ∧ be ps 24 1 = 0 ∧
     s.submitMissing (be ps 5 1) (s.deck? (be ps 0 4)) (BitVec.ofNat 32 (be ps 16 4)) (BitVec.ofNat 32 (be ps 20 4)) = false ∧
     s.sched.jobs = [] ∧ s.audio.streams = [] ∧ s.jobLimit (be ps 4 1) = false ∧ s.freeTokenPort.isSome = true ∧
     (State.allocBlocks (ceilDiv (be ps 40 4) blockBytes) 3 (accepted s (hdr 0))).isSome = true) ∧
    (Takes withReady 0x0202 (hdr 5) [] ∧ withReady.job? (hdr 5).context = some readyJob ∧ readyJob.ready = true) ∧
    (Takes (withJob haltDeck) 0x0202 (hdr 5) [] ∧ (withJob haltDeck).job? (hdr 5).context = some (job5 haltDeck) ∧
      (job5 haltDeck).ready = false) := by
  simp only [takes_iff]; decide +kernel

set_option maxRecDepth 100000 in
theorem witness_ResultAndShareCommandsComplete :
    (withReady.job? (hdr 5).context = some readyJob ∧ readyJob.ready = true ∧ Takes withReady 0x0203 (hdr 5) [] ∧
      (∀ off ∈ [0, 2],
       let ps := beBytes 4 off ++ beBytes 4 8944
       Takes withReady 0x0204 (hdr 5) ps ∧ ps.length = 8 ∧ 1 ≤ be ps 4 4 ∧ be ps 4 4 ≤ 8944 ∧
         be ps 0 4 ≤ readyJob.result.length) ∧ Takes withReady 0x0205 (hdr 5) []) ∧
    ((withJob haltDeck).job? (hdr 5).context = some (job5 haltDeck) ∧
      Takes (withJob haltDeck) 0x0204 (hdr 5) (zeros 7 ++ [1]) ∧ (job5 haltDeck).ready = false) ∧
    (∀ op ∈ ([0, 1, 2, 3] : List Byte),
      let ps := [op, 255, 0, 0] ++ beBytes 2 4096 ++ zeros 2 ++ beBytes 8 (8 * 2 ^ 40 + 256 * 2 ^ 16 + 240)
      Takes base 0x0206 (hdr 0) ps ∧ ps.length = 16 ∧ zeroAt ps 6 2 = true ∧ be ps 0 1 = op.toNat ∧
      maxJobsOk (be ps 4 2) = true ∧ schedConfigOk (BitVec.ofNat 64 (be ps 8 8)) = true) ∧
    (Takes base 0x0207 (hdr 0) [255, 0, 1, 1] ∧ 1 ≤ (1 : Half).toNat ∧ (255 : Byte).toNat + (1 : Half).toNat ≤ 256) := by
  simp only [takes_iff]; decide +kernel

/-! ### Premises that are met: streams, ports, carding -/

/-- A STREAM_OPEN of program 77 at 48 kHz, without a deck, with or without its own key. -/
def openPs (own : Byte) : List Byte := beBytes 4 48000 ++ beBytes 4 77 ++ beBytes 4 0 ++ [1, own, 1, 0] ++ zeros 40

set_option maxRecDepth 100000 in
theorem witness_StreamOpenCompletes :
    ∀ own ∈ ([0, 1] : List Byte),
      let s := withProgram [outCard, endCard] []
      let ps := openPs own
      Takes s 0x0301 (hdr 0) ps ∧ ps.length = 56 ∧ streamRate (be ps 0 4) = true ∧
      (s.program? (BitVec.ofNat 32 (be ps 4 4))).isSome = true ∧ be ps 13 1 ≤ 1 ∧
      feedAddrOk (be ps 8 4) (be ps 16 8) = true ∧ (be ps 13 1 = 0 → zeroAt ps 24 32 = true) ∧ be ps 8 4 = 0 ∧
      s.phase ≠ 1 ∧ s.phase ≠ 3 ∧ s.audio.streams.length < 8192 ∧
      s.placeStream (be ps 0 4) (BitVec.ofNat 32 (be ps 4 4)) 0 (fun _ _ => true) = some (0, 0) ∧
      ((accepted s (hdr 0)).allocSave 0 1).isSome = true := by
  simp only [takes_iff]; decide +kernel

set_option maxRecDepth 100000 in
theorem witness_StreamFeedCommandsComplete :
    (∀ t ∈ [stream3, { stream3 with feed := [1] }], (withStream t).stream? (hdr 3).context = some t ∧ t.id = (hdr 3).context ∧
      (let ps := [0, 1, 0, 0] ++ beBytes 4 9
       Takes (withStream t) 0x0302 (hdr 3) ps ∧ ps.length = 4 + 4 * be ps 0 2 ∧ 1 ≤ be ps 0 2 ∧ be ps 0 2 ≤ 2232 ∧
       zeroAt ps 2 2 = true ∧ t.eos = false ∧ t.feed.length + be ps 0 2 ≤ 65536) ∧
      (∀ k ∈ ([0, 1] : List Byte), Takes (withStream t) 0x0303 (hdr 3) [k, 0, 0, 0] ∧ be [k, 0, 0, 0] 0 1 = k.toNat ∧
        zeroAt [k, 0, 0, 0] 1 3 = true ∧ t.phrases.length < 64) ∧
      Takes (withStream t) 0x0304 (hdr 3) [] ∧ Takes (withStream t) 0x0307 (hdr 3) []) ∧
    stream3.feed = [] := by
  simp only [takes_iff]; decide +kernel

set_option maxRecDepth 100000 in
theorem witness_StreamRouteAndFallbackComplete :
    (let t := { stream3 with openProgram := 77 }
     let s := withProgram [outCard, endCard] [t]
     s.stream? (hdr 3).context = some t ∧ t.id = (hdr 3).context ∧
     (∀ move ∈ ([0, 1] : List Byte),
       let ps := [0, move, 0xFF, 0xFF] ++ zeros 24
       Takes s 0x0305 (hdr 3) ps ∧ ps.length = 28 ∧ be ps 0 1 = 0 ∧ be ps 1 1 = move.toNat ∧
       be ps 2 1 = 0xFF ∧ be ps 3 1 = 0xFF ∧ (s.routeAsked t ps).toBool = true ∧ (s.moveAsked t ps).toBool = true)) ∧
    (let t := { stream3 with openProgram := 78 }
     let s := withStream t
     s.stream? (hdr 3).context = some t ∧ t.current ≠ t.openProgram ∧
     ∀ f ∈ ([1, 2, 4, 5, 6] : List Byte),
       let ps := [f, 0] ++ beBytes 2 8191 ++ beBytes 2 8190
       Takes s 0x0306 (hdr 3) ps ∧ ps.length = 6 ∧ zeroAt ps 1 1 = true ∧ be ps 0 1 = f.toNat ∧ 1 ≤ be ps 2 2 ∧
       be ps 2 2 ≤ 8191 ∧ be ps 4 2 < be ps 2 2) := by
  simp only [takes_iff]; decide +kernel

set_option maxRecDepth 100000 in
theorem witness_PortCommandsComplete :
    (let ps := [31, 0, 0, 0] ++ beBytes 8 Factory.reedConfig.toNat
     Takes base 0x0401 (hdr 0) ps ∧ be ps 0 1 < 32 ∧ be ps 1 1 = 0 ∧ be ps 2 1 = 0 ∧ zeroAt ps 3 1 = true ∧
     ps.length = 4 + recordBytes (be ps 2 1) ∧ base.recordOk (be ps 0 1) (be ps 2 1) (ps.drop 4) = true ∧
     (base.reed (be ps 0 1)).running = false) ∧
    (∀ r ∈ ([0, 1] : List Byte), Takes base 0x0401 (hdr 0) [0x40, 1, r, 0] ∧ be [0x40, 1, r, 0] 0 1 = 0x40 ∧
      be [0x40, 1, r, 0] 2 1 = r.toNat ∧ be [0x40, 1, r, 0] 1 1 = 1) ∧
    (Takes base 0x0402 (hdr 0) [0, 0, 0, 1] ∧ be [0, 0, 0, 1] 0 4 ≠ 0 ∧ portsOf 1 = [0] ∧ (base.reed 0).running = false ∧
      base.domainOn (reedDomain 0) = true) ∧
    (Takes base 0x0403 (hdr 0) [255, 255, 255, 255] ∧ be [255, 255, 255, 255] 0 4 ≠ 0) ∧
    ∀ n ∈ ([0, 31, 0x20, 0x23, 0x40] : List Byte), Takes base 0x0404 (hdr 0) [n, 0, 0, 0] ∧ zeroAt [n, 0, 0, 0] 1 3 = true ∧
      be [n, 0, 0, 0] 0 1 = n.toNat := by
  simp only [takes_iff]; decide +kernel

set_option maxRecDepth 100000 in
theorem witness_CardConfigCompletes :
    (let ps := [0, 15, 1, 0] ++ beBytes 2 64 ++ [7, 0] ++ beBytes 4 0x3F800000 ++ beBytes 8 0x01000000000 ++ beBytes 2 2
       ++ zeros 6
     Takes base 0x0501 (hdr 0) ps ∧ ps.length = 28 ∧ be ps 0 1 = 0 ∧ be ps 1 1 < 16 ∧ be ps 2 1 ≤ 1 ∧ be ps 3 1 ≤ 31 ∧
     base.curveUsed (be ps 3 1) = true ∧ 64 ≤ be ps 4 2 ∧ be ps 4 2 ≤ 4096 ∧ be ps 4 2 % 64 = 0 ∧ be ps 6 1 < 8 ∧
     zeroAt ps 7 1 = true ∧ gainOk (BitVec.ofNat 32 (be ps 8 4)) = true ∧
     base.ringFits (be ps 12 8) (be ps 20 2) (be ps 4 2) 4 = true ∧ zeroAt ps 24 4 = true ∧ base.domainOn 111 = true ∧
     base.audio.ingress = [] ∧ ((accepted base (hdr 0)).allocSave 2 2).isSome = true) ∧
    (Takes withIngress 0x0501 (hdr 4) (1 :: zeros 27) ∧ be (1 :: zeros 27) 0 1 = 1 ∧
      withIngress.ingress? (hdr 4).context = some ingress4) := by
  simp only [takes_iff]; decide +kernel

set_option maxRecDepth 100000 in
theorem witness_CardingCommandsComplete :
    withIngress.ingress? (hdr 4).context = some ingress4 ∧ ingress4.id = (hdr 4).context ∧
    (∀ target ∈ [0, 5],
      let ps := beBytes 4 target ++ beBytes 4 0x3F800000 ++ [0xFF, 1, 0, 0]
      Takes withIngress 0x0502 (hdr 4) ps ∧ ps.length = 12 ∧ be ps 9 1 = 1 ∧
      gainOk (BitVec.ofNat 32 (be ps 4 4)) = true ∧ be ps 8 1 = 0xFF ∧ zeroAt ps 10 2 = true ∧ ingress4.settings = [] ∧
      (let g := { ingress4 with settings := [⟨5, none, some 0⟩] }
       let s := { withIngress with audio := { withIngress.audio with ingress := [g] } }
       Takes s 0x0502 (hdr 4) ps ∧ s.ingress? (hdr 4).context = some g ∧ ((5 : Word) - g.nextFrame).toNat < 2 ^ 31)) ∧
    (∀ point ∈ ([0, 3] : List Byte),
      let ps := [0, point] ++ beBytes 2 1024 ++ zeros 4 ++ beBytes 8 0x01000000000
      Takes withIngress 0x0503 (hdr 4) ps ∧ ps.length = 16 ∧ be ps 1 1 ≤ 3 ∧ zeroAt ps 4 4 = true ∧ be ps 0 1 = 0 ∧
      be ps 2 2 ≤ 1024 ∧
      withIngress.ringFits (be ps 8 8) (be ps 2 2) ingress4.frameSamples (withIngress.tapBytes ingress4 (be ps 1 1)) = true ∧
      ingress4.taps = []) ∧
    Takes withIngress 0x0503 (hdr 4) ([1, 0] ++ zeros 14) ∧
    (∀ n ∈ [0, 0xFFFFFFFF], Takes withIngress 0x0504 (hdr 4) (beBytes 4 n) ∧ be (beBytes 4 n) 0 4 = n) ∧
    ingress4.stats.getLast? = some (0, zeros 32) ∧
    (ingress4.stats.find? fun q => q.1 == BitVec.ofNat 32 (be (beBytes 4 0) 0 4)) = some (0, zeros 32) := by
  simp only [takes_iff]; decide +kernel

/-! ### Premises that are met: power, security, debug, recorder, tables, settings, system -/

set_option maxRecDepth 100000 in
theorem witness_DomainCommandsComplete :
    (Takes base 0x0602 (hdr 0) [0, 0, 0, 111] ∧ zeroAt [0, 0, 0, 111] 1 1 = true ∧ be [0, 0, 0, 111] 2 2 = 111 ∧
      base.offRefusal 111 = none) ∧
    Takes base 0x0602 (hdr 0) [1, 0, 0, 128] ∧ Takes base 0x0602 (hdr 0) [2, 0, 255, 255] ∧
    (∀ ps ∈ ([[0xFF, 0xFF, 0, 0], [0, 111, 0, 0]] : List (List Byte)),
      Takes base 0x0603 (hdr 0) ps ∧ zeroAt ps 2 2 = true) ∧
    base.power.powered.getLsbD 111 = true := by
  simp only [takes_iff]; decide +kernel

/-- R422: voltage policies from 550 mV to 850 mV, of MODE 0, and of MODE 1 with the least target. -/
def policy0 : DWord := BitVec.ofNat 64 (550 * 2 ^ 54 + 850 * 2 ^ 44)
def policy1 : DWord := BitVec.ofNat 64 (550 * 2 ^ 54 + 850 * 2 ^ 44 + 2 ^ 42 + 2 ^ 21)

set_option maxRecDepth 100000 in
/-- The pace grid of a part is its own, so that the premise of MODE 1 stands on the pace at 850 mV. -/
theorem witness_PowerCommandsComplete (hp : (1 : Rat) ≤ paceAt 850 base.hottest) :
    (Takes base 0x0601 (hdr 0) [4, 0, 0, 0] ∧ be [4, 0, 0, 0] 0 1 ≠ base.power.state.code ∧ base.sched.jobs = []) ∧
    (Takes (withJob haltDeck) 0x0601 (hdr 0) [4, 1, 0, 0] ∧ be [4, 1, 0, 0] 1 1 = 1) ∧
    (Takes base 0x0601 (hdr 0) [0xFF, 0, 0, 0] ∧ Takes base 0x0601 (hdr 0) [0, 0, 0, 0] ∧
      be [0, 0, 0, 0] 0 1 = base.power.state.code) ∧
    (∀ n ∈ [policy0.toNat, policy1.toNat],
      let ps := zeros 4 ++ beBytes 8 n; let v : DWord := BitVec.ofNat 64 n
      Takes base 0x0604 (hdr 0) ps ∧ ps.length = 12 ∧ be ps 0 1 = 0 ∧ zeroAt ps 1 3 = true ∧ BitVec.ofNat 64 (be ps 4 8) = v ∧
      voltagePolicyOk v = true) ∧
    fld policy0 43 42 ≠ 1 ∧
    (¬ paceAt (fld policy1 53 44) base.hottest < (fld policy1 41 21 : Rat)) ∧
    Takes base 0x0604 (hdr 0) [1, 0, 0, 0] ∧
    (∀ w ∈ ([120, 560] : List Nat), Takes base 0x0605 (hdr 0) (beBytes 2 w ++ zeros 2) ∧ ceilingOk w = true ∧
      be (beBytes 2 w ++ zeros 2) 0 2 = w) ∧
    Takes base 0x0605 (hdr 0) (zeros 4) := by
  simp only [takes_iff]
  refine ⟨by decide +kernel, by decide +kernel, by decide +kernel, by decide +kernel, by decide +kernel, ?_, by decide +kernel,
    by decide +kernel, by decide +kernel⟩
  have h1 : fld policy1 53 44 = 850 := by decide +kernel
  have h2 : fld policy1 41 21 = 1 := by decide +kernel
  simp only [h1, h2]
  exact fun h => absurd (lt_of_lt_of_le h (by simpa using hp)) (lt_irrefl _)

/-- R505: a trailer of zeros, and what an object in front of it needs: its signer's digest, and its signature. -/
def trailer : List Byte := zeros 3073
def Verified (o : List Byte) : Prop :=
  Config.falconVerify (signerOf o) (o.take (o.length - 1280)) (o.drop (o.length - 1280)) = true

theorem signedBy_of (o d : List Byte) (hl : trailerBytes ≤ o.length) (hd : d = Crypto.digest (signerOf o)) (hv : Verified o) :
    signedBy [d] o = true := by
  subst hd; simp only [Verified] at hv; simp [signedBy, hl, hv]

theorem slice_middle (a b c : List Byte) (n m : Nat) (ha : a.length = n) (hb : b.length = m) :
    slice (a ++ (b ++ c)) n m = b := by
  subst ha hb; simp [slice]

/-- R512: an envelope that empties slot 3 of KIND 1, of generation 1. -/
def envelope0 : List Byte :=
  (beBytes 4 0x4B455931 ++ [1, 1, 3, 1]) ++ (serialBytes ++ (beBytes 4 1 ++ zeros 12 ++ trailer))

/-- R509: a token to Deployed's precursor, or to End of life, from Manufacture. -/
def lifecycleToken (target : Byte) : List Byte :=
  (beBytes 4 0x4C435431 ++ [1, 0, target, 0]) ++ (serialBytes ++ (zeros 32 ++ trailer))

theorem envelope0_serial : slice envelope0 8 8 = serialBytes := slice_middle _ _ _ 8 8 rfl rfl

theorem lifecycleToken_serial (target : Byte) : slice (lifecycleToken target) 8 8 = serialBytes :=
  slice_middle _ _ _ 8 8 rfl rfl

set_option maxRecDepth 100000 in
/-- The signatures are the oracle's. -/
theorem witness_BarkCommandsComplete (he : Verified envelope0)
    (ht : Verified (lifecycleToken 1) ∧ Verified (lifecycleToken 3))
    (hy : Config.yilathDigest 1 = Crypto.digest (signerOf (lifecycleToken 1))
      ∧ Config.yilathDigest 1 = Crypto.digest (signerOf (lifecycleToken 3))) :
    (let ps := zeros 32 ++ beBytes 4 (2 ^ 31 + 1)
     Takes base 0x0701 (hdr 0) ps ∧ ps.length = 36 ∧ bitsOf (be ps 32 4) 29 10 = 0 ∧
     ¬ (bitOf (be ps 32 4) 30 = true ∧ bitOf (be ps 32 4) 31 = true)) ∧
    (let s := { base with bark := { Bark.fresh with lifecycle := 1, ownerDigest := Crypto.digest (signerOf envelope0) } }
     let ps := [1, 3, 0, 0] ++ envelope0
     let e := ps.drop 4
     (Takes s 0x0702 (hdr 0) ps ∧ 12 ≤ ps.length ∧ ps.length = 4 + envelopeLen 1 (bitOf (be e 7 1) 0) ∧
     be ps 0 1 = 1 ∧ be ps 1 1 = 3 ∧ zeroAt ps 2 2 = true ∧ firstBad (envelopeChecks e 1 3) = none ∧ s.bark.lifecycle ≠ 0 ∧
     s.bark.lifecycle ≠ 3 ∧ (nth (s.keyStore.kind 1) 3 .empty).generation.toNat < be e 16 4 ∧
     envelopePayload e 1 3 = some []) ∧ slice e 8 8 = serialBytes ∧ signedBy [s.bark.ownerDigest] e = true) ∧
    Takes base 0x0703 (hdr 0) [0xFF, 0, 0, 0] ∧
    (∀ n ∈ [1, 3],
     let ps := [BitVec.ofNat 8 n, 0, 0, 0] ++ lifecycleToken (BitVec.ofNat 8 n)
     let t := ps.drop 4
     (Takes base 0x0703 (hdr 0) ps ∧ ps.length = 52 + trailerBytes ∧ be ps 0 1 = n ∧ zeroAt ps 1 3 = true ∧
     be t 0 4 = 0x4C435431 ∧ be t 4 1 = 1 ∧ be t 6 1 = be ps 0 1 ∧ zeroAt t 7 1 = true ∧ zeroAt t 16 32 = true ∧
     be t 5 1 = base.bark.lifecycle.toNat) ∧
     (base.lifecycleSigners (be ps 0 1) = some [Config.yilathDigest 1]) ∧ slice t 8 8 = serialBytes ∧
     signedBy [Config.yilathDigest 1] t = true) := by
  simp only [takes_iff]
  refine ⟨by decide +kernel, ⟨by decide +kernel, envelope0_serial, ?_⟩, by decide +kernel, ?_⟩
  · exact signedBy_of envelope0 _ (by decide +kernel) rfl he
  · intro n hn
    simp only [List.mem_cons, List.not_mem_nil, or_false] at hn
    rcases hn with rfl | rfl
    · exact ⟨by decide +kernel, rfl, lifecycleToken_serial _,
        signedBy_of (lifecycleToken 1) _ (by decide +kernel) hy.1 ht.1⟩
    · exact ⟨by decide +kernel, rfl, lifecycleToken_serial _,
        signedBy_of (lifecycleToken 3) _ (by decide +kernel) hy.2 ht.2⟩

/-- R514: a manifest of an image of one byte 0. -/
def manifest1 : List Byte :=
  beBytes 4 0x464D4631 ++ [1] ++ zeros 3 ++ beBytes 4 0x10000 ++ beBytes 4 1 ++ zeros 8 ++ Crypto.digest [0] ++ zeros 8 ++ trailer

/-- An install by the host that stands at a chunk. -/
def installAt (next : Nat) : Install := ⟨.host, manifest1, next, 1⟩

/-- The state in which an install runs, over an image. -/
def installing (next : Nat) (image : List Byte) : State :=
  { base with bark := { Bark.fresh with lifecycle := 2, install := some (installAt next) }, flash := { base.flash with image := image } }

set_option maxRecDepth 100000 in
/-- The manifest's signature and the unwrap of a model key are the oracle's. -/
theorem witness_FirmwareAndModelKeysComplete (hv : Verified manifest1)
    (hy : Config.yilathDigest 0 = Crypto.digest (signerOf manifest1)) (key : List Byte)
    (hk : (installing 0 []).modelKeyUnwrap (beBytes 4 9) (zeros 1568) (zeros 40) = some key) :
    (let ps := zeros 4 ++ manifest1
     let m := ps.drop 4
     (Takes base 0x0704 (hdr 0) ps ∧ zeroAt ps 1 3 = true ∧ be ps 0 1 = 0 ∧ ps.length = 68 + trailerBytes ∧
     be m 0 4 = 0x464D4631 ∧ be m 4 1 = 1 ∧ zeroAt m 5 3 = true ∧ 1 ≤ manifestImageBytes m ∧
     manifestImageBytes m ≤ 33554432 ∧ zeroAt m 56 8 = true ∧ base.rollbackValue ≤ manifestSvn m) ∧
     manifestSigned m = true) ∧
    (let s := installing 0 []
     let ps := [1, 0, 0, 0] ++ zeros 4 ++ beBytes 4 1 ++ [0]
     Takes s 0x0704 (hdr 0) ps ∧ be ps 0 1 = 1 ∧ s.bark.install = some (installAt 0) ∧
     (installAt 0).owner = (hdr 0).iface.master ∧ ps.length = 12 + be ps 8 4 ∧ 1 ≤ be ps 8 4 ∧ be ps 8 4 ≤ 2097152 ∧
     be ps 4 4 = (installAt 0).next ∧ (installAt 0).next + be ps 8 4 ≤ (installAt 0).bytes) ∧
    (let s := installing 1 [0]
     Takes s 0x0704 (hdr 0) [2, 0, 0, 0] ∧ s.bark.install = some (installAt 1) ∧ (installAt 1).bytes ≤ (installAt 1).next ∧
     imageMatches (installAt 1).manifest s.flash.image = true) ∧
    Takes base 0x0704 (hdr 0) [3, 0, 0, 0] ∧ Takes (installing 0 []) 0x0704 (hdr 0) [3, 0, 0, 0] ∧
    (let s := installing 0 []
     let ps := zeros 4 ++ beBytes 4 9 ++ zeros 1568 ++ zeros 40
     (Takes s 0x0705 (hdr 0) ps ∧ zeroAt ps 1 3 = true ∧ be ps 4 4 ≠ 0 ∧ s.bark.lifecycle ≠ 0 ∧ s.bark.lifecycle ≠ 3 ∧
     be ps 0 1 = 0 ∧ ps.length = 1616 ∧ s.bark.modelKeys = []) ∧
     s.modelKeyUnwrap (slice ps 4 4) (slice ps 8 1568) (slice ps 1576 40) = some key) ∧
    (let s := installing 0 []
     let ps := [1, 0, 0, 0] ++ beBytes 4 9
     Takes s 0x0705 (hdr 0) ps ∧ zeroAt ps 1 3 = true ∧ be ps 0 1 = 1 ∧ ps.length = 8 ∧ s.sched.models = []) := by
  simp only [takes_iff]
  refine ⟨⟨by decide +kernel, ?_⟩, by decide +kernel, by decide +kernel, by decide +kernel, by decide +kernel,
    ⟨by decide +kernel, ?_⟩, by decide +kernel⟩
  · exact signedBy_of manifest1 _ (by decide +kernel) hy hv
  · have h1 : slice (zeros 4 ++ beBytes 4 9 ++ zeros 1568 ++ zeros 40) 4 4 = beBytes 4 9 := by decide +kernel
    have h2 : slice (zeros 4 ++ beBytes 4 9 ++ zeros 1568 ++ zeros 40) 8 1568 = zeros 1568 := by decide +kernel
    have h3 : slice (zeros 4 ++ beBytes 4 9 ++ zeros 1568 ++ zeros 40) 1576 40 = zeros 40 := by decide +kernel
    simp only [h1, h2, h3, hk]

/-- R521: a token of level 1 for boot cycle 1, good until minute 9. -/
def token1 : List Byte :=
  (beBytes 4 0x44475431 ++ [1, 1, 0, 3]) ++ (serialBytes ++ (beBytes 4 1 ++ beBytes 4 9 ++ zeros 8 ++ trailer))

theorem token1_serial : slice token1 8 8 = serialBytes := slice_middle _ _ _ 8 8 rfl rfl

/-- A state under a live grant. -/
def granted (s : State) : State := { s with bark := { s.bark with grants := [⟨1, 1, 3, 9, zeros 32⟩] } }

set_option maxRecDepth 100000 in
/-- The token's signature is the oracle's. -/
theorem witness_DebugAccessCommandsComplete (hv : Verified token1)
    (hy : Config.yilathDigest 2 = Crypto.digest (signerOf token1)) :
    (let ps := [1, 0, 0, 0] ++ token1
     let t := ps.drop 4
     (Takes base 0x0801 (hdr 0) ps ∧ ps.length = 36 + trailerBytes ∧ be ps 0 1 = 1 ∧ zeroAt ps 1 3 = true ∧
     be t 0 4 = 0x44475431 ∧ be t 4 1 = 1 ∧ be t 5 1 = be ps 0 1 ∧ be t 6 2 ≤ 3 ∧ zeroAt t 24 8 = true ∧
     be t 16 4 = base.recorder.cycles.toNat ∧ base.recorder.minutes.toNat < be t 20 4) ∧
     base.tokenSigners (be ps 0 1) = some [Config.yilathDigest 2] ∧ slice t 8 8 = serialBytes ∧
     signedBy [Config.yilathDigest 2] t = true) ∧
    Takes (granted base) 0x0802 (hdr 0) (zeros 4) ∧
    (Takes (granted base) 0x0802 (hdr 0) [0, 0, 0, 1] ∧ ∃ g ∈ (granted base).bark.grants, g.id = 1) ∧
    (let s := granted base
     let ps := [1, 0, 68, 0] ++ beBytes 4 1024 ++ beBytes 8 0x01000000000
     Takes s 0x0803 (hdr 0) ps ∧ ps.length = 16 ∧ zeroAt ps 3 1 = true ∧ be ps 0 1 = 1 ∧ be ps 1 1 + be ps 2 1 ≤ 68 ∧
     be ps 4 4 = 1024 ∧ s.traceDent (be ps 8 8) (be ps 4 4) = some 0 ∧ s.bark.trace = none ∧
     s.memBusy (false, 0) = false) ∧
    (Takes (granted base) 0x0803 (hdr 0) (zeros 16) ∧ be (zeros 16) 0 1 = 0 ∧ (granted base).bark.grants ≠ []) ∧
    (∀ o ∈ [0, 1], ∀ n ∈ [0, 67], let s := granted base
      let ps := [BitVec.ofNat 8 n, BitVec.ofNat 8 o, 0, 0]
      Takes s 0x0804 (hdr 0) ps ∧ be ps 0 1 = n ∧ (s.loom n).failed = false ∧ s.power.powered.getLsbD n = true ∧
      be ps 1 1 = o) ∧
    (∀ e ∈ [0, 1],
     let s0 := granted (running haltDeck ctx5)
     let s := s0.mapLoom 0 fun u => { u with halted := true }
     let ps := [0, 0, BitVec.ofNat 8 e, 0, 255, 255, 0, 0]
     Takes s 0x0805 (hdr 0) ps ∧ ps.length = 8 ∧ be ps 2 1 = e ∧ be ps 4 2 ≠ 0 ∧ zeroAt ps 6 2 = true ∧
     (s.loom 0).halted = true ∧ s.resident? 0 0 = some ctx5) := by
  simp only [takes_iff]
  refine ⟨⟨by decide +kernel, rfl, token1_serial, ?_⟩, by decide +kernel, by decide +kernel, by decide +kernel,
    by decide +kernel, by decide +kernel, by decide +kernel⟩
  exact signedBy_of token1 _ (by decide +kernel) hy hv

set_option maxRecDepth 100000 in
theorem witness_TableAndSettingsCommandsComplete :
    (∀ c ∈ [0, 1], Takes base 0x0006 (hdr 0) [0xFF, 0, 0, BitVec.ofNat 8 c]
      ∧ Takes base 0x0006 (hdr 0) [0, 67, 1, BitVec.ofNat 8 c] ∧ 67 + 1 ≤ paceUnits 0) ∧
    Takes base 0x0901 (hdr 0) [] ∧
    (∀ c ∈ [0, 1], let ps := [BitVec.ofNat 8 c, 0, 0, 0] ++ beBytes 4 0 ++ beBytes 2 139
      Takes base 0x0902 (hdr 0) ps ∧ ps.length = 10 ∧ be ps 0 1 = c ∧ be ps 4 4 < (ringShape (be ps 0 1)).1 ∧
      be ps 8 2 ≤ (if be ps 0 1 = 0 then 139 else 279)) ∧
    (∀ t ∈ [(1, 3, 4, 8), (6, 15, 16, 32)],
     let ps := [BitVec.ofNat 8 t.1, 0] ++ beBytes 2 t.2.1 ++ beBytes 2 1 ++ [0, 0] ++ zeros t.2.2.2
     Takes base 0x0A01 (hdr 0) ps ∧ 8 ≤ ps.length ∧ be ps 0 1 = t.1 ∧ zeroAt ps 1 1 = true ∧
     tableSize (be ps 0 1) = some (t.2.2.1, t.2.2.2) ∧ ps.length = 8 + be ps 4 2 * t.2.2.2 ∧
     be ps 2 2 + be ps 4 2 ≤ t.2.2.1 ∧ zeroAt ps 6 2 = true ∧
     tableWriteOk (be ps 0 1) (chunk t.2.2.2 (be ps 4 2) (ps.drop 8))
       (replaceEntries (base.live.table (be ps 0 1)) (be ps 2 2) (chunk t.2.2.2 (be ps 4 2) (ps.drop 8))) = true ∧
     base.entryBusy (be ps 0 1) (be ps 2 2) = false) ∧
    (∀ t ∈ [(2, 63, 64, 800), (8, 142, 143, 8)],
     let ps := [BitVec.ofNat 8 t.1, 0] ++ beBytes 2 t.2.1 ++ beBytes 2 1 ++ [0, 0]
     Takes base 0x0A02 (hdr 0) ps ∧ ps.length = 8 ∧ tableSize (be ps 0 1) = some (t.2.2.1, t.2.2.2) ∧
     be ps 2 2 + be ps 4 2 ≤ t.2.2.1 ∧ 8 + be ps 4 2 * t.2.2.2 ≤ 8960) ∧
    (∀ c ∈ [none, some false, some true], ∀ o ∈ [0, 1],
      Takes { base with flash := { base.flash with current := c } } 0x0A03 (hdr 0) [BitVec.ofNat 8 o, 0, 0, 0]) ∧
    (let s := { base with flash := { base.flash with current := some false, slot0 := zeros 64 } }
     let ps := beBytes 4 60 ++ beBytes 4 4
     Takes s 0x0A04 (hdr 0) ps ∧ be ps 4 4 ≤ 8944 ∧ be ps 0 4 + be ps 4 4 ≤ s.currentImage.length) := by
  simp only [takes_iff]
  refine ⟨?_, ?_, ?_, ?_, ?_, ?_, ?_⟩ <;> decide +kernel

/-- The root of a system of one device. -/
def root1 : State := { base with links := { base.links with device := some 0, devices := 1, isRoot := true } }

set_option maxRecDepth 100000 in
theorem witness_SystemCommandsComplete :
    (let found := base.ownLinks ++ if 1 = 1 then [] else Config.foundLinks base.free
     let ns := walk 1 (bothWays found) Config.serial
     (Takes base 0x0B01 (hdr 0) [1, 0, 0, 0] ∧ (shapeOf 1).isSome = true ∧ base.links.device = none ∧ base.sched.jobs = [] ∧
     base.audio.streams = []) ∧ (∃ x ∈ ns, x.1 = 0) ∧ (∀ l ∈ found, misWired 1 ns l = false)) ∧
    (let ps := [3] ++ List.replicate 63 0xFF
     Takes root1 0x0B02 (hdr 0) ps ∧ ps.length = 64 ∧ root1.links.devices = 1 ∧
     ((List.range 64).filter fun d => be ps d 1 != 0xFF) = [0] ∧ be ps 0 1 = 3 ∧ root1.sched.jobs = [] ∧
     root1.audio.streams = []) := by
  simp only [takes_iff]
  refine ⟨⟨by decide +kernel, ⟨(0, Config.serial), List.mem_singleton.mpr rfl, rfl⟩, by intro l h; cases h⟩, by decide +kernel⟩

/-- A binding 5 between two ports of the one device, and the root with it. -/
def bind5 : Binding := bindingOf 5 0 64 0 0 false (endAt (zeros 8) 0) [endAt (beBytes 8 (2 ^ 48)) 0]
def bound1 : State := { root1 with links := { root1.links with bindings := [bind5] } }

set_option maxRecDepth 100000 in
theorem witness_BindingAndLinkCommandsComplete :
    (∀ k ∈ [(0, 0), (1, 4096)],
     let s := root1
     let ps := [0, BitVec.ofNat 8 k.1, 0, 0] ++ beBytes 2 1 ++ beBytes 2 k.2 ++ [1] ++ zeros 7 ++ [0, 0, 1, 0] ++ zeros 4
       ++ [0, 1, 1, 0] ++ zeros 4
     Takes s 0x0B03 (hdr 0) ps ∧ 24 ≤ ps.length ∧ ps.length = 24 + 8 * be ps 8 1 ∧ be ps 0 1 = 0 ∧
     firstBad (s.bindChecks ps) = none ∧ (s.scalePlace 0 0 (be ps 6 2)) = some 0 ∧ s.freeBinding = some 0 ∧
     s.windowsFit (k.1 != 0) (be ps 4 2) (be ps 6 2) [endAt ps 24] = true ∧ s.linked 0 0 = true) ∧
    root1.phasesAllow 0 0 [0] = true ∧ root1.phasesAllow 1 0 [0] = true ∧
    (let ps := [1, 0, 0, 5] ++ zeros 20
     Takes bound1 0x0B03 (hdr 0) ps ∧ ps.length = 24 + 8 * be ps 8 1 ∧ be ps 0 1 = 1 ∧ zeroAt ps 9 7 = true ∧
     (bound1.liveBindings.find? fun b => b.number == be ps 2 2) = some bind5 ∧
     ∀ e ∈ bind5.send :: bind5.recvs.filter (·.live), bound1.endNotReady e = false) ∧
    (∀ f ∈ [(0, 0, 0), (2, 56, 200), (4, 3584, 512), (8, 0, 0)],
     let ps := [63, BitVec.ofNat 8 f.1, 5, 0] ++ beBytes 2 f.2.1 ++ beBytes 2 f.2.2
     Takes base 0x0B04 (hdr 0) ps ∧ ps.length = 8 ∧ be ps 0 1 < 64 ∧ zeroAt ps 3 1 = true ∧ be ps 1 1 = f.1 ∧ be ps 2 1 ≤ 5 ∧
     be ps 4 2 = f.2.1 ∧ be ps 6 2 = f.2.2) := by
  simp only [takes_iff]; refine ⟨?_, ?_, ?_, ?_⟩ <;> decide +kernel

/-! ### Premises that are met: packets and the host link -/

/-- R349: a PING of the host with no parameters. -/
def pingBytes : List Byte := packetBytes 3 0 0 101 0 0 0 7 []

set_option maxRecDepth 100000 in
theorem witness_MalformedPacketCompletes :
    base.listens .hostLink = true ∧ base.uartBusy = false ∧ rawHeaderOk (zeros 36) = false ∧
    base.listens .uart = true ∧ base.busWakes = false ∧
    (let bytes := pingBytes ++ [0]
     rawHeaderOk bytes = true ∧ base.links.device = none ∧ (rawFault .hostLink bytes).isSome = true) ∧
    rawFault .hostLink pingBytes = none ∧ (rawInstr .hostLink ⟨[], 0⟩ pingBytes).isSome = true ∧
    (let h := rawHdr .hostLink ⟨[], 0⟩ pingBytes
     base.gate 3 h [] = .run ∧
     let s := base.mapPower fun p => { p with state := .sleep }
     s.listens .hostLink = true ∧ s.gate 3 h [] = .hold) := by decide +kernel

/-- The first fragment of a STATUS command, as it is gathered. -/
def assembly4 : Assembly := { opcode := 4, context := 0, hostTag := 7, device := 0, lastSeq := 100, frags := 255, data := [1], lastMs := 0 }

/-- The state in which the host has it open, 2,000 ms on. -/
def gathering : State :=
  { base with
    proto := { base.proto with host := { master .hostLink with assemblies := [assembly4] } },
    recorder := { base.recorder with windows := 2000 } }

set_option maxRecDepth 100000 in
theorem witness_FragmentsComplete :
    (Takes base 0x0106 (hdr 0) [1] ∧ base.mustWait 0x0106 (hdr 0) true = false ∧ (base.master .host).assemblies.length < 4) ∧
    (Takes (gathering.endAssembly 4 (hdr 0)) 4 (hdr 0) [1] ∧ gathering.mustWait 4 (hdr 0) true = false ∧
      (gathering.master .host).assembly? 4 (hdr 0) = some assembly4 ∧ (hdr 0).seq = assembly4.lastSeq + 1 ∧
      assembly4.frags < 256 ∧ assembly4.device = (hdr 0).device) ∧
    (∃ a ∈ (gathering.master .host).assemblies, a.opcode = 4 ∧ a.context = 0 ∧ a.hostTag = 7 ∧
      a.lastMs + 2000 ≤ gathering.recorder.windows) := by
  simp only [takes_iff]; decide +kernel

set_option maxRecDepth 100000 in
theorem witness_LastFragmentRunsJoinedCommand :
    Takes (gathering.endAssembly 4 (hdr 0)) 4 (hdr 0) (assembly4.data ++ [2]) ∧ gathering.gate 4 (hdr 0) [2] = .run ∧
    (gathering.master .host).assembly? 4 (hdr 0) = some assembly4 ∧ (hdr 0).seq = assembly4.lastSeq + 1 ∧
    assembly4.frags < 256 ∧ assembly4.device = (hdr 0).device := by
  simp only [takes_iff]; decide +kernel

/-- A device with an IPv4 and an IPv6 address. -/
def addressed : State :=
  { base with net := { base.net with
      lease := some ([10, 0, 0, 9], [10, 0, 0, 1], 24), ipv6 := [zeros 16], config := base.net.config ||| 0x300 } }

/-- R335: two halves of a datagram of 16 bytes to CMD_PORT. -/
def frag0 : IpFrag :=
  { v6 := false, src := [10, 0, 0, 1], dst := [10, 0, 0, 9], ident := 1, proto := 17, offset := 0, more := true,
    data := beBytes 2 9 ++ beBytes 2 41730 ++ beBytes 2 16 ++ zeros 2 }
def frag8 : IpFrag := { frag0 with offset := 8, more := false, data := zeros 8 }

/-- The datagram with its first half. -/
def half1 : IpAssembly := IpAssembly.join ⟨false, frag0.src, frag0.dst, 1, 0, 17, [], none⟩ frag0

/-- The state with it. -/
def reassembling : State := { addressed with proto := { base.proto with ip := [half1] } }

set_option maxRecDepth 100000 in
theorem witness_IpReassemblyCompletes :
    (addressed.linkReceives = true ∧ addressed.hostLinkUp = true) ∧
    (let f := { frag8 with offset := 16 }
     (reassembling.proto.ip.find? fun a => a.has f) = some half1 ∧ half1.clashes f = false ∧ (half1.join f).whole = none) ∧
    (let a : IpAssembly := ⟨false, frag0.src, frag0.dst, 1, 0, 17, [], none⟩
     addressed.proto.ip = [] ∧ a.clashes frag0 = false ∧ (a.join frag0).whole = none) ∧
    ((reassembling.proto.ip.find? fun a => a.has frag8) = some half1 ∧ half1.clashes frag8 = false ∧
      (half1.join frag8).whole = some (frag0.data ++ zeros 8) ∧
      reassembling.datagramPacket (half1.join frag8) (frag0.data ++ zeros 8) = some (9, zeros 8)) ∧
    reassembling.linkReceives = true ∧ reassembling.hostLinkUp = true := by decide +kernel

set_option maxRecDepth 100000 in
theorem witness_HostFramesComplete :
    addressed.linkReceives = true ∧ addressed.hostLinkUp = true ∧ addressed.asleep = false ∧
    addressed.ownAddr false [10, 0, 0, 9] = true ∧ addressed.ownAddr true (zeros 16) = true ∧
    addressed.net.config.getLsbD 9 = true ∧ addressed.net.addr.getD 4 0 = 0 ∧ addressed.net.config.getLsbD 8 = true ∧
    addressed.net.addr.getD 32 0 = 0 ∧
    (let s := { addressed with flash := { base.flash with keys0 :=
        { KeyStore.empty with cak := [⟨1, zeros 32⟩, .empty, .empty, .empty] } },
                               net := { addressed.net with config := base.net.config ||| 0x8000, secured := true } }
     s.linkReceives = true ∧ s.hostLinkUp = true ∧ fld s.net.config 15 14 ≠ 0 ∧ s.power.boot = .ready ∧
     ∃ k ∈ s.keyStore.cak, k.payload.isEmpty = false) ∧
    addressed.net.config.getLsbD 9 = true ∧
    (let s := { base with net := { base.net with
       config := base.net.config ||| (0x8000 + 5 * 2 ^ 22), rxSas := [⟨7, 0, 3⟩] } }
     s.linkReceives = true ∧ s.hostLinkUp = false ∧ fld s.net.config 15 14 = 2 ∧ fld s.net.config 33 22 = 5 ∧
     fld s.net.config 47 34 + 22 = 1522 ∧
     (s.net.rxSas.find? fun a => a.sci == 7 && a.an == 0) = some ⟨7, 0, 3⟩ ∧
     (s.net.rxSas.find? fun a => a.sci == 8 && a.an == 0) = none) ∧
    fld base.net.config 15 14 = 0 := by decide +kernel

set_option maxRecDepth 100000 in
theorem witness_HostLinkEventsComplete :
    let down (fails : Nat) (a : BitVec 3) : State := { base with net := { base.net with rate := 0, trainFails := fails, advertised := a } }
    (∀ role ∈ [1, 2], let s := { base with net := { base.net with config := base.net.config ||| BitVec.ofNat 64 (role * 2 ^ 10) } }
      s.linkAllowed = true ∧ fld s.net.config 11 10 = role ∧ s.net.config.getLsbD 2 = true) ∧
    base.linkAllowed = true ∧ (down 0 7).linkAllowed = true ∧ (down 0 7).net.rate = 0 ∧
    (∀ r ∈ [1, 2, 3], (down 0 7).net.advertised.getLsbD (r - 1) = true) ∧ base.net.rate ≠ 0 ∧ base.domainOn 106 = true ∧
    (down 1 7).net.trainFails < 2 ∧
    (∀ a ∈ [7, 3, 1], (down 2 (BitVec.ofNat 3 a)).linkAllowed = true ∧ (down 2 (BitVec.ofNat 3 a)).net.trainFails = 2 ∧
      fld (down 2 (BitVec.ofNat 3 a)).net.config 11 10 = 0) := by decide +kernel

/-! ### Premises that are met: cards -/

/-- The state in which job 5's execute stream begins with a card, over some scratch and stripe bytes. -/
def executing (card : Card) (scratch : Mem) : State :=
  running (deckBytes [haltCard] [card, haltCard]) { ctx5 with scratch := scratch }

/-- A card that is chosen with its extents in range. -/
def Executes (card : Card) (scratch : Mem) (op : Nat) : Prop :=
  let s := executing card scratch
  Chooses s 0 0 .execute (found s) card ∧ (issued s 0 0 .execute (found s) card).extentsOk (found s) .execute card = true ∧
    opOf card = op

def vopCard : Card := mkCard 0x18 [(72, 1), (52, 64), (26, 15), (20, 0), (16, 12), (12, 12), (8, 12)]
def curveCard : Card := mkCard 0x19 [(72, 64), (46, 15), (36, 12), (32, 12)]
def reduceCard : Card := mkCard 0x1A [(72, 64), (46, 15), (39, 12), (35, 12)]
def normCard : Card := mkCard 0x1B [(72, 1), (52, 64), (26, 15), (23, 1), (19, 12), (15, 12), (11, 12)]
def fillCard : Card := mkCard 0x38 [(92, 64), (66, 15), (63, 1), (59, 12)]

set_option maxRecDepth 100000 in
theorem witness_WeftCardsComplete :
    Executes vopCard [] 0x18 ∧ Executes curveCard [] 0x19 ∧ Executes reduceCard [] 0x1A ∧ Executes normCard [] 0x1B ∧
    Executes fillCard [] 0x38 ∧ fld fillCard 65 63 ≠ 0 := by
  simp only [Executes, Chooses]; decide +kernel

/-- An MMA and an MMA_G of INT4 operands, whose one tile takes 512 lines. -/
def mmaCard : Card := mkCard 0x10 [(72, 8), (52, 1000), (15, 12)]
def mmaGCard : Card := mkCard 0x11 [(72, 8), (52, 1000), (15, 12), (6, 2), (5, 1)]

/-- A SCAN, a CONV of one position, a WIDEN and a GSAMPLE, and the bytes of their descriptors and records. -/
def scanCard : Card := mkCard 0x20 [(72, 64), (52, 3500), (32, 3000), (22, 15), (12, 3), (8, 5), (4, 5)]
def scanBytes : Mem := Mem.write [] 192000 ([1, 2, 5] ++ zeros 61)
def convCard : Card := mkCard 0x28 [(72, 8), (52, 1000), (32, 3000)]
def convBytes : Mem :=
  Mem.write [] 192000 (zeros 10 ++ leBytes 2 32 ++ leBytes 2 1 ++ leBytes 2 1 ++ [1, 1, 1, 1] ++ leBytes 2 1 ++ leBytes 2 1)
def widenCard : Card := mkCard 0x32 [(72, 100), (52, 64), (28, 15), (24, 1), (20, 12)]
def widenBytes : Mem := Mem.write [] 6400 ([0, 1, 0, 0] ++ leBytes 2 16 ++ leBytes 2 1)
def gsampleCard : Card := mkCard 0x39 [(72, 100), (52, 64), (26, 15), (22, 12)]
def gsampleBytes : Mem := Mem.write [] 6400 (zeros 20 ++ leBytes 4 one32.toNat)

set_option maxRecDepth 100000 in
theorem witness_CheckedCardsComplete :
    Executes mmaCard [] 0x10 ∧ Executes mmaGCard [] 0x11 ∧
    (∀ r < mmaM mmaGCard, zeroPointOk 0 (zeroPoint [] (mmaM mmaGCard * rowLines Factory.table1 0 (mmaK mmaGCard)) 2 true
      (mmaM mmaGCard) r) = true) ∧ zeroPointOk 0 0 = true ∧
    Executes scanCard scanBytes 0x20 ∧
    (let i := (executing scanCard scanBytes).cardIn (found (executing scanCard scanBytes))
     let d := scanBytes.read 192000 64
     scanDescOk d = true ∧ (∀ e ∈ scanExtents i.t1 i.ix scanCard d, e.inside i.ways i.units = true) ∧
     noOverlap (scanExtents i.t1 i.ix scanCard d) = true) ∧
    Executes convCard convBytes 0x28 ∧
    (let i := (executing convCard convBytes).cardIn (found (executing convCard convBytes))
     convOk i.t1 i.ways i.units i.ix convCard (convDesc (convBytes.read 192000 64)) = true) ∧
    Executes widenCard widenBytes 0x32 ∧
    (let r := widenBytes.read 6400 146
     le r 4 2 = fld widenCard 39 28 + 1 ∧ le r 6 2 = fld widenCard 51 40 + 1 ∧ le r 1 1 = fld widenCard 27 24 ∧ le r 2 1 < 2 ∧
     le r 2 1 ≠ 1) ∧
    Executes gsampleCard gsampleBytes 0x39 ∧
    (∀ r < fld gsampleCard 51 44 + 1, rowRecordOk (gsampleBytes.read (6400 + 32 * r) 32) = true) := by
  simp only [Executes, Chooses]
  refine ⟨?_, ?_, ?_, ?_, ?_, ?_, ?_, ?_, ?_, ?_, ?_, ?_⟩ <;> decide +kernel

/-- The state in which the fetch stream of job 5's context stands at a card. -/
def fetching (card : Card) (c : Ctx) : State := running (deckBytes [card, haltCard] [haltCard]) c

/-- R130: LOAD, STORE, LOAD_C and STORE_C of two lines at the job region of dent 0; the address in units of 64 bytes. -/
def xferCard (op : Nat) : Card := mkCard op [(92, 3), (51, 0x01000000000 / 64), (39, 1), (7, 1)]

/-- A transfer card that is chosen and in reach. -/
def Transfers (op : Nat) : Prop :=
  let s := fetching (xferCard op) ctx5
  let card := xferCard op
  let c := found s
  let s1 := issued s 0 0 .fetch c card
  Chooses s 0 0 .fetch c card ∧ opOf card = op ∧ s1.extentsOk c .fetch card = true ∧
    ((s1.job? c.job).bind Job.alt).isSome = true ∧
    ∀ j ∈ (s1.job? c.job).toList, ∀ a ∈ j.alt.toList, ∀ r < fld card 50 39 + 1,
      s1.rowOk j a (opOf card) (op == 2 || op == 4) (rowAddr card (lineOf c.arch.fetch.ix (fld card 90 87 * 65536)) r)
        (memRowBytes card) = true

set_option maxRecDepth 100000 in
theorem witness_TransferCardsComplete : Transfers 0x01 ∧ Transfers 0x02 ∧ Transfers 0x03 ∧ Transfers 0x04 := by
  simp only [Transfers, Chooses]; refine ⟨?_, ?_, ?_, ?_⟩ <;> decide +kernel

def waitCard : Card := mkCard 0x08 [(108, 3)]
def signalCard : Card := mkCard 0x09 [(92, 0xFFFF)]
def loopCard (n : Nat) : Card := mkCard 0x0B [(96, n), (72, 1), (68, 2), (36, 0xFFFFFFFF), (20, 0x8000)]
def endLoopCard : Card := mkCard 0x0C [(72, 1)]

/-- The context after the LOOP of a loop with `left` iterations left. -/
def inLoop (left : Nat) : Ctx :=
  { ctx5 with arch := { ctx5.arch with fetch := { ctx5.arch.fetch with card := 1, loops := [(left, 0)] } } }

/-- The state in which it runs END. -/
def looping (left : Nat) : State := running (deckBytes [loopCard 2, endLoopCard, haltCard] [haltCard]) (inLoop left)

set_option maxRecDepth 100000 in
theorem witness_ControlCardsComplete :
    (let s := fetching waitCard { ctx5 with arch := { ctx5.arch with bobbins := ctx5.arch.bobbins.set 0 [9] } }
     Chooses s 0 0 .fetch (found s) waitCard ∧ opOf waitCard = 0x08 ∧ (found s).arch.bobbins[bobbinOf waitCard]? = some [9]) ∧
    (let s := executing signalCard []
     Chooses s 0 0 .execute (found s) signalCard ∧ opOf signalCard = 0x09) ∧
    (let s := fetching (loopCard 0) ctx5
     Chooses s 0 0 .fetch (found s) (loopCard 0) ∧ opOf (loopCard 0) = 0x0B ∧ fld (loopCard 0) 111 96 = 0) ∧
    (let s := fetching (loopCard 2) ctx5
     Chooses s 0 0 .fetch (found s) (loopCard 2) ∧ fld (loopCard 2) 111 96 ≠ 0) ∧
    (∀ left ∈ [1, 2],
     let s := looping left
     Chooses s 0 0 .fetch (found s) endLoopCard ∧ opOf endLoopCard = 0x0C ∧
     (((s.refresh 0).positionOf (found s)).bind fun p =>
       (p.stream .fetch)[(found s).arch.fetch.card - fld endLoopCard 95 72]?) = some (loopCard 2) ∧
     (found s).arch.fetch.loops = [(left, 0)]) ∧
    (let s := executing haltCard []
     Chooses s 0 0 .execute (found s) haltCard ∧ opOf haltCard = 0x3F ∧ (found s).arch.fetch.halted = false) ∧
    (let s := running haltDeck { ctx5 with arch := { ctx5.arch with fetch := { ctx5.arch.fetch with halted := true } } }
     Chooses s 0 0 .execute (found s) haltCard ∧ (found s).arch.fetch.halted = true) := by
  simp only [Chooses]; refine ⟨?_, ?_, ?_, ?_, ?_, ?_, ?_⟩ <;> decide +kernel

def knotCard : Card := mkCard 0x0A [(96, 1)]
def keyCard : Card := mkCard 0x38 [(92, 64)]

/-- The deck image of one position that knots its first line and its first stripe line. -/
def knotImage : DeckImage :=
  let i := deckImage (deckBytes [knotCard, haltCard] [knotCard, haltCard])
  { i with positions := i.positions.map fun p => { p with knots := [⟨1000, 128, [(false, 0, 1), (true, 0, 1)]⟩] } }

/-- The state in which job 5 stands at the knot on both engines. -/
def knotting : State :=
  let s := running haltDeck { ctx5 with units := [some 0] }
  { s with sched := { s.sched with jobs := [{ started5 haltDeck with image := knotImage }] } }

set_option maxRecDepth 100000 in
theorem witness_KnotAndKeyLoadComplete :
    (Chooses knotting 0 0 .fetch (found knotting) knotCard ∧ opOf knotCard = 0x0A ∧
      ((knotting.refresh 0).knotEntry? (found knotting) knotCard).isSome = true) ∧
    Executes keyCard [] 0x38 ∧ fld keyCard 65 63 = 0 ∧
    (let r := (found (executing keyCard [])).scratch.read (64 * 64) 64
     zeroAt r 40 24 = true ∧ zeros 32 = slice r 0 32 ∧ (0 : DWord) = BitVec.ofNat 64 (le r 32 8)) := by
  simp only [Executes, Chooses]; decide +kernel

/-- R312: a binding 5 from position 0 of job 5 at port 0, or to it, with its link stream 7. -/
def sendEnd : BindEnd := endOf (0, 0, 7, 0, 5)
def farEnd : BindEnd := endOf (0, 1, 8, 0, 6)
def linkStream7 : LinkStream := LinkStream.bound 7 5 0 64

/-- A state with such a binding and link stream. -/
def withBinding (s : State) (send : Bool) (narrowed : Bool) (t : LinkStream) : State :=
  let b := bindingOf 5 0 64 (if narrowed then 64 else 0) 0 narrowed (if send then sendEnd else farEnd)
    [if send then farEnd else sendEnd]
  let s := { s with links := { s.links with bindings := [b] } }
  s.mapPort 0 fun p => { p with streams := [t] }

def peerCard (receive : Nat) : Card := mkCard 0x05 [(92, 2), (89, receive), (77, 7)]
def qstatCard : Card := mkCard 0x30 [(68, 15), (64, 12), (60, 1), (51, 7), (27, 1), (28, 64)]
def narrowCard (fresh : Nat) : Card := mkCard 0x31 [(68, 15), (64, 12), (60, 1), (51, 7), (45, fresh), (24, 1), (25, 64)]

set_option maxRecDepth 100000 in
theorem witness_LinkCardsComplete :
    (∀ entered ∈ [0, 1],
     let s := withBinding (fetching (peerCard 0) { ctx5 with sends := [⟨5, 0, 0, entered, [], false, []⟩] }) true false linkStream7
     let c := found s
     let s1 := issued s 0 0 .fetch c (peerCard 0)
     Chooses s 0 0 .fetch c (peerCard 0) ∧ opOf (peerCard 0) = 0x05 ∧ s1.peerReach c (peerCard 0) = true ∧
     (peerCard 0).getLsbD 89 = false ∧
     ∃ b ∈ (s1.sendBinding c.job c.position (fld (peerCard 0) 87 85) (peerLsid (peerCard 0))).toList,
       b.narrowed = false ∧ peerBytes (peerCard 0) ≤ b.maxBlock * 64 ∧ b.ended = false ∧
       (c.sendLog b.number).since = 0 ∧ (c.sendLog b.number).entered = entered ∧
       (s1.enterPlan b (4 + peerBytes (peerCard 0))).map (·.2.2) = some []) ∧
    (let t0 := { linkStream7 with ready := [(0, rawBody 1 1 (zeros 64), [])] }
     let s := withBinding (fetching (peerCard 1) ctx5) false false t0
     let c := found s
     let card := peerCard 1
     let s1 := issued s 0 0 .fetch c card
     Chooses s 0 0 .fetch c card ∧ s1.peerReach c card = true ∧ card.getLsbD 89 = true ∧
     (s1.linkStream? (fld card 87 85) (peerLsid card)) = some t0 ∧
     ∃ b ∈ (s1.recvBinding c.job c.position (fld card 87 85) (peerLsid card)).toList,
       b.1.narrowed = card.getLsbD 88 ∧ (c.recvLog b.1.number b.2).entered ≤ (c.recvLog b.1.number b.2).since ∧
       (receiveBytes card b.1.narrowed (rawBody 1 1 (zeros 64), [])).isSome = true) ∧
    (∀ card ∈ [qstatCard.toNat, (narrowCard 0).toNat, (narrowCard 1).toNat],
     let card : Card := BitVec.ofNat 128 card
     let t0 := { linkStream7 with valid := true, channels := 16, fn := 1 }
     let s := withBinding (executing card []) true true t0
     let c := found s
     let s1 := issued s 0 0 .execute c card
     Chooses s 0 0 .execute c card ∧ (opOf card = 0x30 ∨ opOf card = 0x31) ∧
     s1.linkStream? (fld card 50 48) (BitVec.ofNat 8 (fld card 58 51)) = some t0 ∧ fld card 79 68 + 1 ≤ t0.size ∧
     s1.unitTakes 0 c = true ∧
     ({ s1 with sched := { s1.sched with scale := [(0, 6, 0)] } } : State).unitTakes 0 c = false ∧
     s1.extentsOk c .execute card = true ∧ fld card 63 60 = 1 ∧ card.getLsbD 59 = t0.zpm ∧
     ∃ b ∈ (s1.sendBinding c.job c.position (fld card 50 48) (BitVec.ofNat 8 (fld card 58 51))).toList,
       b.narrowed = true ∧ (c.sendLog b.number).entered ≤ (c.sendLog b.number).since ∧ b.ended = false ∧
       (opOf card = 0x30 ∨ (s1.enterPlan b (narrowBytes s1.live.table1 card)).map (·.2.2) = some [])) := by
  simp only [Chooses]; refine ⟨?_, ?_, ?_⟩ <;> decide +kernel

/-! ### Premises that are met: transfers, residence, jobs -/

/-- A transfer of one piece of the context, to or from the job region of dent 0. -/
def xfer5 (kind : XferKind) (tag : Option Nat) : Transfer :=
  { loom := 0, job := 5, position := 0, cardIdx := 0, card := xferCard 0x01, kind := kind, line := 3, isStripe := false,
    addr := 0x01000000000, rowBytes := 64, rows := 2, stride := 1, pieces := [⟨1, 0, 64, tag⟩], data := [], step := 0, waves := 4,
    flags := 0 }

/-- The state with that transfer. -/
def transferring (kind : XferKind) (tag : Option Nat) : State :=
  let s := running haltDeck ctx5
  { s with sched := { s.sched with transfers := [xfer5 kind tag] } }

set_option maxRecDepth 100000 in
theorem witness_PiecesComplete :
    (let s := transferring .load none
     s.computing = true ∧ (s.loom 0).failed = false ∧ s.freeTag 0 = some 0 ∧ s.sched.transfers = [] ++ xfer5 .load none :: [] ∧
     (xfer5 .load none).pieces = [] ++ ⟨1, 0, 64, none⟩ :: []) ∧
    (∀ kind ∈ [XferKind.load, .loadC, .store, .storeC],
     let s := transferring kind (some 0)
     let t := xfer5 kind (some 0)
     s.computing = true ∧ s.tagged 0 0 = some (t, ⟨1, 0, 64, some 0⟩) ∧ s.inOrder 0 0 t ⟨1, 0, 64, some 0⟩ = true ∧ s.ctx? t.job t.position = some ctx5 ∧
     t.rowBytes ≤ 64 * t.stride ∧
     ∃ a ∈ ((s.job? t.job).bind Job.alt).toList, s.locate a (some ctx5.dent) (t.addr + 64 * t.stride * 1 + 0) = some (.vault 64)) := by
  refine ⟨?_, ?_⟩ <;> decide +kernel

set_option maxRecDepth 100000 in
theorem witness_JobStartCompletes :
    let s0 := (withJob haltDeck).reserve
    let j := job5 haltDeck
    (withJob haltDeck).computing = true ∧ s0.startQueue = [] ++ j :: [] ∧ s0.startAlt j = some 0 ∧
    (∃ a ∈ j.image.alts[0]?.toList, s0.altReaches j a = true) ∧ j.phrase = none ∧ s0.job? j.id = some j ∧
    (s0.sched.jobs.map (·.id)).Nodup := by decide +kernel

/-- The context as it waits to be admitted. -/
def waiting5 : Ctx := { ctx5 with place := .waiting, ways := [] }

/-- The context as the last way that it waits for is spilled. -/
def pending5 : Ctx := { ctx5 with pendingWays := [0] }
def spill5 : SaveStep :=
  { loom := 0, victim := none, arriving := (5, 0), isUnit := false, phys := 0, logical := 0, readBack := false }

/-- A younger resident context of a lesser share that holds every way of the Loom, and has a knot. -/
def later6 : Ctx :=
  { ctx5 with job := 6, ways := (List.range 16).map some, knot := some ⟨1, ctx5.arch, [], []⟩ }

/-- The state in which system space has no block left to save it. -/
def releasing : State :=
  let s := running haltDeck waiting5
  { s with
    units := { s.units with sysVaults := [] }, memory := { s.memory with lent := 128 },
    sched := { s.sched with
      jobs := [{ started5 haltDeck with share := 512 }, { started5 haltDeck with id := 6, order := 1, share := 256 }],
      ctxs := [waiting5, later6] } }

set_option maxRecDepth 100000 in
theorem witness_ResidenceCompletes :
    (let s := running haltDeck waiting5
     s.computing = true ∧ s.ctx? 5 0 = some waiting5 ∧ s.waitingFor 0 = waiting5 :: [] ∧ (s.loom 0).failed = false ∧
     s.domainOn 0 = true ∧ (∀ x ∈ s.sched.ctxs, x.onLoom 0 = false) ∧ waiting5.ways = [] ∧ waiting5.units = [] ∧
     waiting5.knotPlaced = true ∧ (∃ p ∈ (s.positionOf waiting5).toList, p.ways ≤ 16 ∧ p.units ≤ 16) ∧
     ∀ b < 8, s.depthOf waiting5 b ≤ 64) ∧
    (let s0 := running haltDeck pending5
     let s := { s0 with sched := { s0.sched with saves := [spill5] } }
     s.ctx? 5 0 = some pending5 ∧ (s.sched.saves.find? fun w => w.loom == 0) = some spill5 ∧ spill5.arriving = (5, 0) ∧
     s.sched.saves.eraseP (fun w => w.loom == 0) = []) ∧
    (let c := { ctx5 with sliceWaves := 240000 }
     let s := running haltDeck c
     s.ctx? 5 0 = some c ∧ s.resident? 0 0 = some c ∧ s.sliceOf c ≤ c.sliceWaves ∧ s.waitingFor 0 = []) ∧
    (releasing.computing = true ∧ releasing.ctx? 6 0 = some later6 ∧ releasing.releaseFor 0 = some [later6] ∧
      releasing.outstandingOf later6 = [] ∧ later6.knot.isSome = true) := by
  refine ⟨?_, ?_, ?_, ?_⟩ <;> decide +kernel

/-- Job 5 with a token record of one token, with 256 windows past its hold, and the stream that its phrase is for. -/
def tokenPort5 : PortRecord := ⟨0, 0, leBytes 4 0 ++ leBytes 2 1 ++ zeros 2 ++ leBytes 4 77 ++ zeros 52⟩
def talking : Job := { started5 haltDeck with tokenInbox := [tokenPort5] }
def phrased : Stream := { stream3 with deck := 1, phrases := [⟨1, [9], true⟩] }

/-- A batch job 5 that runs, and a member 6 with one prompt token. -/
def batch5 : Job := { started5 haltDeck with kind := .batch }
def member6 : Job := { Job.entering 6 1 .member with batch := 5, prompt := [9], tokenLimit := 5, endToken := 1 }

/-- The state of the two. -/
def batching (runs : Bool) : State :=
  let s := running haltDeck ctx5
  let j := { batch5 with
    stepRuns := runs, rows := if runs then [(6, 1, true)] else [],
    positions := if runs then [⟨some 1, some 2, 0, 0⟩] else batch5.positions }
  { s with sched := { s.sched with jobs := [j, { member6 with joined := runs }] } }

set_option maxRecDepth 100000 in
theorem witness_JobProgressCompletes :
    (let s := { withReady with recorder := { withReady.recorder with windows := 60001 } }
     s.job? 5 = some readyJob ∧ readyJob.ready = true ∧ readyJob.holdMs < s.recorder.windows - readyJob.readyMs) ∧
    (let s0 := running haltDeck ctx5
     let s := { s0 with sched := { s0.sched with jobs := [talking] } }
     s.job? 5 = some talking ∧ s.computing = true ∧ talking.tokenInbox.find? talking.tokenReady = some tokenPort5 ∧
     tokenRecordOk tokenPort5.bytes = true ∧ le32 tokenPort5.bytes 0 = talking.tokenNext ∧ talking.tokenHeld = []) ∧
    (let s0 := withReady
     let s := { s0 with audio := { s0.audio with streams := [phrased] } }
     s.job? 5 = some readyJob ∧ s.starting = true ∧ s.stream? 3 = some phrased ∧ phrased.runningPhrase = none ∧
     s.deck? phrased.deck = some (deck1 haltDeck) ∧ s.jobLimit phrased.client = false ∧
     s.substitute phrased.id (deck1 haltDeck) = none) ∧
    (let s := batching false
     s.computing = true ∧ ∃ j ∈ (s.job? 5).toList, j.kind = .batch ∧ j.started = true ∧ j.stepRuns = false ∧
       j.stopping = false ∧ s.stepRows 5 ≠ [] ∧ j.alt.isSome = true ∧
       (s.stepTableAt j (stepTable j.stepNo (s.stepRows 5)).length).isSome = true) ∧
    (let s := batching true
     s.computing = true ∧ s.job? 6 = some { member6 with joined := true } ∧ member6.ready = false ∧ member6.cancelled = false ∧
     ∃ j ∈ (s.job? 5).toList, j.stepRuns = true ∧ j.cancelled = false ∧
       (∀ p ∈ j.positions, p.fetchHalt ≠ none ∧ p.execHalt ≠ none) ∧ j.rows = [(6, 1, true)] ∧
       s.stepTableAt j 64 = some 0 ∧ le32 (s.memory.vault.read (0 + 64 + 24) 4) 0 ≠ member6.endToken ∧
       member6.produced.length + 1 < member6.tokenLimit ∧ member6.tokenSink = 0) := by
  refine ⟨?_, ?_, ?_, ?_, ?_⟩ <;> decide +kernel

/-! ### Premises that are met: Shuttles and egress -/

/-- R211: a frame record of program 77, of 64 samples and a CRC. -/
def frameOf (seq : Nat) (crc : Nat) : List Byte :=
  leBytes 4 seq ++ leBytes 2 64 ++ [7, 0] ++ leBytes 2 4 ++ zeros 2 ++ leBytes 4 crc ++ zeros 1008
def frame0 : List Byte := frameOf 0 (crc32c ((frameOf 0 0).take 12 ++ zeros 1008)).toNat

/-- The state with program 77 of some micro-steps and a stream of it. -/
def shuttling (steps : List Card) (t : Stream) : State := withProgram steps [t]

set_option maxRecDepth 100000 in
theorem witness_FramePortsComplete :
    (∀ k ∈ [0, 1, 2],
     let r : PortRecord := ⟨0, 0, if k = 0 then frameOf 0 0 else frame0⟩
     let t0 := { stream3 with inbox := [r], ring := if k = 1 then [(0, frame0)] else [] }
     let s := shuttling [outCard, endCard] t0
     s.computing = true ∧ s.stream? t0.id = some t0 ∧
     (∃ p ∈ (s.programOf t0.ctx.program).toList, frameOk r.bytes p = (k != 0)) ∧
     BitVec.ofNat 32 (le r.bytes 0 4) = t0.saved.nextSeq) ∧
    (let t0 := { stream3 with ring := [(0, frame0)] }
     let s := shuttling [outCard, endCard] t0
     s.stream? t0.id = some t0 ∧ (t0.ctx.nextSeq, frame0) ∈ t0.ring ∧ t0.ctx.nextSeq ∉ t0.committed) := by
  refine ⟨?_, ?_⟩ <;> decide +kernel

/-- A batch of the stream at a micro-step. -/
def batchAt (micro : Nat) : Batch := ⟨77, [(3, false)], micro⟩

/-- The state in which cluster 0 holds program 77. -/
def holding (steps : List Card) (t : Stream) : State :=
  let s := shuttling steps t
  s.mapCluster 0 fun c => { c with programs := [77], store := [(77, s.readProgram 77)] }

/-- The state in which the batch runs. -/
def stepping (steps : List Card) (micro : Nat) (t : Stream) : State :=
  (holding steps t).mapShuttle 0 0 fun u => { u with batch := some (batchAt micro) }

set_option maxRecDepth 100000 in
theorem witness_MicroStepsComplete :
    ∀ op ∈ [1, 2, 3, 4, 5, 6, 15],
      let card := mkCard op []
      let s := stepping [card, endCard] 0 stream3
      s.computing = true ∧ s.stream? stream3.id = some stream3 ∧ (s.shuttle 0 0).batch = some (batchAt 0) ∧
      (s.programOf (batchAt 0).program).isSome = true ∧ (s.held 0 (batchAt 0).program).1[(batchAt 0).micro]? = some card ∧
      (batchAt 0).streams = [(stream3.id, false)] ∧ microOp card = op ∧ stream3.companion = none := by decide +kernel

set_option maxRecDepth 100000 in
theorem witness_BatchesAndMovesComplete :
    (∀ inFrame ∈ [true, false],
     let t0 := { stream3 with ring := [(0, frame0)], committed := [0], ctx := { stream3.ctx with inFrame := inFrame } }
     let s := holding [outCard, endCard] t0
     s.stream? t0.id = some t0 ∧ t0.cluster = 0 ∧ t0.pos = 0 ∧ s.shuttleFree 0 0 = true ∧
     (s.audio.streams.filter fun t => t.cluster == 0 && t.pos == 0) = [t0] ∧ t0.slot = some 0 ∧ t0.due = true ∧
     t0.companion = none ∧ t0.nextChange = none ∧ (s.cluster 0).programs.contains t0.ctx.program = true ∧
     0 < (s.cluster 0).shuttles.length ∧ t0.nextFrame = some frame0) ∧
    (∀ waves ∈ [0, 240000],
     let s := (stepping [outCard, endCard] 2 stream3).mapShuttle 0 0 fun u => { u with wavesSinceWrite := waves }
     s.computing = true ∧ s.stream? stream3.id = some stream3 ∧ (s.shuttle 0 0).batch = some (batchAt 2) ∧
     (s.programOf (batchAt 2).program).isSome = true ∧ (s.held 0 (batchAt 2).program).1.length = 2 ∧ stream3.slot = some 0 ∧ stream3.moving = false ∧
     (stream3.id, false) ∈ (batchAt 2).streams ∧ stream3.ctx.inFrame = false) ∧
    (let t0 := { stream3 with moveTo := some (15, 1) }
     let s := shuttling [outCard, endCard] t0
     s.stream? t0.id = some t0 ∧ s.starting = true ∧ t0.moving = false ∧ t0.slot = some 0 ∧ t0.companion = none ∧
     s.inBatch t0 = false) ∧
    (let t0 := { stream3 with slot := none, absent := true, ring := [(0, frame0)], committed := [0] }
     let s := holding [outCard, endCard] t0
     s.stream? t0.id = some t0 ∧ s.nextProgram 0 0 = some 77 ∧ s.freeSlot 0 0 = some 0 ∧ t0.absent = true ∧
     (∃ x ∈ s.candidates 0 0, x.stream = t0.id ∧ x.companion = false ∧ x.program = 77) ∧ s.shuttleFree 0 0 = true ∧
     (s.cluster 0).programs.contains 77 = true ∧ (s.readSaved t0 t0.ctx.nextSeq).isSome = true ∧ t0.savedCompanion = none) ∧
    (let s := shuttling [outCard, endCard] stream3
     s.stream? stream3.id = some stream3 ∧ stream3.cluster = 0 ∧ s.computing = true ∧ s.domainOn 68 = true ∧
     (s.programOf 77).isSome = true ∧ 0 < s.units.clusters.length ∧ (s.cluster 0).programs.contains 77 = false ∧
     (s.usedPrograms 0).contains 77 = true ∧ s.weightBytes (s.cluster 0).programs + s.weightBytes [77] ≤ 4194304) := by
  refine ⟨?_, ?_, ?_, ?_, ?_⟩ <;> decide +kernel

/-- R337: an RTP egress of packets of 2 samples with a playout of 1 ms, to one multicast destination. -/
def dest1 : Dest := { v6 := false, addr := [239, 0, 0, 1], port := 5004, drops := 0, queued := 0 }
def rtp1 : Rtp :=
  { payload := 0, pt := 96, ssrc := 1, seq0 := 0, ts0 := 0, pkt := 2, playoutUs := 1000, source := 0, dscp := 0, srcPort := 5004,
    dests := [dest1] }
def rtpStream : Stream := { stream3 with egress := .rtp rtp1 }

set_option maxRecDepth 100000 in
theorem witness_EgressAndTallyComplete :
    (∀ ended ∈ [true, false],
     let t0 := { rtpStream with
       samples := List.replicate (if ended then 1 else 48) 0, ctx := { stream3.ctx with ended := ended } }
     let s := withStream t0
     s.starting = true ∧ s.stream? t0.id = some t0 ∧ t0.egress = .rtp rtp1 ∧ t0.running = false ∧
     (t0.level ≤ t0.margin ∨ (t0.ctx.ended = true ∧ 0 < t0.margin))) ∧
    (∀ gap ∈ [true, false], ∀ rate ∈ [0, 3],
     let t0 := { rtpStream with running := true, samples := List.replicate 48 0, inGap := gap }
     let s := { withStream t0 with net := { base.net with rate := BitVec.ofNat 2 rate } }
     s.starting = true ∧ s.stream? t0.id = some t0 ∧ t0.nextRoute = none ∧ t0.onLocal = false ∧ rtp1.dests = [dest1] ∧
     s.linkCatchUp.stream? t0.id = some t0 ∧ dest1.queued < 2 ∧
     (withStream { t0 with egress := .rtp { rtp1 with dests := [{ dest1 with queued := 2 }] } }).hostLinkUp = true ∧
     rtp1.pkt ≤ t0.samples.length ∧ 1 ≤ rtp1.pkt ∧ t0.level ≤ t0.samples.length ∧ dest1.multicast = true ∧
     s.hostLinkUp = (rate == 3) ∧ s.padsOpen 106 = true) ∧
    (∀ gap ∈ [true, false],
     let t0 := { rtpStream with running := true, samples := [0], inGap := gap }
     (withStream t0).stream? t0.id = some t0 ∧ t0.ctx.ended = false ∧ t0.samples.length < rtp1.pkt) ∧
    (∀ hold ∈ [0, 1], ∀ threshold ∈ [1, 0],
     let t0 := { rtpStream with begun := true, atLevel := true, hold := hold, ownThreshold := some (threshold, 0) }
     let s := withStream t0
     s.starting = true ∧ s.stream? t0.id = some t0 ∧ t0.egress ≠ .none ∧ t0.atLevel = true ∧ t0.change = none ∧ s.threshold t0 = some (threshold, 0) ∧
     t0.margin = 0 ∧ t0.decided = false ∧ fallbackFor s.live.table4 t0.current = none) := by
  refine ⟨by decide +kernel, fun gap hg rate hr => ?_, by decide +kernel, by decide +kernel⟩
  simp only [List.mem_cons, List.not_mem_nil, or_false] at hg hr
  rcases hg with rfl | rfl <;> rcases hr with rfl | rfl <;>
    (dsimp only; rw [State.linkCatchUp_empty (by decide +kernel)]; decide +kernel)

/-! ### Premises that are met: Reed ports and the carding pipeline -/

/-- The state with some streams and Reed port `code` as `f` leaves it; output 0 is paced
by word clock 0, which is locked. -/
def withReed (code : Nat) (ts : List Stream) (f : ReedPort → ReedPort) : State :=
  (({ base with
      audio := { Audio.fresh with streams := ts },
      live := { base.live with reedOut := base.live.reedOut.set 0 (Factory.reedConfig ||| BitVec.ofNat 64 (2 ^ 32)) } }).mapWclk 0
    fun w => { w with locked := true }).mapReed code f

set_option maxRecDepth 100000 in
theorem witness_ReedInputsComplete :
    (base.audioRuns = true ∧ base.padsOpen (107 + 15 / 8) = true ∧ (base.reed 15).locked = false) ∧
    (let s := withReed 15 [] fun p => { p with locked := true }
     s.audioRuns = true ∧ (s.reed 15).locked = true) ∧
    (∀ on ∈ [true, false], ∀ queued ∈ [0, 32],
     let p := fun (p : ReedPort) =>
       { p with running := true, started := true, locked := true, fifo := List.replicate (if on then 0 else queued) (0, true, 0, true) }
     let s0 := withReed 0 [] p
     let s := if on then s0 else s0.switchOff 111
     s.audioRuns = true ∧ (s.reed 0).running = true ∧ (s.reed 0).started = true ∧ (s.reed 0).locked = true ∧
     (s.reed 0).stopping = false ∧ s.padsOpen (107 + 0 / 8) = true ∧ s.domainOn 111 = on ∧
     (s.reed 0).fifo.length = (if on then 0 else queued)) ∧
    (∀ n ∈ [0, 3], base.audio.wclks[n]?.isSome = true) ∧
    (∀ n ∈ [0, 3],
     let s := base.mapWclk n fun w => { w with locked := true }
     s.audioRuns = true ∧ s.audio.wclks[n]?.map (·.locked) = some true) := by
  refine ⟨?_, ?_, ?_, ?_, ?_⟩ <;> decide +kernel

/-- A stream on the left channel of output 0 that has begun. -/
def reedStream : Stream := { stream3 with egress := .reed 0 0, begun := true }

set_option maxRecDepth 100000 in
theorem witness_ReedOutputsComplete :
    (let s := withReed 16 [] fun p => { p with running := true, armed := some 1, group := [16] }
     s.computing = true ∧ (s.reed 16).running = true ∧ (s.reed 16).armed = some 1 ∧ (s.reed 16).group = [16] ∧
     s.referenceUsable 16 = true) ∧
    (let t0 := { reedStream with samples := List.replicate 288 0 }
     let s := withReed 16 [t0] fun p => { p with running := true, started := true, group := [16], awaited := [3] }
     (s.reed 16).dataOn = false ∧ s.outputSet 16 = [16] ∧ ∀ t ∈ s.audio.streams, t.id ∈ (s.reed 16).awaited → t.readyOut = true) ∧
    (∀ on ∈ [true, false], ∀ n ∈ [0, 1],
     let t0 := { reedStream with samples := List.replicate n 0 }
     let s := withReed 16 [t0] fun p => { p with running := true, started := true, group := [16], dataOn := on, clockOk := true, awaited := if n == 1 then [3] else [] }
     s.computing = true ∧ s.outputSet 16 = [16] ∧ s.clockUsable 16 = true ∧ s.padsOpen (107 + 16 / 8) = true ∧
     (s.reed 16).stopping = false ∧ s.dataReady [16] = (n == 0) ∧ (s.reed 16).dataOn = on ∧ (s.reed 16).lacking = [] ∧ s.audio.streams = [t0] ∧
     t0.egress = .reed (16 - 16) 0 ∧ t0.nextRoute = none ∧ t0.begun = true ∧ t0.ctx.ended = false ∧
     (s.reed (16 + 0)).running = true ∧ (s.reed (16 + 0)).clockOk = true) ∧
    (let g := { ingress4 with frameSamples := 128, input := List.replicate 72 ⟨0, false, false, 0⟩ }
     let s := { base with audio := { Audio.fresh with ingress := [g] } }
     s.domainOn 111 = true ∧ s.nextStripe = some g ∧
     (g.stripe s.live.table5).pos < (g.stripe s.live.table5).frameSamples) := by
  refine ⟨?_, ?_, ?_, ?_⟩ <;> decide +kernel

/-! ### Premises that are met: power, sensors, regulators, memory care -/

set_option maxRecDepth 100000 in
theorem witness_WindowsAndSensorsComplete :
    base.power.boot = .ready ∧ base.power.state = .run ∧
    (let w : Sys2Proof.Window := { drawW := 561, waves := [(0, 67, 0, 9)] }
     base.live.ceiling.toNat < w.drawW ∧
     ∃ c ∈ base.pace.counters, w.waves.find? (fun e => e.1 == c.kind && e.2.1 == c.index) = some (c.kind, c.index, 0, 9) ∧
       base.domainOn c.domain = true) ∧
    (∀ p ∈ [PowerState.idle, .sleep], (base.mapPower fun q => { q with state := p }).power.boot = .ready) ∧
    (let s := base.switchOff 126
     s.power.boot = .ready ∧ s.domainOn 126 = false) ∧
    base.domainOn 128 = true ∧ 79 < 80 ∧ 79 ∉ base.power.excluded ∧ base.power.sensors.length = 80 ∧
    base.power.hot = false ∧ base.power.transition = none ∧
    ({ base with power := { base.power with hot := true } }).domainOn 128 = true ∧ 519 < 520 := by decide +kernel

/-- A transition at the first step of an entry, with domains that have not reported. -/
def transition0 (entry : Nat) (target : PowerState) (awaiting : List Nat) : Transition :=
  { entry := entry, source := .run, target := target, next := none, step := 0, awaiting := awaiting, cause := 0, wake := false }

/-- The state with a power section changed. -/
def powered (f : Power → Power) : State := base.mapPower f

/-- A request to a rail. -/
def asked (r : RailRequest) : State := powered fun p => { p with requests := [r] }

set_option maxRecDepth 100000 in
theorem witness_RegulatorsAndWakeComplete :
    (let t0 := transition0 2 .sleep [0, 1]
     let s := powered fun p => { p with transition := some t0 }
     s.power.transition = some t0 ∧ s.entryWaits = false ∧ 0 ∈ t0.awaiting ∧
     (powerSteps (nth s.live.table3 t0.entry []))[t0.step]?.isSome = true ∧ t0.awaiting.erase 0 ≠ []) ∧
    (let t0 := { transition0 5 .run [126] with source := .deepSleep, step := 30 }
     let s := powered fun p => { p with transition := some t0, state := .deepSleep }
     s.entryWaits = false ∧ s.wakesNow 126 = true) ∧
    (∀ rail ∈ [Rail.vcore, .pmbus 0x20 1], ∀ tries ∈ [1, 3, 4],
     let r : RailRequest := ⟨rail, 700, tries⟩
     (asked r).power.requests.find? (fun q => q.rail == r.rail) = some r ∧ (asked r).power.transition = none) ∧
    (let s := powered fun p => { p with state := .off, boot := .unpowered }
     s.power.transition = none ∧ s.power.state = .off ∧ s.power.boot = .unpowered) ∧
    (∀ target ∈ [PowerState.sleep, .deepSleep, .off],
     let t0 := transition0 1 target []
     (powered fun p => { p with transition := some t0 }).power.transition = some t0 ∧ t0.next = none ∧ t0.target = target) ∧
    (base.power.transition = none ∧ base.power.state = .run) ∧
    (base.started = true ∧ base.busWakes = false ∧ (0x80 : Byte).toNat = 2 * (0x40 + base.power.straps.toNat) ∧
      (0x81 : Byte).toNat = 2 * (0x40 + base.power.straps.toNat) + 1 ∧ base.power.state ≠ .off ∧ base.proto.replyQueue = []) ∧
    (let s := { base with proto := { base.proto with replyQueue := [base.replyTo 3 (hdr 0) .ok 0 false []] } }
     s.started = true ∧ s.busWakes = false ∧ s.proto.replyQueue = base.replyTo 3 (hdr 0) .ok 0 false [] :: [] ∧
     let p := base.replyTo 3 (hdr 0) .ok 0 false []
     let s := { base with proto := { base.proto with replyQueue := List.replicate 16 p } }
     s.started = true ∧ s.busWakes = false ∧ 16 ≤ s.proto.replyQueue.length) := by
  refine ⟨?_, ?_, ?_, ?_, ?_, ?_, ?_, ?_⟩ <;> decide +kernel

set_option maxRecDepth 100000 in
theorem witness_BackgroundMemoryCareCompletes :
    (powered fun p => { p with canopySelf := true }).power.canopySelf = true ∧ base.windowsRun = true ∧
    base.power.canopySelf = false ∧ (∀ q < 4, base.domainOn (122 + q) = true) ∧ base.computing = true ∧
    (∀ v ∈ [0, 67], base.domainOn (122 + v / 17) = true) ∧ base.units.present.getLsbD 0 = true := by decide +kernel

/-! ### Premises that are met: faults, Selvage ports, blocks, lifetime and resets -/

/-- The state with two faults of Loom 63 in this hour. -/
def faulted63 : State := base.mapLoom 63 fun u => { u with faults := [0, 0] }

set_option maxRecDepth 100000 in
theorem witness_FaultEventsComplete :
    (faulted63.loomMayFault 63 .arrayResidue = true ∧ 63 < faulted63.units.looms.length ∧
      ((faulted63.loom 63).faults.filter (fun m => faulted63.recorder.minutes.toNat < m.toNat + 60)).length = 2 ∧
      (faulted63.dentOf 63).isSome = true ∧ ∃ d ∈ (faulted63.dentOf 63).toList, (faulted63.spareFor d).isSome = true) ∧
    (base.loomMayFault 0 .arrayResidue = true ∧ (base.loom 0).faults = [] ∧ base.replayable 0 = []) ∧
    (base.loomMayFault 67 .watchdog = true ∧ base.shuttleMayFault 15 16 .watchdog = true) ∧
    (let s := withStream stream3
     s.shuttleMayFault 0 0 .arrayResidue = true ∧ (s.shuttle 0 0).faults = [] ∧
     (s.audio.streams.filter fun u => u.cluster == 0 && u.pos == 0) = [stream3] ∧ s.stream? stream3.id = some stream3 ∧
     s.shuttleMayFault 0 0 .weightStore = true ∧ s.readSaved stream3 stream3.saved.nextSeq = some stream3.saved ∧
     stream3.slot.isSome = true ∧ stream3.moving = false ∧ stream3.savedCompanion = none) ∧
    (∀ u ∈ [SoloUnit.ethernet, .treadle, .heartwood, .segment 7], base.soloMayFault u = true) ∧
    (let s := running haltDeck ctx5
     s.computing = true ∧ s.domainOn (122 + 67 / 17) = true ∧ s.resident? 0 0 = some ctx5 ∧
     s.job? ctx5.job = some (started5 haltDeck) ∧ (started5 haltDeck).ready = false) := by
  refine ⟨?_, ?_, ?_, ?_, ?_, ?_⟩ <;> decide +kernel

/-- The state with port 5 as `f` leaves it. -/
def withPort (f : Selvage → Selvage) : State := base.mapPort 5 f

/-- Port 5 up, and the bytes of a data flit of one whole message of two bytes, and of a control flit. -/
def portUp : State := withPort fun p => { p with state := .up, width := 2 }
def dataFlit5 : List Byte := Selvage.fresh.dataFlit 0 ⟨1, 0, 0, true, true, [1, 2], false⟩
def controlFlit5 : List Byte := Selvage.fresh.controlFlit false

set_option maxRecDepth 100000 in
theorem witness_PortEventsComplete :
    (5 < base.links.ports.length ∧ portUp.portListens 5 = true ∧ readFlit [] = (none, 0) ∧ (portUp.port 5).nakked = false) ∧
    (let s := withPort fun p => { p with state := .up, width := 2, nakked := true }
     s.portListens 5 = true ∧ (s.port 5).nakked = true) ∧
    (∀ control ∈ [true, false],
     ∃ f ∈ (readFlit (if control then controlFlit5 else dataFlit5)).1.toList,
       flitOk f = true ∧ (portUp.port 5).queue = [] ∧ bitOf (le f 4 2) 12 = false ∧
       (portUp.port 5).unackedFrom (BitVec.ofNat 12 (le f 4 2)) = [] ∧
       le f 6 2 = 0 + 256 * bitsOf (le f 6 2) 10 8 ∧ decide (bitsOf (le f 0 1) 3 0 ≠ 1) = control ∧
       BitVec.ofNat 12 (le f 2 2) = (portUp.port 5).rxSeq ∧ (portUp.port 5).unacked + 1 < 32 ∧
       portUp.links.device = none ∧ (control = true ∨ (bitOf (le f 1 1) 0 = true ∧ bitOf (le f 1 1) 1 = true))) ∧
    (let f : TxFlit := ⟨1, 0, 0, true, true, [1], false⟩
     let s := withPort fun p => { p with state := .up, width := 2, unacked := 1, replay := [(0, f)] }
     s.portListens 5 = true ∧ (s.port 5).unacked ≠ 0 ∧ (s.port 5).replay = [(0, f)]) ∧
    (base.portTrains 5 = true ∧ (base.port 5).trainFails < 2 ∧ widthOf 0x0F = 1 ∧ base.links.device = none ∧
      base.links.isRoot = false ∧ (base.port 5).replay = [] ∧ (base.port 5).queue = []) ∧
    (let s := withPort fun p => { p with state := .failed }
     s.started = true ∧ s.padsOpen (100 + 5) = true ∧ (s.port 5).state = .failed ∧ s.domainOn (100 + 5) = true ∧
     (s.port 5).scaleFaults = []) ∧
    (let s := withPort fun p => { p with scaleFaults := [0, 0] }
     s.domainOn (100 + 5) = true ∧
     ((s.port 5).scaleFaults.filter fun m => s.recorder.minutes.toNat < m.toNat + 60).length = 2) := by
  refine ⟨?_, ?_, ?_, ?_, ?_, ?_, ?_⟩ <;> decide +kernel

/-- A raw block of six bytes as a link message to stream 7 of port 1. -/
def blockMsg : List Byte := [2, 1, 7, 0] ++ zeros 4 ++ leBytes 4 6 ++ leBytes 4 (crc32c (zeros 6)).toNat ++ zeros 6

/-- A binding 5 of two ports of this device, whose receive end stands at port 1, stream 7, with that link stream. -/
def loopBinding (narrowed : Bool) (nextSeq : Word) : Binding :=
  { bindingOf 5 0 64 0 0 narrowed farEnd [endOf (0, 1, 7, 0, 5)] with nextSeq := nextSeq }
def looped (narrowed : Bool) (nextSeq : Word) (t : LinkStream) : State :=
  let s := { base with links := { base.links with bindings := [loopBinding narrowed nextSeq] } }
  (s.mapPort 1 fun p => { p with streams := [t] }).mapPort 0 fun p => { p with messages := [(0, blockMsg)] }

set_option maxRecDepth 100000 in
theorem witness_BlockEventsComplete :
    (let s := looped false 0 linkStream7
     let b := loopBinding false 0
     s.started = true ∧ b.ended = false ∧ (s.port 0).messages = (0, blockMsg) :: [] ∧ 1 < 128 ∧ 16 ≤ blockMsg.length ∧
     le blockMsg 0 1 = 2 ∧ le blockMsg 1 1 = 1 ∧ le blockMsg 8 4 = blockMsg.length - 16 ∧
     le blockMsg 12 4 = (crc32c (blockMsg.drop 16)).toNat ∧
     (s.receiving 1 (blockMsg.getD 2 0)).map (·.1) = some b ∧ b.narrowed = false ∧
     s.linkStream? 1 (blockMsg.getD 2 0) = some linkStream7 ∧ linkStream7.lsid = blockMsg.getD 2 0 ∧
     BitVec.ofNat 32 (le blockMsg 4 4) = linkStream7.expSeq) ∧
    (let b := loopBinding false 1
     let s := looped false 1 linkStream7
     let e := endOf (0, 1, 7, 0, 5)
     b.ended = false ∧ s.sendingTo b.number 0 = some (b, e) ∧ b.send.live = true ∧ e.attached = true ∧ b.recvs = [e] ∧
     (e.acked - 1 - 0).toNat ≥ 2 ^ 31 ∧ (b.nextSeq - (0 + 1)).toNat < 2 ^ 31 ∧ s.binding? b.number = some b) ∧
    (let t := { linkStream7 with data := [(0, [1])], records := [(0, [2])] }
     let s := looped true 1 t
     s.domainOn (100 + 1) = true ∧ (s.receiving 1 7).map (·.1) = some (loopBinding true 1) ∧ s.linkStream? 1 7 = some t ∧
     t.lsid = 7 ∧ t.data = (t.expTag, [1]) :: [] ∧ t.records = (t.expTag, [2]) :: []) := by
  refine ⟨?_, ?_, ?_⟩ <;> decide +kernel

/-- The state at a boot phase, with the flash holding the image of `manifest1`. -/
def booting (p : BootPhase) : State :=
  { base with
    power := { base.power with boot := p }, flash := { base.flash with manifest := manifest1, image := [0] },
    bark := { base.bark with runManifest := manifest1, imageCopy := some [0] } }

/-- R571: a warm reset that finds nothing failed. -/
def goodWarm : WarmFindings := ⟨[], [], [], true, 3, false⟩

/-- A state in which the debug port reaches memory. -/
def reachable : State :=
  { base with bark := { base.bark with lifecycle := 1, grants := [⟨1, 1, 3, 9, zeros 32⟩] } }

set_option maxRecDepth 100000 in
/-- The manifest's signature is the oracle's. -/
theorem witness_LifetimeAndResetEventsComplete (hv : Verified manifest1)
    (hy : Config.yilathDigest 0 = Crypto.digest (signerOf manifest1)) :
    (base.started = true ∧ base.bark.grants = [] ∧ base.domainOn 127 = true ∧ base.domainOn 113 = true) ∧
    (let s := base.lifetime 5 0xFF 0 0 []
     s.started = true ∧ (∃ b rest, s.recorder.lifetime.queue = b :: rest) ∧
     s.recorder.lifetime.slots.length < lifetimeSlots) ∧
    ((booting .noSupply).power.boot = .noSupply ∧ (booting .heldInReset).power.boot = .heldInReset ∧
      base.power.boot ≠ .unpowered ∧ base.power.boot ≠ .noSupply ∧ 10 ≤ 10 ∧ 1 ≤ 1 ∧ 9 < 10) ∧
    ((booting .coldPending).power.boot = .coldPending ∧ (booting .coldPending).flashFault = none) ∧
    ((booting .warmPending).power.boot = .warmPending ∧ goodWarm.retentionOk = true ∧ goodWarm.failedShuttles = [] ∧
      goodWarm.laneFailures = [] ∧
      ((booting .warmPending).announceReset.warmState.restoreSettings).warmFailed goodWarm = [] ∧
      (booting .warmPending).bark.imageCopy = some [0] ∧
      imageMatches (booting .warmPending).bark.runManifest [0] = true) ∧
    (reachable.reach ≠ .z ∧ tapReach reachable.reach (.jobRegion 66 5) = none ∧ reachable.dapReach (.jobRegion 66 5) = true ∧
      (reachable.dapLoc (.jobRegion 66 5)).isSome = true) ∧
    (base.reach ≠ .z ∧ tapReach base.reach (.jobRegion 0 0) = none ∧ base.dapReach (.jobRegion 0 0) = false) := by
  refine ⟨by decide +kernel, ⟨rfl, ⟨_, _, rfl⟩, by decide +kernel⟩, by decide +kernel, ⟨rfl, ?_⟩, by decide +kernel,
    by decide +kernel, by decide +kernel⟩
  have hs : manifestSigned (booting .coldPending).flash.manifest = true :=
    signedBy_of manifest1 _ (by decide +kernel) hy hv
  unfold State.flashFault
  simp only [hs]
  decide +kernel

/-! ### Premises that are met: the block as a whole -/

set_option maxRecDepth 100000 in
theorem witness_StepRunsFrontCommand :
    ({ base with pending := [.ping (hdr 0) []] }).pending = .ping (hdr 0) [] :: [] ∧ base.pending = [] ∧
    base.proto.fwQueue.filter base.interprets = [] ∧
    (let s := { base with proto := { base.proto with fwQueue := [.ping (hdr 0) []] } }
     s.pending = [] ∧ s.proto.fwQueue.filter s.interprets ≠ []) := by decide +kernel

theorem witness_PacketRoundTrip :
    packetOf (.ping (hdr 0) [1]) = some (3, hdr 0, [1]) ∧ commandOk (.ping (hdr 0) [1]) = true ∧ [1].length ≤ 8960 := by
  decide +kernel

set_option maxRecDepth 100000 in
theorem witness_MemoryCanonicalKept :
    Mem.wf base.memory.vault = true ∧ Mem.wf base.memory.ext = true ∧ ∃ t, step base = .next t :=
  ⟨by decide +kernel, by decide +kernel, _, rfl⟩

/-- The state in which the host's SEQUENCE 101 has been seen, with its reply or without. -/
def seen101 (reply : Option OutPacket) : State :=
  { base with proto := { base.proto with host := { master .hostLink with newest := some 130, seen := [⟨101, reply⟩] } } }

set_option maxRecDepth 100000 in
theorem witness_DuplicatesNeverRunAgain :
    (∀ r ∈ [none, some (base.replyTo 3 (hdr 0) .ok 0 false [])],
     let s := seen101 r
     packetOf (.ping (hdr 0) []) = some (3, hdr 0, []) ∧ s.power.boot = .ready ∧ s.listens (hdr 0).iface = true ∧
     s.gate 3 (hdr 0) [] = .run ∧ s.links.device = none ∧ s.verdict 3 (hdr 0) = .execute ∧
     s.isHeld (hdr 0) = false ∧ (s.master .host).classify 101 = .duplicate ∧
     ((s.master .host).seen.find? fun e => e.seq == 101).bind (·.reply) = r) ∧
    (({ master .hostLink with newest := some 60000 }).classify 101 = .stale) := by decide +kernel

/-- The command rows that only read, each with its opcode and parameters of its form. -/
def readRows : List (Nat × Instr × List Byte) :=
  let h := hdr 0
  let q : List Byte := [0xFF, 0, 0, 0]
  let z := zeros 16
  let client : List Byte := 1 :: zeros 15
  let config : List Byte := 3 :: zeros 15
  let port : List Byte := [0, 1, 0, 0]
  let masks : List Byte := [2, 0, 0, 0]
  let policy : List Byte := [1, 0, 0, 0]
  let install : List Byte := [3, 0, 0, 0]
  [(0x0002, .identify h [], []), (0x0003, .ping h [], []), (0x0004, .status h [], []), (0x0105, .memRead h z, z),
   (0x0203, .jobStatus h [], []), (0x0206, .sharesReadClient h client, client), (0x0206, .schedConfigRead h config, config),
   (0x0307, .streamStatus h [], []), (0x0401, .portConfigRead h port, port), (0x0404, .portStatus h [], []),
   (0x0504, .cardStats h q, q), (0x0601, .powerStateRead h q, q), (0x0602, .domainCtrlRead h masks, masks),
   (0x0604, .voltagePolicyRead h policy, policy), (0x0605, .powerCeilingRead h (zeros 4), zeros 4),
   (0x0703, .lifecycleRead h q, q), (0x0704, .fwInstallRead h install, install), (0x0901, .ringInfo h [], []),
   (0x0902, .ringRead h z, z), (0x0A02, .tableRead h z, z), (0x0A04, .settingsRead h z, z)]

set_option maxRecDepth 100000 in
theorem witness_ReadCommandsChangeNothing :
    ∀ x ∈ readRows, Takes base x.1 (hdr 0) x.2.2 ∧ packetOf x.2.1 = some (x.1, hdr 0, x.2.2) ∧ commandOk x.2.1 = true := by
  simp only [takes_iff]; decide +kernel

set_option maxRecDepth 100000 in
theorem witness_CardsChangeOnlyTheirContext :
    (let s := executing vopCard []
     Chooses s 0 0 .execute (found s) vopCard ∧ opOf vopCard = 0x18 ∧
     ∃ t ∈ (match exec (.vop 0 0) s with | .next t => [t] | _ => []), ∃ j ∈ (t.job? (found s).job).toList, j.stopping = false) := by
  simp only [Chooses]; decide +kernel

/-- A VOP that writes the lines that it reads. -/
def overlapCard : Card := mkCard 0x18 [(72, 1), (52, 0), (26, 15), (20, 0), (16, 12), (12, 12), (8, 12)]

/-- A card that is chosen with an extent out of range or an overlap, and that stops its job. -/
def StopsJob (card : Card) (op : Nat) : Prop :=
  let s := executing card []
  let c := found s
  Chooses s 0 0 .execute c card ∧ opOf card = op ∧ (issued s 0 0 .execute c card).extentsOk c .execute card = false ∧
    s.job? c.job = some (started5 (deckBytes [haltCard] [card, haltCard])) ∧ s.sched.transfers = []

set_option maxRecDepth 100000 in
theorem witness_ExecuteCardStops :
    StopsJob overlapCard 0x18 ∧ StopsJob (mkCard 0x10 [(92, 4096), (52, 1000), (15, 12)]) 0x10 := by
  simp only [StopsJob, Chooses]; decide +kernel

set_option maxRecDepth 100000 in
theorem witness_CardCosts :
    opOf vopCard = 0x18 ∧ fld vopCard 25 20 ≠ 3 ∧ fld vopCard 25 20 ≠ 9 ∧ fld (mkCard 0x18 [(20, 9)]) 25 20 = 9 ∧
    opOf curveCard = 0x19 ∧ opOf reduceCard = 0x1A ∧ opOf normCard = 0x1B ∧
    (let c := mkCard 0x20 [(22, 1023), (12, 1023)]
     opOf c = 0x20 ∧ fld c 31 22 = 1023 ∧ fld c 21 12 = 1023) := by decide +kernel

set_option maxRecDepth 100000 in
theorem witness_DeckUnloadBusy :
    (let s := withJob haltDeck
     Takes s 0x0107 (hdr 1) [] ∧ (s.deck? (hdr 1).context.toNat).isSome = true ∧
     ∃ j ∈ s.sched.jobs, j.deck = (hdr 1).context.toNat ∧ j.ready = false) ∧
    (let s := withReady
     Takes s 0x0107 (hdr 1) [] ∧ (s.deck? (hdr 1).context.toNat).isSome = true ∧ (∀ j ∈ s.sched.jobs, j.ready = true) ∧
     s.audio.streams = []) := by
  simp only [takes_iff]; decide +kernel

set_option maxRecDepth 100000 in
theorem witness_WakePinWakes :
    99 < 100 ∧ (base.power.transition = none ∧ base.power.state = .run) ∧
    (∀ p ∈ [PowerState.sleep, .deepSleep],
      let s := powered fun q => { q with state := p }
      s.power.transition = none ∧ s.power.state = p ∧ s.power.boot = .ready) ∧
    (let s := powered fun q => { q with state := .off, boot := .unpowered }
     s.power.transition = none ∧ s.power.state = .off ∧ s.power.boot = .unpowered) := by decide +kernel

/-! ### Ill-formed instructions, one for each check -/

theorem test_command_of_another_row_is_ill_formed :
    (Instr.modelLoadCommit (hdr 0) ([0, 0, 0, 0] ++ zeros 20)).wellFormed = false := by decide +kernel

set_option maxRecDepth 100000 in
theorem test_long_command_is_ill_formed : (Instr.ping (hdr 0) (zeros 2293761)).wellFormed = false := by
  have h : decide ((zeros 2293761).length ≤ 256 * 8960) = false := by
    rw [zeros, List.length_replicate]; decide +kernel
  simp [Instr.wellFormed, commandOk, packetOf, h]

theorem test_long_fragment_is_ill_formed : eventOk (.fragmentReceived 3 (hdr 0) (zeros 8961)) = false := by
  simp only [eventOk, zeros, List.length_replicate]; decide +kernel

theorem test_events_of_absent_units_are_ill_formed :
    ∀ i ∈ [Instr.ipReassemblyExpiry true [0] [0] 0, .ipFragmentReceived { v6 := false, src := [], dst := [], ident := 0, proto := 0, offset := 0, more := false, data := [] },
      .hostLinkUp 0 false false, .load 68 0, .vop 0 16, .halt 68 0 .fetch, .pieceIssue 68, .contextAdmit 68, .pieceComplete 0 ⟨64, 0⟩,
      .batchStart 16 0, .microMv 0 17, .programLoadCluster 16 0, .reedInputLock 16, .reedOutputClockLoss 16, .wclkLock 4,
      .reedStartTick 32, .rateMeasureWindow 36 0, .thermalTrip 80 0, .thermalSensorConversion [⟨80, 0, true⟩],
      .domainPowerGood ⟨129, true⟩, .canopyRefresh 4 0, .patrolScrub 68 true, .wckDriftCheck 16 true,
      .uncorrectableWord true 68 0 (.context 0 0), .uncorrectableWord false 16 0 (.context 0 0), .loomFault 68 .watchdog .pass,
      .shuttleFault 16 0 .watchdog .pass, .scaleUnitFault 6, .linkMessage 6], i.wellFormed = false := by decide +kernel

/-! ### Worked examples of the specification -/

/-- The example after R111: 65,536 live bytes cost 418 waves. -/
theorem test_knot_waves : knotWaves 65536 = 418 := by decide +kernel

/-- The example after R282: 1 MiB of live ranges costs 2,781 waves. -/
theorem test_knot_waves_of_1MiB : knotWaves 1048576 = 2781 := by decide +kernel

/-- The example after R121: 4,096 elements take 8 passes on 16 lane groups, and 10 on 13. -/
theorem test_vop_passes : passesOf 4096 16 = 8 ∧ passesOf 4096 13 = 10 := by decide +kernel

/-- The example after R265: 64 rows of 8 KiB from a channel cost 1,284 waves, and 1,024 rows of 512 bytes 20,484. -/
theorem test_transfer_waves :
    transferWaves 64 8192 0 (fun _ => 0x08000000000) = 1284 ∧ transferWaves 1024 512 0 (fun _ => 0x08000000000) = 20484 := by
  decide +kernel

/-- The example after R79: 10.0 in E3M2 of bias 3 is 0x19, and the largest value is 28. -/
theorem test_user_format :
    (userFmt [6, 3, 3, 0, 0, 0, 0, 0]).map (fun f => (convert (.ofRat 10) f 0 true 0).1) = some 0x19 ∧
    (userFmt [6, 3, 3, 0, 0, 0, 0, 0]).map (fun f => value f 0x1F) = some (.fin false 28) := by decide +kernel

/-- The example after R144: when the largest elements are −0 and +0, ARGMAX is the lowest index of +0. -/
theorem test_argmax_of_zeros : reduceRow 4 [0x80000000, 0xBF800000, 0, 0] = (nat32 2, .none) := by decide +kernel

/-- The example after R433: a1 = −1.8 with a2 = 0.81 is stable, and with a2 = 0.79 is not. -/
theorem test_biquad_stability :
    biquadOk ⟨0, 0, 0, 0xBFE66666, 0x3F4F5C29⟩ = true ∧ biquadOk ⟨0, 0, 0, 0xBFE66666, 0x3F4A3D71⟩ = false := by
  decide +kernel

/-- R378: of four segments the first and the third are present. -/
theorem test_missing_segments :
    ({ model9 with bytes := 4 * 2097152, committed := false, segments := [(0, zeros 32), (2, zeros 32)] }).progress
      = beBytes 4 1 ++ beBytes 4 2 ∧ segmentsOf (8 * 2 ^ 30) = 4096 := by decide +kernel

/-- The example after R39: a cold boot that finds Loom 20 and Shuttle 6.16 failed. -/
def boot20 : BootFindings :=
  { failedLooms := [20], laneFailures := [], failedShuttles := [(6, 16)], populated := 0xFFFF, trained := 0xFFFF, density := 2,
    bestSpeed := 0, straps := 0, linkRate := 3, leader := false }

set_option maxRecDepth 100000 in
theorem test_boot_map :
    let u := bootUnits boot20 Factory.memLayout
    (u.dentMap[18]? = some (some 19) ∧ u.dentMap[19]? = some (some 21) ∧ u.dentMap[31]? = some (some 33)) ∧
    u.sysVaults = [16, 50, 67] ∧ (u.clusters[6]?).map (·.spare) = some (some 15) := by decide +kernel

/-- The same example: Loom 25, which carries dent 23, fails; Loom 16 takes the dent over, and its home vault stays 25. -/
theorem test_spare_takes_dent :
    let s := { base with units := bootUnits boot20 Factory.memLayout }
    (match exec (.loomFault 25 .arrayResidue .fail) s with
     | .next t => some (t.units.dentMap[23]?, t.units.home[23]?)
     | _ => none) = some (some (some 16), some (some 25)) := by decide +kernel

/-! ### Single steps -/

/-- R376: a PING is answered by its own parameters. -/
theorem test_ping_echoes :
    (match exec (.ping (hdr 0) [1, 2, 3]) base with
     | .next t => t.out.filterMap fun o => match o with | .packet p => some (p.status, p.params) | _ => none
     | _ => []) = [(.ok, [1, 2, 3])] := by decide +kernel

/-- R352: without a session a command other than HELLO, IDENTIFY, PING and STATUS is answered WRONG_STATE. -/
theorem test_no_session :
    (match exec (.ringInfo (hdr 0) []) State.reset with
     | .next t => t.out.filterMap fun o => match o with | .packet p => some p.status | _ => none
     | _ => []) = [.wrongState] := by decide +kernel

/-- R585: RESET_N low for 9 µs stops the model, and for 10 µs holds the device in reset. -/
theorem test_reset_pulse :
    (match exec (.resetNLow 9) base with | .fault .undefinedResetPulse => true | _ => false) = true ∧
    (match exec (.resetNLow 10) base with | .next t => t.power.boot == .heldInReset | _ => false) = true := by decide +kernel

/-- R482: a WAKE pulse of 99 µs in Sleep changes nothing. -/
theorem test_short_wake :
    (match exec (.wakePin 99) (powered fun p => { p with state := .sleep }) with
     | .next t => t.power.state == .sleep | _ => false) = true := by decide +kernel

/-- R143: the sum of 1.0 and 2.0 is 3.0. -/
theorem test_vop_adds : vop 0 0x3F800000 0x40000000 = (0x40400000, .none) := by decide +kernel

/-- R101: SIGNAL of a value 0xFFFF through IX_0 adds that token to its bobbin. -/
theorem test_signal_adds_token :
    (match exec (.signal 0 0 .execute) (executing signalCard []) with
     | .next t => (t.ctx? 5 0).map fun c => c.arch.bobbins.head?
     | _ => none) = some (some [0xFFFF]) := by decide +kernel

end Sys2Proof.Tests
end

section
/-!
PROOF. The waves that R141 and R160 give the weft cards and the SCAN card: an equation for each, and the bound of a SCAN.
-/
namespace Sys2Proof.Machine

/-! ### Fields and rounded-up quotients -/

theorem fld_lt_two_pow {w : Nat} (v : BitVec w) (hi lo : Nat) : fld v hi lo < 2 ^ (hi + 1 - lo) :=
  Nat.mod_lt _ (Nat.two_pow_pos _)

theorem ceilDiv_le_of_le_mul {a b k : Nat} (hb : 0 < b) (h : a ≤ k * b) : ceilDiv a b ≤ k := by
  unfold ceilDiv
  rw [← Nat.lt_succ_iff, Nat.div_lt_iff_lt_mul hb, Nat.succ_mul]
  omega

/-! ### The row of `cardWaves` for each card -/

section CardWaves
variable {card : Card} (t1 : List (List Byte)) (h aix : Nat)

theorem cardWaves_vop_of_div_or_sqrt (hop : opOf card = 0x18) (hfn : fld card 25 20 = 3 ∨ fld card 25 20 = 9) :
    cardWaves t1 h aix card = 8 + 4 * passesOf ((fld card 51 40 + 1) * (fld card 39 26 + 1)) h := by
  simp [cardWaves, hop, hfn]

theorem cardWaves_vop_of_ne_div_of_ne_sqrt (hop : opOf card = 0x18) (h3 : fld card 25 20 ≠ 3) (h9 : fld card 25 20 ≠ 9) :
    cardWaves t1 h aix card = 8 + passesOf ((fld card 51 40 + 1) * (fld card 39 26 + 1)) h := by
  simp [cardWaves, hop, h3, h9]

theorem cardWaves_curve (hop : opOf card = 0x19) :
    cardWaves t1 h aix card = 8 + 2 * passesOf ((fld card 71 60 + 1) * (fld card 59 46 + 1)) h := by
  simp [cardWaves, hop]

theorem cardWaves_reduce (hop : opOf card = 0x1A) :
    cardWaves t1 h aix card
      = 12 + passesOf ((fld card 71 60 + 1) * (fld card 59 46 + 1)) h + (fld card 71 60 + 1) := by
  simp [cardWaves, hop]

theorem cardWaves_norm (hop : opOf card = 0x1B) :
    cardWaves t1 h aix card
      = 16 + 3 * passesOf ((fld card 51 40 + 1) * (fld card 39 26 + 1)) h + 2 * (fld card 51 40 + 1) := by
  simp [cardWaves, hop]

theorem cardWaves_scan (hop : opOf card = 0x20) :
    cardWaves t1 h aix card = 24 + 2 * ceilDiv (fld card 31 22 + 1) 64 * ceilDiv (fld card 21 12 + 1) 16 := by
  simp [cardWaves, hop]

/-- R160: CH and LEN are at most 1,024, so a SCAN has at most 16 × 64 blocks. -/
theorem cardWaves_scan_le (hop : opOf card = 0x20) : cardWaves t1 h aix card ≤ 2072 := by
  have hch : fld card 31 22 < 1024 := fld_lt_two_pow card 31 22
  have hlen : fld card 21 12 < 1024 := fld_lt_two_pow card 21 12
  have hblocks : ceilDiv (fld card 31 22 + 1) 64 * ceilDiv (fld card 21 12 + 1) 16 ≤ 16 * 64 :=
    Nat.mul_le_mul (ceilDiv_le_of_le_mul (by decide) hch) (ceilDiv_le_of_le_mul (by decide) hlen)
  rw [cardWaves_scan t1 h aix hop, Nat.mul_assoc]
  omega

theorem cardWaves_scan_of_largest (hop : opOf card = 0x20) (hch : fld card 31 22 = 1023) (hlen : fld card 21 12 = 1023) :
    cardWaves t1 h aix card = 2072 := by
  rw [cardWaves_scan t1 h aix hop, hch, hlen]
  rfl

end CardWaves

/-- Settles O58: the row of `cardWaves` for each weft card and for SCAN, where neither the lane groups nor the index register
enter a SCAN's row. -/
theorem cardCosts : Obligations.CardCosts := by
  intro t1 h aix card _ passes
  refine ⟨?vopDivSqrt, ?vopOther, ?curve, ?reduce, ?norm, ?scan⟩
  case vopDivSqrt => exact cardWaves_vop_of_div_or_sqrt t1 h aix
  case vopOther => exact cardWaves_vop_of_ne_div_of_ne_sqrt t1 h aix
  case curve => exact cardWaves_curve t1 h aix
  case reduce => exact cardWaves_reduce t1 h aix
  case norm => exact cardWaves_norm t1 h aix
  case scan =>
    intro hop
    refine ⟨cardWaves_scan t1 h aix hop, fun h' aix' => ?_, cardWaves_scan_le t1 h aix hop,
      cardWaves_scan_of_largest t1 h aix hop⟩
    rw [cardWaves_scan t1 h' aix' hop, cardWaves_scan t1 h aix hop]

end Sys2Proof.Machine
end

section
/-!
PROOF. R385: what DECK_UNLOAD answers while its deck is used, and what it leaves of a deck that is not.
-/
namespace Sys2Proof.Machine

open Sys2Proof Sys2Proof.Safety

/-! ### A deck that is used -/

/-- R385: a job of the deck is Not ready, or an open stream names the deck as its acoustic deck. -/
def State.DeckInUse (s : State) (n : Nat) : Prop :=
  (∃ j ∈ s.sched.jobs, j.deck = n ∧ j.ready = false) ∨ ∃ t ∈ s.audio.streams, t.deck = n

/-- The check that DECK_UNLOAD computes decides the rule's words. -/
theorem State.deckInUse_iff (s : State) (n : Nat) :
    (s.sched.jobs.any (fun j => j.deck == n && !j.ready) || s.audio.streams.any fun t => t.deck == n) = true
      ↔ s.DeckInUse n := by
  simp [State.DeckInUse]

/-- R353: recording a sequence number neither frees a deck nor takes one up. -/
theorem State.accepted_deckInUse (s : State) (h : Hdr) (n : Nat) : (accepted s h).DeckInUse n ↔ s.DeckInUse n := by
  simp only [State.DeckInUse, (OutputOnly.accepted s h).sched, (OutputOnly.accepted s h).audio]

/-- R353: recording a sequence number leaves the loaded decks. -/
theorem State.accepted_deck? (s : State) (h : Hdr) (n : Nat) : (accepted s h).deck? n = s.deck? n := by
  simp only [State.deck?, (OutputOnly.accepted s h).sched]

/-! ### The decks without one of them -/

/-- R385: the state whose loaded decks no longer hold the one of this number. -/
def State.withoutDeck (s : State) (n : Nat) : State :=
  { s with sched := { s.sched with decks := s.sched.decks.filter fun d => d.number != n } }

theorem State.withoutDeck_deck? (s : State) (n : Nat) : (s.withoutDeck n).deck? n = none := by
  simp only [State.deck?, State.withoutDeck, List.find?_eq_none, List.mem_filter]
  rintro d ⟨-, hd⟩
  simpa using hd

/-- R358: keeping and sending a reply leaves the loaded decks. -/
theorem State.answered_deck? (op : Nat) (h : Hdr) (s : State) (st : Status) (context : Word) (rep : Bool)
    (params : List Byte) (n : Nat) : (answered op h s st context rep params).deck? n = s.deck? n := by
  simp only [State.deck?, (OutputOnly.answered op h s st context rep params).sched]

/-! ### DECK_UNLOAD -/

theorem deckUnloadBody_of_inUse {h : Hdr} {s : State} (loaded : (s.deck? h.context.toNat).isSome = true)
    (used : s.DeckInUse h.context.toNat) : deckUnloadBody h [] s = failWith .busy s := by
  have check := (s.deckInUse_iff _).mpr used
  simp [deckUnloadBody, Option.isNone_eq_false_iff.mpr loaded, check]

theorem deckUnloadBody_of_not_inUse {h : Hdr} {s : State} (loaded : (s.deck? h.context.toNat).isSome = true)
    (free : ¬ s.DeckInUse h.context.toNat) : deckUnloadBody h [] s = ok [] (s.withoutDeck h.context.toNat) := by
  have check := Bool.eq_false_of_not_eq_true (mt (s.deckInUse_iff _).mp free)
  simp [deckUnloadBody, Option.isNone_eq_false_iff.mpr loaded, check, State.withoutDeck]

/-- A DECK_UNLOAD that the block takes finishes the answer of its own part. -/
theorem exec_deckUnload_of_takes {s : State} {h : Hdr} {ps : List Byte} (takes : Takes s 0x0107 h ps) :
    exec (.deckUnload h ps) s = .next (State.finish 0x0107 h (deckUnloadBody h ps (accepted s h))) :=
  congrArg Host.Outcome.next (State.command_of_takes takes (.deckUnload h ps) (deckUnloadBody h))

/-- R385: a used deck is answered BUSY and stays. -/
theorem exec_deckUnload_of_inUse {s : State} {h : Hdr} (takes : Takes s 0x0107 h [])
    (loaded : (s.deck? h.context.toNat).isSome = true) (used : s.DeckInUse h.context.toNat) :
    exec (.deckUnload h []) s = .next (answered 0x0107 h (accepted s h) .busy h.context false []) := by
  rw [← State.accepted_deck? s h] at loaded
  rw [exec_deckUnload_of_takes takes,
    deckUnloadBody_of_inUse loaded ((s.accepted_deckInUse h _).mpr used)]
  exact congrArg _ (State.finish_answer 0x0107 h .busy none false [] _)

/-- R385: a deck that is not used is answered OK and removed. -/
theorem exec_deckUnload_of_not_inUse {s : State} {h : Hdr} (takes : Takes s 0x0107 h [])
    (loaded : (s.deck? h.context.toNat).isSome = true) (free : ¬ s.DeckInUse h.context.toNat) :
    Replies (.deckUnload h []) 0x0107 h s ((accepted s h).withoutDeck h.context.toNat) [] := by
  rw [← State.accepted_deck? s h] at loaded
  rw [Replies, exec_deckUnload_of_takes takes,
    deckUnloadBody_of_not_inUse loaded (mt (s.accepted_deckInUse h _).mp free)]
  exact congrArg _ (State.finish_answer 0x0107 h .ok none false [] _)

/-- Settles O59: by the two answers of the command's own part, and since no deck of the number is left among those that do not
carry it. -/
theorem deckUnloadBusy : Obligations.DeckUnloadBusy := by
  intro s h takes loaded used
  refine ⟨fun inUse => exec_deckUnload_of_inUse takes loaded inUse, fun free => ?_⟩
  exact ⟨_, exec_deckUnload_of_not_inUse takes loaded free,
    (State.answered_deck? ..).trans (State.withoutDeck_deck? _ _)⟩

end Sys2Proof.Machine
end

section
/-!
PROOF. R480, R482: in which states a held WAKE is a wake event, and what it starts there.
-/
namespace Sys2Proof.Machine

open Sys2Proof

/-! ### What a level on WAKE does -/

theorem exec_wakePin (s : State) (heldUs : Nat) :
    exec (.wakePin heldUs) s = .next (if decide (100 ≤ heldUs) && s.pinWakes then s.wake 2 else s) := rfl

/-- R482: a level that is too short, or that the device ignores, changes nothing. -/
theorem exec_wakePin_of_ignored {s : State} {heldUs : Nat} (h : heldUs < 100 ∨ s.pinWakes = false) :
    exec (.wakePin heldUs) s = .next s := by
  rw [exec_wakePin]
  rcases h with hshort | hign
  · simp [hshort]
  · simp [hign]

/-- R482: a level held long enough in a state that it wakes is a wake, with the cause of the pin. -/
theorem exec_wakePin_of_wakes {s : State} {heldUs : Nat} (hheld : 100 ≤ heldUs) (hwakes : s.pinWakes = true) :
    exec (.wakePin heldUs) s = .next (s.wake 2) := by
  simp [exec_wakePin, hheld, hwakes]

/-! ### The states that WAKE wakes, outside a transition -/

section Settled
variable {s : State} (hsettled : s.power.transition = none)
include hsettled

theorem State.pinWakes_of_run_or_idle (hstate : s.power.state = .run ∨ s.power.state = .idle) : s.pinWakes = false := by
  rcases hstate with hrun | hidle
  · simp [State.pinWakes, hsettled, hrun]
  · simp [State.pinWakes, hsettled, hidle]

theorem State.pinWakes_of_sleep_or_deepSleep (hstate : s.power.state = .sleep ∨ s.power.state = .deepSleep) :
    s.pinWakes = (s.power.boot == .ready) := by
  rcases hstate with hsleep | hdeep
  · simp [State.pinWakes, hsettled, hsleep]
  · simp [State.pinWakes, hsettled, hdeep]

theorem State.pinWakes_of_off (hoff : s.power.state = .off) : s.pinWakes = (s.power.boot == .unpowered) := by
  simp [State.pinWakes, hsettled, hoff]

/-- R479: in Off a wake of any cause starts a cold boot. -/
theorem State.wake_of_off (hoff : s.power.state = .off) (cause : Byte) :
    s.wake cause = s.mapPower fun p => { p with boot := .coldPending } := by
  simp [State.wake, hsettled, hoff]

end Settled

/-- Settles O60: by the length of the level and, outside a transition, by the power state. -/
theorem wakePinWakes : Obligations.WakePinWakes := by
  intro s heldUs
  refine ⟨?short, ?runOrIdle, ?asleep, ?off⟩
  case short => exact fun hshort => exec_wakePin_of_ignored (.inl hshort)
  case runOrIdle =>
    exact fun hsettled hstate => exec_wakePin_of_ignored (.inr (State.pinWakes_of_run_or_idle hsettled hstate))
  case asleep =>
    intro hheld hsettled hstate hready
    have hwakes : s.pinWakes = true := by simp [State.pinWakes_of_sleep_or_deepSleep hsettled hstate, hready]
    exact exec_wakePin_of_wakes hheld hwakes
  case off =>
    intro hheld hsettled hoff hunpowered
    have hwakes : s.pinWakes = true := by simp [State.pinWakes_of_off hsettled hoff, hunpowered]
    rw [exec_wakePin_of_wakes hheld hwakes, State.wake_of_off hsettled hoff]

end Sys2Proof.Machine
end

section
/-!
PROOF. R349 to R351: the fields of the packet that R349 lays out, and that reading it gives the command back.
-/
namespace Sys2Proof.Machine

open Sys2Proof Sys2Proof.Safety

/-! ### Numbers as bytes -/

@[simp] theorem length_leBytes (n v : Nat) : (leBytes n v).length = n := by
  induction n generalizing v with
  | zero => rfl
  | succ n ih => simp [leBytes, ih]

@[simp] theorem length_beBytes (n v : Nat) : (beBytes n v).length = n := by simp [beBytes]

@[simp] theorem length_zeros (n : Nat) : (zeros n).length = n := List.length_replicate

theorem leNat_leBytes (n v : Nat) : leNat (leBytes n v) = v % 256 ^ n := by
  induction n generalizing v with
  | zero => simp [leBytes, leNat, Nat.mod_one]
  | succ n ih =>
    have step : leNat (leBytes (n + 1) v) = v % 256 + 256 * leNat (leBytes n (v / 256)) := by
      simp [leNat, leBytes]
    rw [step, ih, Nat.pow_succ', Nat.mod_mul]

theorem beNat_beBytes (n v : Nat) : beNat (beBytes n v) = v % 256 ^ n := by
  rw [← leNat_leBytes, beNat, beBytes, List.foldl_reverse]
  exact congrArg (fun f => List.foldr f 0 (leBytes n v)) (by funext b m; omega)

/-- A number that fits its bytes is read back. -/
theorem beNat_beBytes_of_lt {n v : Nat} (h : v < 256 ^ n) : beNat (beBytes n v) = v := by
  rw [beNat_beBytes, Nat.mod_eq_of_lt h]

/-! ### Fields of concatenated strings -/

/-- A field of a string that begins with other bytes. -/
theorem be_append_right {pre : List Byte} {off : Nat} (hoff : pre.length ≤ off) (l : List Byte) (n : Nat) :
    be (pre ++ l) off n = be l (off - pre.length) n := by
  simp [be, slice, List.drop_append, List.drop_eq_nil_of_le hoff]

/-- A number that fits the field that stands first. -/
theorem be_beBytes_append {n v : Nat} (h : v < 256 ^ n) (l : List Byte) : be (beBytes n v ++ l) 0 n = v := by
  simp [be, slice, beNat_beBytes_of_lt h]

theorem be_beBytes {n v : Nat} (h : v < 256 ^ n) : be (beBytes n v) 0 n = v := by
  simpa using be_beBytes_append h []

theorem beBytes_one (v : Nat) : beBytes 1 v = [BitVec.ofNat 8 v] := rfl

/-! ### The packet of R349 -/

/-- R349: the header of a packet up to HEADER_CRC. -/
def headBytes (op flags status : Nat) (seq : Word) (device master : Byte) (context hostTag : Word) (len : Nat) : List Byte :=
  beBytes 2 0x594C ++ (beBytes 1 1 ++ (beBytes 1 flags ++ (beBytes 2 op ++ (beBytes 2 status ++ (beBytes 4 seq.toNat
    ++ (beBytes 1 device.toNat ++ (beBytes 1 master.toNat ++ (beBytes 2 len ++ (beBytes 4 context.toNat
    ++ (beBytes 4 hostTag.toNat ++ zeros 4))))))))))

/-- R349: PARAM_CRC, which is 0 without parameters. -/
def paramCrc (ps : List Byte) : Nat := if ps.isEmpty then 0 else (crc32c ps).toNat

theorem paramCrc_lt (ps : List Byte) : paramCrc ps < 256 ^ 4 := by
  unfold paramCrc
  split
  · decide
  · exact BitVec.isLt _

section Layout
variable {op flags status : Nat} {seq : Word} {device master : Byte} {context hostTag : Word} {ps b : List Byte}

@[simp] theorem length_headBytes (len : Nat) :
    (headBytes op flags status seq device master context hostTag len).length = 28 := by
  simp [headBytes]

variable (layout : b = packetBytes op flags status seq device master context hostTag ps)
include layout

/-- A packet in its four parts. -/
theorem packet_parts : b = headBytes op flags status seq device master context hostTag ps.length
    ++ (beBytes 4 (crc32c (headBytes op flags status seq device master context hostTag ps.length)).toNat
    ++ (ps ++ beBytes 4 (paramCrc ps))) := by
  subst layout
  simp [packetBytes, headBytes, paramCrc, beBytes_one]

theorem packet_length : b.length = 36 + ps.length := by
  simp [packet_parts layout]
  omega

theorem packet_magic : be b 0 2 = 0x594C := by
  simp [packet_parts layout, headBytes, be_beBytes_append]

theorem packet_version : b.getD 2 0#8 = 1 := by
  simp [packet_parts layout, headBytes, beBytes_one]

theorem packet_flags : b.getD 3 0#8 = BitVec.ofNat 8 flags := by
  simp [packet_parts layout, headBytes, List.getElem?_append, beBytes_one]

theorem packet_opcode (hop : op < 65536) : be b 4 2 = op := by
  simp [packet_parts layout, headBytes, be_append_right, be_beBytes_append, hop]

theorem packet_status (hstatus : status < 65536) : be b 6 2 = status := by
  simp [packet_parts layout, headBytes, be_append_right, be_beBytes_append, hstatus]

theorem packet_seq : be b 8 4 = seq.toNat := by
  simp [packet_parts layout, headBytes, be_append_right, be_beBytes_append, seq.isLt]

theorem packet_device : b.getD 12 0#8 = device := by
  simp [packet_parts layout, headBytes, List.getElem?_append, beBytes_one]

theorem packet_master : b.getD 13 0#8 = master := by
  simp [packet_parts layout, headBytes, List.getElem?_append, beBytes_one]

theorem packet_paramLen (hlen : ps.length < 65536) : be b 14 2 = ps.length := by
  simp [packet_parts layout, headBytes, be_append_right, be_beBytes_append, hlen]

theorem packet_context : be b 16 4 = context.toNat := by
  simp [packet_parts layout, headBytes, be_append_right, be_beBytes_append, context.isLt]

theorem packet_hostTag : be b 20 4 = hostTag.toNat := by
  simp [packet_parts layout, headBytes, be_append_right, be_beBytes_append, hostTag.isLt]

theorem packet_reserved : be b 24 4 = 0 := by
  simp [packet_parts layout, headBytes, be_append_right]
  rfl

theorem packet_headerCrc : be b 28 4 = (crc32c (b.take 28)).toNat := by
  have head : b.take 28 = headBytes op flags status seq device master context hostTag ps.length := by
    simp [packet_parts layout]
  rw [head, packet_parts layout, be_append_right (by simp)]
  simp only [length_headBytes, Nat.sub_self]
  exact be_beBytes_append (BitVec.isLt _) _

theorem packet_params : slice b 32 ps.length = ps := by
  simp [packet_parts layout, slice, List.drop_append, List.drop_eq_nil_of_le]

theorem packet_paramCrc : be b (32 + ps.length) 4 = paramCrc ps := by
  rw [packet_parts layout, be_append_right (by simp; omega), be_append_right (by simp; omega),
    be_append_right (by simp; omega)]
  simp only [length_headBytes, length_beBytes, show 32 + ps.length - 28 - 4 - ps.length = 0 by omega]
  exact be_beBytes (paramCrc_lt ps)

end Layout

/-! ### The row that an opcode selects -/

/-- R351, R374: the opcodes that are known lie in the groups 0x00 to 0x0B. -/
theorem opcode_lt_of_instrOf {op : Nat} {h : Hdr} {ps : List Byte} {i : Instr} (row : instrOf op h ps = some i) :
    op < 0x0C00 := by
  unfold instrOf at row
  split at row
  case h_61 => cases row
  all_goals decide

/-- R351: whether an opcode is known depends on neither the header nor the parameters. -/
theorem instrOf_isSome (op : Nat) (h h' : Hdr) (ps ps' : List Byte) :
    (instrOf op h ps).isSome = (instrOf op h' ps').isSome := by
  unfold instrOf
  split <;> rfl

/-! ### The round trip -/

/-- The checks and the reading of a packet that R349 lays out for one command, from its known fields. -/
theorem rawInstr_of_packet {h : Hdr} {op : Nat} {ps b : List Byte} {i : Instr} (row : instrOf op h ps = some i)
    (hlen : ps.length ≤ 8960)
    (layout : b = packetBytes op (if h.iface.master = .mgmt then 16 else 0) 0 h.seq h.device
      (BitVec.ofNat 8 h.iface.master.code) h.context h.hostTag ps) : rawInstr h.iface h.src b = some i := by
  have hdr : rawHdr h.iface h.src b = h := by
    simp [rawHdr, -List.getD_eq_getElem?_getD, packet_seq layout, packet_device layout,
      packet_context layout, packet_hostTag layout]
  have opcode : rawOpcode b = op := packet_opcode layout (Nat.lt_trans (opcode_lt_of_instrOf row) (by decide))
  have params : rawParams b = ps := by
    rw [rawParams, packet_paramLen layout (by omega), packet_params layout]
  have whole : rawMore b = false := by
    have bit : (b.getD 3 0#8).getLsbD 2 = false := by
      rw [packet_flags layout]
      split <;> rfl
    exact bit
  have known : (instrOf op h []).isNone = false := by
    rw [Option.isNone_eq_false_iff, instrOf_isSome op h h [] ps, row]
    rfl
  simp [rawInstr, hdr, opcode, params, whole, known, row]

/-- Settles O51: each check of R351 reads the field that R349 put there, and the row of the opcode is the command's own. -/
theorem packetRoundTrip : Obligations.PacketRoundTrip := by
  intro i op h ps packet good hlen b
  have row : instrOf op h ps = some i := by
    simp only [commandOk, packet, Bool.and_eq_true, decide_eq_true_eq] at good
    exact good.1
  have layout : b = packetBytes op (if h.iface.master = .mgmt then 16 else 0) 0 h.seq h.device
      (BitVec.ofNat 8 h.iface.master.code) h.context h.hostTag ps := rfl
  clear_value b
  have hlong := packet_length layout
  have hparams := packet_paramLen layout (by omega)
  refine ⟨hlong, ?header, ?fault, rawInstr_of_packet row hlen layout⟩
  case header =>
    have flags : fld (b.getD 3 0#8) 1 0 = 0 := by
      rw [packet_flags layout]
      split <;> rfl
    simp [rawHeaderOk, -List.getD_eq_getElem?_getD, hlong, packet_magic layout, packet_headerCrc layout, flags]
    omega
  case fault =>
    have crc : be b (32 + ps.length) 4 = if ps.length = 0 then 0 else (crc32c (rawParams b)).toNat := by
      rw [packet_paramCrc layout, rawParams, hparams, packet_params layout]
      simp [paramCrc]
    have reserved : fld (b.getD 3 0#8) 7 5 = 0 := by
      rw [packet_flags layout]
      split <;> rfl
    have agrees : (b.getD 13 0#8).toNat = h.iface.master.code
        ∧ (b.getD 3 0#8)[4] = (h.iface.master == .mgmt) := by
      rw [packet_master layout, packet_flags layout]
      cases h.iface.master <;> simp [MasterId.code]
    simp [rawFault, -List.getD_eq_getElem?_getD, hparams, hlong, Nat.not_lt.mpr hlen, crc, packet_version layout,
      packet_status layout, packet_reserved layout, reserved, agrees]

end Sys2Proof.Machine
end

section
/-!
PROOF. What every command shares: the command's own part runs on the accepted state, which differs from the state in the
protocol's record alone, and its answer is the reply.
-/
namespace Sys2Proof.Machine

open Sys2Proof Sys2Proof.Safety

/-! ### The accepted state -/

section Accepted
variable (s : State) (h : Hdr)

@[simp] theorem accepted_pending : (accepted s h).pending = s.pending := (OutputOnly.accepted s h).pending
@[simp] theorem accepted_out : (accepted s h).out = s.out := State.mapMaster_out s _ _
@[simp] theorem accepted_free : (accepted s h).free = s.free := (OutputOnly.accepted s h).free
@[simp] theorem accepted_live : (accepted s h).live = s.live := (OutputOnly.accepted s h).live
@[simp] theorem accepted_flash : (accepted s h).flash = s.flash := (OutputOnly.accepted s h).flash
@[simp] theorem accepted_memory : (accepted s h).memory = s.memory := (OutputOnly.accepted s h).memory
@[simp] theorem accepted_units : (accepted s h).units = s.units := (OutputOnly.accepted s h).units
@[simp] theorem accepted_sched : (accepted s h).sched = s.sched := (OutputOnly.accepted s h).sched
@[simp] theorem accepted_audio : (accepted s h).audio = s.audio := (OutputOnly.accepted s h).audio
@[simp] theorem accepted_links : (accepted s h).links = s.links := State.mapMaster_links s _ _
@[simp] theorem accepted_net : (accepted s h).net = s.net := (OutputOnly.accepted s h).net
@[simp] theorem accepted_power : (accepted s h).power = s.power := (OutputOnly.accepted s h).power
@[simp] theorem accepted_bark : (accepted s h).bark = s.bark := (OutputOnly.accepted s h).bark
@[simp] theorem accepted_recorder : (accepted s h).recorder = s.recorder := (OutputOnly.accepted s h).recorder
@[simp] theorem accepted_pace : (accepted s h).pace = s.pace := (OutputOnly.accepted s h).pace

/-- R353: recording a sequence number changes the protocol's record alone. -/
theorem accepted_eq : ∃ p : Proto, accepted s h = { s with proto := p } := by
  unfold accepted
  cases h.iface.master <;> exact ⟨_, rfl⟩

/-- What does not read the protocol's record reads the accepted state as it reads the state. -/
theorem accepted_reads {α : Type} {f : State → α} (indifferent : ∀ (t : State) (p : Proto), f { t with proto := p } = f t) :
    f (accepted s h) = f s := by
  obtain ⟨p, hp⟩ := accepted_eq s h
  rw [hp, indifferent]

end Accepted

/-! ### Checks and answers -/

/-- R360: no field is at fault when every check passes. -/
theorem firstBad_eq_none {cs : List (Nat × Bool)} : firstBad cs = none ↔ ∀ c ∈ cs, c.2 = true := by
  simp [firstBad]

theorem firstBad_ne_some {cs : List (Nat × Bool)} {off : Nat} (hgood : ∀ c ∈ cs, c.2 = true) : firstBad cs ≠ some off := by
  simp [firstBad_eq_none.mpr hgood]

/-- R358: a command that the block takes answers with what its own part gives. -/
theorem exec_of_body {i : Instr} {op : Nat} {h : Hdr} {ps : List Byte} {s s' : State} {st : Status} {params : List Byte}
    {context : Option Word} {rep : Bool} {run : List Byte → State → Answer} (takes : Takes s op h ps)
    (runs : exec i s = .next (s.command i op h ps false run))
    (body : run ps (accepted s h) = ⟨st, params, context, rep, s', id⟩) :
    exec i s = .next (answered op h s' st (context.getD h.context) rep params) := by
  rw [runs, State.command_of_takes takes, body]
  rfl

/-- R358: a command that the block takes answers with the CONTEXT that its own part assigns. -/
theorem exec_of_body_assigning {i : Instr} {op : Nat} {h : Hdr} {ps : List Byte} {s s' : State} {st : Status}
    {params : List Byte} {context : Word} {rep : Bool} {run : List Byte → State → Answer} (takes : Takes s op h ps)
    (runs : exec i s = .next (s.command i op h ps false run))
    (body : run ps (accepted s h) = ⟨st, params, some context, rep, s', id⟩) :
    exec i s = .next (answered op h s' st context rep params) := exec_of_body takes runs body

/-- R358: a command that the block takes replies with what its own part answers. -/
theorem replies_of_body {i : Instr} {op : Nat} {h : Hdr} {ps : List Byte} {s s' : State} {params : List Byte}
    {run : List Byte → State → Answer} (takes : Takes s op h ps)
    (runs : exec i s = .next (s.command i op h ps false run)) (body : run ps (accepted s h) = ok params s') :
    Replies i op h s s' params := exec_of_body takes runs body

/-! ### Numbers that fields spell -/

theorem beNat_lt (bs : List Byte) : beNat bs < 256 ^ bs.length := by
  induction bs using List.reverseRecOn with
  | nil => decide
  | append_singleton bs b ih =>
    have step : beNat (bs ++ [b]) = beNat bs * 256 + b.toNat := by simp [beNat]
    rw [step, List.length_append, List.length_singleton, Nat.pow_succ]
    have hb := b.isLt
    omega

theorem be_lt (bs : List Byte) (off len : Nat) : be bs off len < 256 ^ len :=
  Nat.lt_of_lt_of_le (beNat_lt _) (Nat.pow_le_pow_right (by decide) (by simp [slice]))

/-- A field of four bytes that is not 0 is a word that is not 0. -/
theorem word_ne_zero {bs : List Byte} {off : Nat} (hne : be bs off 4 ≠ 0) : (BitVec.ofNat 32 (be bs off 4)) ≠ 0#32 := by
  intro e
  have hlt := be_lt bs off 4
  have hval := congrArg BitVec.toNat e
  rw [BitVec.toNat_ofNat, show 2 ^ 32 = 256 ^ 4 by decide, Nat.mod_eq_of_lt hlt] at hval
  exact hne hval

end Sys2Proof.Machine
end

section
/-!
PROOF. R352, R374 to R376: the commands of group 0x00 that open the session, answer records and reset.
-/
namespace Sys2Proof.Machine

open Sys2Proof Sys2Proof.Safety

theorem helloBody_ok {h : Hdr} {ps : List Byte} (s : State) (hlen : ps.length = 4) (hmask : be ps 0 2 < 64)
    (hzero : zeroAt ps 2 2 = true) :
    helloBody h ps s = ok (beBytes 2 8960 ++ zeros 2 ++ beBytes 4 s.bark.fwVersion.toNat)
      (s.mapMaster h.iface.master fun ms => ms.opened h (be ps 0 2)) := by
  simp [helloBody, hlen, firstBad, hmask, hzero]

theorem resetBody_ok {ps : List Byte} (s : State) (hlen : ps.length = 4) (hkind : be ps 0 1 ≤ 1)
    (hzero : zeroAt ps 1 3 = true) :
    resetBody ps s = ok [] (s.mapPower fun p => { p with boot := if be ps 0 1 = 0 then .warmPending else .coldPending }) := by
  simp [resetBody, hlen, firstBad, hkind, hzero]

/-- Settles O1: the own part of each command answers its record, of a state that the sequence number alone has changed. -/
theorem sessionCommandsComplete : Obligations.SessionCommandsComplete := by
  intro s h ps
  refine ⟨?hello, ?identify, ?ping, ?status, ?reset⟩
  case hello =>
    intro takes hlen hmask hzero
    refine replies_of_body takes rfl ((helloBody_ok _ hlen hmask hzero).trans ?_)
    rw [accepted_bark]
    rfl
  case identify =>
    intro takes
    refine replies_of_body takes rfl (congrArg (ok · (accepted s h)) ?_)
    exact accepted_reads s h (f := State.identity) fun _ _ => rfl
  case ping =>
    intro takes hlen
    exact replies_of_body takes rfl (if_pos hlen)
  case status => exact fun takes => replies_of_body takes rfl rfl
  case reset =>
    intro takes hlen hkind hzero
    exact replies_of_body takes rfl (resetBody_ok _ hlen hkind hzero)

end Sys2Proof.Machine
end

section
/-!
PROOF. R377 to R382: MODEL_LOAD, MODEL_VERIFY and MODEL_UNLOAD without a fault.
-/
namespace Sys2Proof.Machine

open Sys2Proof Sys2Proof.Safety

/-! ### What of the models is read on the accepted state -/

/-- R378: the lowest free range is a function of the capacity of model space and of the loaded models. -/
theorem modelPlace_reads : ∃ place : Nat → List Model → Nat → Option Nat,
    State.modelPlace = fun s n => place s.modelCapacity s.sched.models n :=
  ⟨fun cap models n =>
    let size := modelRange n
    let ranges := models.map fun m => (m.base, m.base + modelRange m.bytes)
    let starts := (0 :: ranges.map (·.2)).filter fun b =>
      b + size ≤ cap && ranges.all fun r => b + size ≤ r.1 || r.2 ≤ b
    match starts with
    | [] => none
    | b :: bs => some (bs.foldl min b), rfl⟩

section Accepted
variable (s : State) (h : Hdr)

@[simp] theorem accepted_model? (id : Word) : (accepted s h).model? id = s.model? id :=
  accepted_reads s h (f := (·.model? id)) fun _ _ => rfl
@[simp] theorem accepted_modelKey? (id : Word) : (accepted s h).modelKey? id = s.modelKey? id :=
  accepted_reads s h (f := (·.modelKey? id)) fun _ _ => rfl
@[simp] theorem accepted_channels : (accepted s h).channels = s.channels :=
  accepted_reads s h (f := (·.channels)) fun _ _ => rfl
@[simp] theorem accepted_extModel : (accepted s h).extModel = s.extModel :=
  accepted_reads s h (f := (·.extModel)) fun _ _ => rfl
@[simp] theorem accepted_modelPlace (n : Nat) : (accepted s h).modelPlace n = s.modelPlace n := by
  have hcap : (accepted s h).modelCapacity = s.modelCapacity := by
    rw [State.modelCapacity, State.modelCapacity, accepted_channels, accepted_extModel]
  obtain ⟨place, hplace⟩ := modelPlace_reads
  simp only [hplace, hcap, accepted_sched]
@[simp] theorem accepted_modelRead (o n : Nat) : (accepted s h).modelRead o n = s.modelRead o n :=
  accepted_reads s h (f := (·.modelRead o n)) fun _ _ => rfl
@[simp] theorem accepted_programOk (o n : Nat) : (accepted s h).programOk o n = s.programOk o n :=
  accepted_reads s h (f := (·.programOk o n)) fun _ _ => rfl
@[simp] theorem accepted_programsOf : (accepted s h).programsOf = s.programsOf :=
  accepted_reads s h (f := (·.programsOf)) fun _ _ => rfl
@[simp] theorem accepted_badSegments (m : Model) (a n : Nat) : (accepted s h).badSegments m a n = s.badSegments m a n :=
  accepted_reads s h (f := (·.badSegments m a n)) fun _ _ => rfl
@[simp] theorem accepted_modelBusy (m : Model) : (accepted s h).modelBusy m = s.modelBusy m :=
  accepted_reads s h (f := (·.modelBusy m)) fun _ _ => rfl

end Accepted

/-- A new model misses each of its segments. -/
theorem Model.missing_of_no_segments {m : Model} (hnone : m.segments = []) : m.missing = List.range (segmentsOf m.bytes) := by
  simp [Model.missing, Model.has, hnone]

theorem segmentsOf_pos {n : Nat} (hn : 1 ≤ n) : 0 < segmentsOf n := by
  unfold segmentsOf ceilDiv segmentBytes
  omega

/-! ### MODEL_LOAD, MODEL_VERIFY and MODEL_UNLOAD -/

/-- R377: the form of a MODEL_LOAD that its OP selects. -/
theorem modelLoadBody_of_op {ps : List Byte} (s : State) (hlen : 0 < ps.length) :
    (be ps 0 1 = 0 → modelLoadBody ps s = modelOpen ps s) ∧ (be ps 0 1 = 1 → modelLoadBody ps s = modelSegment ps s) ∧
      (be ps 0 1 = 2 → modelLoadBody ps s = modelCommit ps s) := by
  have hne : ps ≠ [] := List.length_pos_iff.mp hlen
  refine ⟨fun h => ?_, fun h => ?_, fun h => ?_⟩ <;> simp [modelLoadBody, hne, h]

/-- R379: a SEGMENT that passes its checks is kept with its plain bytes, or left alone when it is present. -/
theorem modelSegment_ok {ps bytes : List Byte} {s : State} {m : Model} (hlen : ps.length = 64 + be ps 12 4)
    (hzero : zeroAt ps 1 3 = true) (hid : be ps 4 4 = m.id.toNat) (hm : s.model? m.id = some m) (hload : m.committed = false)
    (hindex : be ps 8 4 < segmentsOf m.bytes) (hsize : be ps 12 4 = m.segmentLen (be ps 8 4))
    (hdigest : Crypto.digest (ps.drop 64) = slice ps 16 32) (htag : m.encrypted = false → zeroAt ps 48 16 = true)
    (hplain : (if m.encrypted = false then some (ps.drop 64)
      else (s.modelKey? m.keyId).bind fun k => openSegment m k (be ps 8 4) (slice ps 48 16) (ps.drop 64)) = some bytes) :
    let kept := insertSegment (be ps 8 4) (slice ps 16 32) m.segments
    modelSegment ps s = if m.has (be ps 8 4) then ok m.progress s else
      ok (Model.progress { m with segments := kept }) ((s.modelWrite (m.base + 2097152 * be ps 8 4) bytes).mapModel m.id fun k =>
        { k with
          segments := kept
          plain := if m.encrypted then insertSegment (be ps 8 4) (Crypto.digest bytes) m.plain else m.plain }) := by
  have hfilter : (s.model? m.id).filter (fun m => !m.committed) = some m := by simp [hm, hload, Option.filter]
  have htag' : ¬ (m.encrypted = false ∧ zeroAt ps 48 16 = false) := fun ⟨he, hz⟩ => by simp [htag he] at hz
  unfold modelSegment
  simp only [hid, BitVec.ofNat_toNat, BitVec.setWidth_eq, hfilter]
  simp [hlen, hzero, Nat.not_le.mpr hindex, ← hsize, hdigest, htag', hplain, segmentBytes]

/-- Settles O2: the checks of each form pass, by the hypotheses on its fields, and what follows them is its answer. -/
theorem modelLoadingCompletes : Obligations.ModelLoadingCompletes := by
  refine ⟨?opened, ?loaded⟩
  case opened =>
    intro s h ps base m
    dsimp only
    intro takes hlen hop hflags hzero hid hbytes hmax hkey hzero2 hinstalled
    have hbody := (modelLoadBody_of_op (ps := ps) (accepted s h) (by omega)).1 hop
    have hchecks : firstBad [(1, decide (be ps 1 1 < 4)), (2, zeroAt ps 2 2), (4, BitVec.ofNat 32 (be ps 4 4) != 0),
        (8, decide (1 ≤ be ps 8 8) && decide (be ps 8 8 ≤ 2 ^ 41 - 2 ^ 21)), (16, bitOf (be ps 1 1) 1 || BitVec.ofNat 32 (be ps 16 4) == 0),
        (20, zeroAt ps 20 4)] = none := by
      rw [firstBad_eq_none]
      have hmax' : be ps 8 8 ≤ 2199021158400 := hmax
      simp [hflags, hzero, word_ne_zero hid, hbytes, hzero2, hmax']
      exact hkey
    refine ⟨?new, ?resumed⟩
    case new =>
      intro hresume hnew hplace hroom
      refine replies_of_body takes rfl (hbody.trans ?_)
      have hunlocked : ¬ (bitOf (be ps 1 1) 1 = true ∧ s.modelKey? (BitVec.ofNat 32 (be ps 16 4)) = none) :=
        fun ⟨e, k⟩ => by simpa [k] using hinstalled e
      have hhead : (List.range (segmentsOf (be ps 8 8))).head?.getD 0xFFFFFFFF = 0 := by
        rw [← Nat.succ_pred_eq_of_pos (segmentsOf_pos hbytes), List.range_succ_eq_map]
        rfl
      simp only [modelOpen, hlen, hchecks]
      simp [hresume, hnew, hplace, Nat.not_le.mpr hroom, hunlocked, Model.progress, Model.missing_of_no_segments, hhead]
    case resumed =>
      intro hresume hm hload henc hbytes' hkey'
      refine replies_of_body takes rfl (hbody.trans ?_)
      have hunlocked : ¬ (bitOf (be ps 1 1) 1 = true ∧ s.modelKey? (BitVec.ofNat 32 (be ps 16 4)) = none) :=
        fun ⟨e, k⟩ => by simpa [k] using hinstalled e
      have hfilter : (some m).filter (fun m => !m.committed) = some m := by simp [hload, Option.filter]
      simp only [modelOpen, hlen, hchecks, accepted_model?, hm, hfilter, hresume]
      simp [henc, hbytes', hkey', hunlocked, Model.progress, firstBad]
  case loaded =>
    intro s h ps bytes m hm
    refine ⟨?segment, ?commit, ?verify, ?unload⟩
    case segment =>
      dsimp only
      intro takes hlen hop hzero hid hload hindex hsize hlen' hdigest hplain henc
      have hbody := (modelLoadBody_of_op (ps := ps) (accepted s h) (by omega)).2.1 hop
      have hopened : (if m.encrypted = false then some (ps.drop 64)
          else ((accepted s h).modelKey? m.keyId).bind fun k => openSegment m k (be ps 8 4) (slice ps 48 16) (ps.drop 64))
          = some bytes := by
        cases he : m.encrypted with
        | false => simp [(hplain he).2]
        | true => simpa using henc he
      have hrun := modelSegment_ok (s := accepted s h) hlen' hzero hid (by simpa using hm) hload hindex hsize hdigest
        (fun he => (hplain he).1) hopened
      refine ⟨fun hnew => ?_, fun hpresent => ?_⟩
      · refine replies_of_body takes rfl (hbody.trans (hrun.trans (if_neg ?_)))
        simp [hnew]
      · exact replies_of_body takes rfl (hbody.trans (hrun.trans (if_pos hpresent)))
    case commit => 
      dsimp only
      intro takes hlen hop hzero hid hhot hprog hzero2 hload hmissing hhots hprogs hmine hfits
      have hbody := (modelLoadBody_of_op (ps := ps) (accepted s h) (by omega)).2.2 hop
      refine replies_of_body takes rfl (hbody.trans ?_)
      have hfilter : (some m).filter (fun m => !m.committed && m.missing.isEmpty) = some m := by
        simp [hload, hmissing, Option.filter]
      have hshort : ¬ ps.length < 16 := by omega
      have hchecks : firstBad [(1, zeroAt ps 1 3), (8, decide (be ps 8 2 ≤ 64)), (10, decide (be ps 10 2 ≤ 256)), (12, zeroAt ps 12 4)] = none := by
        simp [firstBad, hzero, hzero2, hhot, hprog]
      unfold modelCommit
      simp only [hchecks, accepted_model?, hm, hfilter, hid, BitVec.ofNat_toNat, BitVec.setWidth_eq, accepted_programsOf,
        accepted_sched, accepted_programOk]
      rw [if_neg (by simp [hlen]; omega)]
      split
      case h_1 off hoff =>
        refine absurd hoff (firstBad_ne_some ?_)
        simp only [List.mem_append, List.mem_map]
        rintro c (⟨⟨x, i⟩, hx, rfl⟩ | ⟨p, ⟨⟨o, i⟩, ho, rfl⟩, rfl⟩)
        · simpa [and_assoc] using hhots x (List.fst_mem_of_mem_zipIdx hx)
        · have hfit := hprogs o (List.fst_mem_of_mem_zipIdx ho)
          simp [hfit.1, hfit.2.1]
      case h_2 =>
        split
        case h_1 off hoff =>
          refine absurd hoff (firstBad_ne_some ?_)
          simp only [List.mem_map]
          rintro c ⟨p, ⟨⟨o, i⟩, ho, rfl⟩, rfl⟩
          exact (hprogs o (List.fst_mem_of_mem_zipIdx ho)).2.2
        case h_2 =>
          rw [if_neg, if_neg]
          · simp only [List.any_eq_true, List.mem_range, Bool.and_eq_true, bne_iff_ne, decide_eq_true_eq]
            rintro ⟨d, hd, hnonzero, hover⟩
            rcases hfits d hd with hzero | hfit
            · exact hnonzero hzero
            · rw [accepted_units] at hover
              exact Nat.not_lt.mpr hfit hover
          · simp only [List.any_eq_true, Bool.or_eq_true, List.contains_iff_mem, bne_iff_ne]
            rintro ⟨p, hp, hother | htwice⟩
            · exact (hmine p hp).1 hother
            · exact htwice (hmine p hp).2
    case verify =>
      intro bad takes hlen hid hcount hcount' hend
      refine ⟨fun hnone => ?_, fun first more hsome => ?_⟩
      · refine replies_of_body takes rfl ?_
        simp [modelVerifyBody, hlen, hid, hm, hcount, hcount', Nat.not_lt.mpr hend, show s.badSegments m _ _ = [] from hnone]
      · refine replies_of_body takes rfl ?_
        have hlist : s.badSegments m (be ps 4 4) (be ps 8 4) = first :: more := hsome
        simp [bad, modelVerifyBody, hlen, hid, hm, hcount, hcount', Nat.not_lt.mpr hend, hlist]
    case unload =>
      intro takes hlen hid hfree
      refine replies_of_body takes rfl ?_
      simp [modelUnloadBody, hlen, hid, hm, hfree]

end Sys2Proof.Machine
end

section
/-!
PROOF. R383 to R385: MEM_WRITE, MEM_READ, DECK_LOAD and DECK_UNLOAD without a fault.
-/
namespace Sys2Proof.Machine

open Sys2Proof Sys2Proof.Safety

section Accepted
variable (s : State) (h : Hdr)

@[simp] theorem accepted_direct (a n : Nat) : (accepted s h).direct a n = s.direct a n :=
  accepted_reads s h (f := (·.direct a n)) fun _ _ => rfl
@[simp] theorem accepted_memBusy (d : Bool × Nat) : (accepted s h).memBusy d = s.memBusy d :=
  accepted_reads s h (f := (·.memBusy d)) fun _ _ => rfl
@[simp] theorem accepted_readLoc (l : Loc) (n : Nat) : (accepted s h).readLoc l n = s.readLoc l n :=
  accepted_reads s h (f := (·.readLoc l n)) fun _ _ => by cases l <;> rfl
@[simp] theorem accepted_memLayout : (accepted s h).memLayout = s.memLayout :=
  accepted_reads s h (f := State.memLayout) fun _ _ => rfl
@[simp] theorem accepted_deckFault (bs : List Byte) (n : Nat) : (accepted s h).deckFault bs n = s.deckFault bs n :=
  accepted_reads s h (f := (·.deckFault bs n)) fun _ _ => rfl
@[simp] theorem accepted_bindFault (ids : List Word) : (accepted s h).bindFault ids = s.bindFault ids :=
  accepted_reads s h (f := (·.bindFault ids)) fun _ _ => rfl
@[simp] theorem accepted_freeDeck : (accepted s h).freeDeck = s.freeDeck :=
  accepted_reads s h (f := State.freeDeck) fun _ _ => rfl

end Accepted

/-- R383: writing at a location changes no unit. -/
@[simp] theorem State.writeLoc_units (s : State) (l : Loc) (bs : List Byte) : (s.writeLoc l bs).units = s.units := by
  cases l <;> rfl

/-- Settles O3: the range lies where `State.direct` finds it, and what the checks let pass is written or read there. -/
theorem memoryCommandsComplete : Obligations.MemoryCommandsComplete := by
  intro s h ps n which loc
  refine ⟨?write, ?layout, ?read, ?readLayout⟩
  case write =>
    intro takes hlen htarget hzero hn hpos hmax hdirect hfree
    refine replies_of_body takes rfl ?_
    simp [memWriteBody, firstBad, hlen, htarget, hzero, hn, hpos, hmax, hdirect, hfree]
  case layout =>
    intro takes hlen htarget hzero haddr hn hlayout
    refine replies_of_body takes rfl ?_
    simp [memWriteBody, firstBad, hlen, htarget, hzero, hn, haddr, hlayout]
  case read =>
    intro takes hlen htarget hzero hn hpos hmax hdirect hfree
    refine replies_of_body takes rfl ?_
    simp [memReadBody, firstBad, hlen, htarget, hzero, hn, hpos, hmax, hdirect, hfree]
  case readLayout =>
    intro takes hlen htarget hzero haddr hn
    refine replies_of_body takes rfl ?_
    simp [memReadBody, firstBad, hlen, htarget, hzero, hn, haddr]

/-- R384: NO_CONTEXT and WRONG_STATE are of models that are not loaded or not Committed. -/
theorem State.modelFault_of_committed {s : State} {id : Word} {m : Model} (hm : s.model? id = some m)
    (hdone : m.committed = true) : s.modelFault id = none := by
  simp [State.modelFault, hm, hdone]

/-- Settles O4: the image passes its checks, so its deck is added; an unused deck is removed. -/
theorem deckCommandsComplete : Obligations.DeckCommandsComplete := by
  intro s h ps m n
  refine ⟨?load, ?unload⟩
  case load =>
    dsimp only
    intro takes hlong hlen hbinds hzero hm hdone halign hfit hdeck hbind hnew hfree
    have hfault := State.modelFault_of_committed (s := accepted s h) (by simpa using hm) hdone
    refine exec_of_body_assigning takes rfl ?_
    have hunused : ¬ ∃ d ∈ s.sched.decks,
        d.image.deckId = (deckImage (s.modelRead (m.base + be ps 4 8) (be ps 12 4))).deckId := by simpa using hnew
    simp [deckLoadBody, firstBad, hlen, hbinds, hzero, hfault, hm, halign, Nat.not_lt.mpr hfit, hdeck, hbind, hunused, hfree]
    simp [ok, answer]
  case unload =>
    intro takes hloaded hjobs hstreams
    have hfree : ¬ s.DeckInUse h.context.toNat := by
      rintro (⟨j, hj, hused⟩ | ⟨t, ht, hused⟩)
      · exact hjobs j hj hused
      · exact hstreams t ht hused
    simpa [State.withoutDeck] using exec_deckUnload_of_not_inUse takes hloaded hfree

end Sys2Proof.Machine
end

section
/-!
PROOF. R272, R366 to R368, R390 to R393: results, shares and accounts.
-/
namespace Sys2Proof.Machine

open Sys2Proof Sys2Proof.Safety

section Accepted
variable (s : State) (h : Hdr)

@[simp] theorem accepted_job? (id : Word) : (accepted s h).job? id = s.job? id :=
  accepted_reads s h (f := (·.job? id)) fun _ _ => rfl
@[simp] theorem accepted_jobRecord (j : Job) : (accepted s h).jobRecord j = s.jobRecord j :=
  accepted_reads s h (f := (·.jobRecord j)) fun _ _ => rfl
@[simp] theorem accepted_progressRecord (j : Job) : (accepted s h).progressRecord j = s.progressRecord j :=
  accepted_reads s h (f := (·.progressRecord j)) fun _ _ => rfl
@[simp] theorem accepted_accountRecord : (accepted s h).accountRecord = s.accountRecord :=
  accepted_reads s h (f := State.accountRecord) fun _ _ => rfl

/-- R392: the reply of SHARES_SET reads the retained fields alone. -/
theorem sharesReply_of_live {s t : State} (hlive : s.live = t.live) (op c : Nat) : s.sharesReply op c = t.sharesReply op c := by
  simp only [State.sharesReply, hlive]

end Accepted

/-- R393: the parameters of an ACCOUNT_READ, field by field. -/
theorem accountRead_fields {first : Byte} {count : Half} {clear : Bool} {qs : List Byte}
    (hqs : qs = first :: (beBytes 2 count.toNat ++ [if clear then 1 else 0])) :
    qs.length = 4 ∧ be qs 0 1 = first.toNat ∧ be qs 1 2 = count.toNat ∧ be qs 3 1 = if clear then 1 else 0 := by
  subst hqs
  refine ⟨by simp, by simp [be, slice, beNat], ?count, ?flags⟩
  case count =>
    rw [← List.singleton_append, be_append_right (by simp)]
    exact be_beBytes_append count.isLt _
  case flags =>
    rw [← List.singleton_append, be_append_right (by simp), be_append_right (by simp)]
    cases clear <;> rfl

/-- Settles O6: by the state of the job, and by the OP of SHARES_SET. -/
theorem resultAndShareCommandsComplete : Obligations.ResultAndShareCommandsComplete := by
  refine ⟨?results, ?shares⟩
  case results =>
    intro s h ps j hj
    refine ⟨?status, ?fetch, ?notReady, ?release⟩
    case status =>
      intro takes
      refine replies_of_body takes rfl ?_
      simp [jobStatusBody, hj]
    case fetch =>
      intro takes hlen hpos hmax hready hoff
      refine exec_of_body (context := none) takes rfl ?_
      simp [resultFetchBody, hlen, hpos, hmax, hj, hready, Nat.not_lt.mpr hoff, ok, answer]
    case notReady =>
      intro takes hlen hpos hmax hready
      refine exec_of_body (context := none) takes rfl ?_
      simp [resultFetchBody, hlen, hpos, hmax, hj, hready, answer]
    case release =>
      intro takes hready
      refine replies_of_body takes rfl ?_
      simp [resultReleaseBody, hj, hready]
  case shares =>
    intro s h ps hlen hzero
    refine ⟨?set, ?read, ?write, ?config, ?account⟩
    case set =>
      intro takes hop hmost live
      refine replies_of_body takes rfl ?_
      simp [sharesSetBody, firstBad, hlen, hzero, hop, hmost, live]
      exact congrArg (ok · _) (sharesReply_of_live rfl 0 _)
    case read =>
      intro takes hop
      refine replies_of_body takes rfl ?_
      simp [sharesSetBody, firstBad, hlen, hzero, hop, sharesReply_of_live (accepted_live s h)]
    case write =>
      intro takes hop hconfig live
      refine replies_of_body takes rfl ?_
      simp [sharesSetBody, firstBad, hlen, hzero, hop, hconfig, live]
      exact congrArg (ok · _) (sharesReply_of_live rfl 2 _)
    case config =>
      intro takes hop
      refine replies_of_body takes rfl ?_
      simp [sharesSetBody, firstBad, hlen, hzero, hop, sharesReply_of_live (accepted_live s h)]
    case account =>
      intro first count clear
      dsimp only
      generalize hqs : first :: (beBytes 2 count.toNat ++ [if clear then 1 else 0]) = qs
      intro takes hpos hmax
      obtain ⟨hlen, hfirst, hcount, hclear⟩ := accountRead_fields hqs.symm
      refine replies_of_body takes rfl ?_
      cases clear <;> simp [accountReadBody, firstBad, hlen, hfirst, hcount, hclear, hpos, hmax]

end Sys2Proof.Machine
end

section
/-!
PROOF. R394 to R401: the commands of group 0x03 without a fault.
-/
namespace Sys2Proof.Machine

open Sys2Proof Sys2Proof.Safety

section Accepted
variable (s : State) (h : Hdr)

@[simp] theorem accepted_stream? (id : Word) : (accepted s h).stream? id = s.stream? id :=
  accepted_reads s h (f := (·.stream? id)) fun _ _ => rfl
@[simp] theorem accepted_deckOf (n : Nat) : (accepted s h).deck? n = s.deck? n := s.accepted_deck? h n
@[simp] theorem accepted_program? (id : Word) : (accepted s h).program? id = s.program? id :=
  accepted_reads s h (f := (·.program? id)) fun _ _ => rfl
@[simp] theorem accepted_phase : (accepted s h).phase = s.phase :=
  accepted_reads s h (f := State.phase) fun _ _ => rfl
@[simp] theorem accepted_placeStream (rate : Nat) (program self : Word) (allowed : Nat → Nat → Bool) :
    (accepted s h).placeStream rate program self allowed = s.placeStream rate program self allowed :=
  accepted_reads s h (f := (·.placeStream rate program self allowed)) fun _ _ => rfl
@[simp] theorem accepted_freshStream : (accepted s h).freshStream = s.freshStream :=
  accepted_reads s h (f := State.freshStream) fun _ _ => rfl
@[simp] theorem accepted_runsOn (t : Stream) (program : Word) : (accepted s h).runsOn t program = s.runsOn t program :=
  accepted_reads s h (f := (·.runsOn t program)) fun _ _ => rfl
@[simp] theorem accepted_rtpChecks (t : Stream) (ps : List Byte) : (accepted s h).rtpChecks t ps = s.rtpChecks t ps :=
  accepted_reads s h (f := (·.rtpChecks t ps)) fun _ _ => rfl

end Accepted

/-! ### STREAM_OPEN -/

/-- R260: a save area is taken from memory alone. -/
theorem State.allocSave_audio {s t : State} {q o : Nat} {b : Nat × Nat} (ht : s.allocSave q o = some (b, t)) :
    t.audio = s.audio := by
  have taken : ∀ v, (s.takeBlock v o).2.audio = s.audio := fun v => rfl
  unfold State.allocSave at ht
  dsimp only at ht
  split at ht
  case h_1 p _ =>
    obtain rfl : (s.takeBlock p.1 o).2 = t := by rw [Option.some.inj ht]
    exact taken _
  case h_2 =>
    obtain ⟨p, -, hp⟩ := Option.map_eq_some_iff.mp ht
    obtain rfl : (s.takeBlock p.1 o).2 = t := by rw [hp]
    exact taken _

/-- R394: the stream that a STREAM_OPEN opens with this key, on this Shuttle, with this save area. -/
def openedStream (ps : List Byte) (id : Word) (key : List Byte) (c p v b : Nat) (s : State) : Stream :=
  { Stream.opened id (ShuttleCtx.opened (BitVec.ofNat 32 (be ps 4 4)) key (s.initOf (BitVec.ofNat 32 (be ps 4 4)))) with
    rate := be ps 0 4, deck := be ps 8 4, client := be ps 12 1, share := be ps 14 2, feedAddr := be ps 16 8, cluster := c,
    pos := p, slot := s.freeSlot c p, absent := (s.freeSlot c p).isNone, saveVault := v, saveBlock := b,
    port := s.freeFramePort }

/-- R394: the answer of a STREAM_OPEN that opens this stream. -/
def openedAnswer (id : Word) (t : Stream) (s : State) : Answer :=
  { ok (beBytes 1 t.cluster ++ beBytes 1 t.pos ++ zeros 2 ++ beBytes 2 t.port ++ beBytes 1 t.saveVault ++ zeros 1
      ++ beBytes 8 (frameAddr t.port))
      { s with audio := { s.audio with streams := s.audio.streams ++ [t], nextStream := id + 1 } } with
    context := some id }

/-- R394: a STREAM_OPEN that passes its checks and finds a Shuttle and a save area. -/
theorem streamOpenBody_ok {ps : List Byte} {s s1 : State} {c p v b : Nat} (hlen : ps.length = 56)
    (hchecks : firstBad [(0, streamRate (be ps 0 4)), (4, (s.program? (BitVec.ofNat 32 (be ps 4 4))).isSome),
      (13, decide (be ps 13 1 ≤ 1)), (16, feedAddrOk (be ps 8 4) (be ps 16 8)),
      (24, be ps 13 1 == 1 || zeroAt ps 24 32)] = none)
    (hdeck : be ps 8 4 ≠ 0 → (s.deck? (be ps 8 4)).isSome = true) (hphase : s.phase ≠ 1 ∧ s.phase ≠ 3)
    (hroom : s.audio.streams.length < 8192)
    (hplace : s.placeStream (be ps 0 4) (BitVec.ofNat 32 (be ps 4 4)) 0 (fun _ _ => true) = some (c, p))
    (halloc : s.allocSave (c / 4) 1 = some ((v, b), s1)) :
    let drawn := if be ps 13 1 = 1 then (slice ps 24 32, s1) else s1.drawKey
    streamOpenBody ps s = openedAnswer s.freshStream (openedStream ps s.freshStream drawn.1 c p v b drawn.2) drawn.2 := by
  have hdeck' : (be ps 8 4 != 0 && (s.deck? (be ps 8 4)).isNone) = false := by
    by_cases h0 : be ps 8 4 = 0
    · simp [h0]
    · simp [Option.isNone_eq_false_iff.mpr (hdeck h0)]
  have hphase' : (s.phase == 1 || s.phase == 3) = false := by simp [hphase]
  unfold streamOpenBody
  simp only [hchecks, hdeck', hphase', hplace, halloc, hlen, Nat.not_le.mpr hroom, bne_self_eq_false, Bool.false_eq_true,
    if_false]
  by_cases hkey : be ps 13 1 = 1
  · simp only [hkey, beq_self_eq_true, if_true, openedAnswer, openedStream]
  · simp only [hkey, beq_eq_false_iff_ne.mpr hkey, Bool.false_eq_true, if_false, openedAnswer, openedStream]

/-- Settles O7: the own part of STREAM_OPEN answers with the stream that it opens, on the state that the save area and the key were
drawn from. -/
theorem streamOpenCompletes : Obligations.StreamOpenCompletes := by
  intro s h ps c p v b s1 program takes hlen hrate hprogram hkind hfeed hzero hdeck hphase1 hphase3 hroom hplace halloc
  have haudio : s1.audio = s.audio := (State.allocSave_audio halloc).trans (accepted_audio s h)
  have hport : s1.freeFramePort = s.freeFramePort := by simp only [State.freeFramePort, haudio]
  have hchecks : firstBad [(0, streamRate (be ps 0 4)), (4, ((accepted s h).program? (BitVec.ofNat 32 (be ps 4 4))).isSome),
      (13, decide (be ps 13 1 ≤ 1)), (16, feedAddrOk (be ps 8 4) (be ps 16 8)),
      (24, be ps 13 1 == 1 || zeroAt ps 24 32)] = none := by
    have hkey : be ps 13 1 = 1 ∨ zeroAt ps 24 32 = true := by
      rcases Nat.lt_or_eq_of_le hkind with hlt | heq
      · exact .inr (hzero (Nat.lt_one_iff.mp hlt))
      · exact .inl heq
    have hknown : (s.program? (BitVec.ofNat 32 (be ps 4 4))).isSome = true := hprogram
    simpa [firstBad_eq_none, hrate, hknown, hkind, hfeed] using hkey
  have hbody := streamOpenBody_ok (s := accepted s h) hlen hchecks (by simpa using hdeck) (by simp [hphase1, hphase3])
    (by simpa using hroom) (by simpa using hplace) halloc
  generalize hdrawn : (if be ps 13 1 = 1 then (slice ps 24 32, s1) else s1.drawKey) = drawn at hbody
  obtain ⟨key, s2⟩ := drawn
  have haudio2 : s2.audio = s1.audio ∧ (if be ps 13 1 = 1 then s2 = s1 ∧ key = slice ps 24 32
      else s2 = { s1 with free := s1.free + 1 } ∧ key = (List.range 32).map (Config.randomByte s1.free)) := by
    split at hdrawn
    · cases hdrawn
      simp [*]
    · cases hdrawn
      simp [*]
  have hport2 : s2.freeFramePort = s.freeFramePort := by simp only [State.freeFramePort, haudio2.1, haudio]
  refine ⟨openedStream ps s.freshStream key c p v b s2, s2, haudio2.2, ?exec, ?fields⟩
  case exec =>
    rw [accepted_freshStream] at hbody
    exact exec_of_body_assigning takes rfl (hbody.trans (by simp only [openedAnswer, openedStream, ok, answer]))
  case fields => simp [openedStream, Stream.opened, ShuttleCtx.opened, program, hport2]

/-! ### STREAM_FEED, STREAM_MARK, STREAM_CLOSE, STREAM_STATUS -/

/-- R394: a stream that a command names. -/
theorem State.withStream_of_stream? {s : State} {h : Hdr} {t : Stream} (ht : s.stream? h.context = some t)
    (k : Stream → Answer) : s.withStream h k = k t := by
  simp [State.withStream, ht]

/-- Settles O8: the stream that CONTEXT names is handed to the command's own part, whose checks pass. -/
theorem streamFeedCommandsComplete : Obligations.StreamFeedCommandsComplete := by
  intro s h ps t ht hid
  have hnamed : ∀ k, (accepted s h).withStream h k = k t := State.withStream_of_stream? (by simpa using ht)
  refine ⟨?feed, ?mark, ?close, ?status⟩
  case feed =>
    intro takes hlong hlen hpos hmax hzero heos hroom
    refine replies_of_body takes rfl ?_
    simp [streamFeedBody, firstBad, hlen, hpos, hmax, hzero, hnamed, heos, Nat.not_lt.mpr hroom, hid]
  case mark =>
    intro takes hlen hkind hzero heos hroom
    refine ⟨fun hk hfeed => ?_, fun hk hfeed => ?_, fun hk => ?_, rfl, ?_, rfl⟩
    · refine replies_of_body takes rfl ?_
      simp [streamMarkBody, firstBad, hlen, hk, hzero, hnamed, heos, hfeed, Nat.not_le.mpr hroom, hid]
    · refine replies_of_body takes rfl ?_
      simp [streamMarkBody, firstBad, hlen, hk, hzero, hnamed, heos, hfeed]
    · refine replies_of_body takes rfl ?_
      simp [streamMarkBody, firstBad, hlen, hk, hzero, hnamed, heos, Nat.not_le.mpr hroom, hid]
    · simp [Stream.closePhrase]
  case close =>
    intro takes
    refine replies_of_body takes rfl ?_
    simp [streamCloseBody, hnamed, hid]
  case status =>
    intro takes
    refine replies_of_body takes rfl ?_
    simp [streamStatusBody, hnamed]

end Sys2Proof.Machine
end

section
/-!
PROOF. R399, R400: STREAM_ROUTE and STREAM_FALLBACK_SET without a fault.
-/
namespace Sys2Proof.Machine

open Sys2Proof Sys2Proof.Safety

section Accepted
variable (s : State) (h : Hdr)

@[simp] theorem accepted_rtpLoad (rate : Nat) (d : Rtp) : (accepted s h).rtpLoad rate d = s.rtpLoad rate d :=
  accepted_reads s h (f := (·.rtpLoad rate d)) fun _ _ => rfl
@[simp] theorem accepted_otherLoad (self : Word) : (accepted s h).otherLoad self = s.otherLoad self :=
  accepted_reads s h (f := (·.otherLoad self)) fun _ _ => rfl
@[simp] theorem accepted_reedConfig (n : Nat) : (accepted s h).reedConfig n = s.reedConfig n :=
  accepted_reads s h (f := (·.reedConfig n)) fun _ _ => rfl
@[simp] theorem accepted_domainOn (d : Nat) : (accepted s h).domainOn d = s.domainOn d :=
  accepted_reads s h (f := (·.domainOn d)) fun _ _ => rfl

end Accepted

/-! ### What STREAM_ROUTE asks for -/

/-- R338, R348, R447: what a STREAM_ROUTE is granted does not depend on the protocol's record. -/
theorem routeAsked_accepted {s : State} {h : Hdr} {t : Stream} {ps : List Byte} {r : Option Egress}
    (hr : s.routeAsked t ps = .ok r) : (accepted s h).routeAsked t ps = .ok r := by
  unfold State.routeAsked at hr ⊢
  simp only [accepted_rtpChecks, accepted_otherLoad, accepted_rtpLoad, accepted_net, accepted_audio, accepted_reedConfig, accepted_domainOn]
  split at hr
  case h_1 =>
    split at hr
    · cases hr
    · dsimp only at hr
      split at hr
      · cases hr
      · simp_all
  case h_2 =>
    dsimp only at hr
    split at hr
    · cases hr
    · split at hr
      · cases hr
      · split at hr
        · cases hr
        · simp_all
  case h_3 =>
    split at hr
    · simp_all
    · cases hr

theorem moveAsked_accepted {s : State} {h : Hdr} {t : Stream} {ps : List Byte} {d : Option (Nat × Nat)}
    (hd : s.moveAsked t ps = .ok d) : (accepted s h).moveAsked t ps = .ok d := by
  unfold State.moveAsked at hd ⊢
  simp only [accepted_placeStream]
  split at hd
  · cases hd
  · split at hd
    · simp_all
    · dsimp only at hd
      split at hd
      · cases hd
      · simp_all

/-- Settles O9: by what STREAM_ROUTE is granted, and by the flags of STREAM_FALLBACK_SET. -/
theorem streamRouteAndFallbackComplete : Obligations.StreamRouteAndFallbackComplete := by
  intro s h ps t ht hid
  have hnamed : ∀ k, (accepted s h).withStream h k = k t := State.withStream_of_stream? (by simpa using ht)
  refine ⟨?route, ?fallback⟩
  case route =>
    intro r d takes hlong hlen hkind hmove hcluster hpos hr hd
    refine replies_of_body takes rfl ?_
    have hchecks : firstBad [(0, decide (be ps 0 1 ≤ 3)), (1, decide (be ps 1 1 ≤ 1)),
        (2, decide (be ps 2 1 ≤ 15) || be ps 2 1 == 0xFF), (3, decide (be ps 3 1 ≤ 16) || be ps 3 1 == 0xFF)] = none := by
      simp [firstBad_eq_none, hkind, hmove, hcluster, hpos]
    simp only [streamRouteBody, hchecks, hnamed, routeAsked_accepted hr, moveAsked_accepted hd]
    cases r <;> cases d <;> simp [hlen, hid]
  case fallback =>
    dsimp only
    intro takes hlen hflags hzero hboth hset hback
    have hchecks : firstBad [(0, decide (be ps 0 1 < 8) && !(bitOf (be ps 0 1) 0 && bitOf (be ps 0 1) 1)), (1, zeroAt ps 1 1),
        (2, !bitOf (be ps 0 1) 0 || (decide (1 ≤ be ps 2 2) && decide (be ps 2 2 ≤ 8191))),
        (4, !bitOf (be ps 0 1) 0 || decide (be ps 4 2 < be ps 2 2))] = none := by
      cases hs : bitOf (be ps 0 1) 0 with
      | false => simp [firstBad_eq_none, hflags, hzero]
      | true => 
        obtain ⟨hlow, hhigh, hurgent⟩ := hset hs
        have hclear : bitOf (be ps 0 1) 1 = false := by simpa [hs] using hboth
        simp [firstBad_eq_none, hflags, hzero, hclear, hlow, hhigh, hurgent]
    have hturn : (bitOf (be ps 0 1) 2 && t.current == t.openProgram) = false := by
      cases hb : bitOf (be ps 0 1) 2 with
      | false => rfl
      | true => simpa using hback hb
    have hbody : streamFallbackBody h ps (accepted s h) = ok [] ((accepted s h).mapStream h.context fun u =>
       let u := if bitOf (be ps 0 1) 0 then { u with ownThreshold := some (be ps 2 2, be ps 4 2) }
         else if bitOf (be ps 0 1) 1 then { u with ownThreshold := none } else u
       if bitOf (be ps 0 1) 2 then u.await ⟨u.openProgram, true, none, [], false⟩ ((s.runsOn t t.openProgram).getD t.home) else u) := by
      simp only [streamFallbackBody, hchecks, hnamed, hturn, hlen, hid, accepted_runsOn]
      cases bitOf (be ps 0 1) 2 <;> rfl
    exact ⟨fun _ => replies_of_body takes rfl hbody, fun _ => replies_of_body takes rfl hbody,
      fun _ => replies_of_body takes rfl hbody⟩

end Sys2Proof.Machine
end

section
/-!
PROOF. R409 to R417: ports and the carding pipeline, the commands of groups 0x04 and 0x05 without a fault.
-/
namespace Sys2Proof.Machine

open Sys2Proof Sys2Proof.Safety

section Accepted
variable (s : State) (h : Hdr)

@[simp] theorem accepted_reed (n : Nat) : (accepted s h).reed n = s.reed n :=
  accepted_reads s h (f := (·.reed n)) fun _ _ => rfl
@[simp] theorem accepted_reedClock (n : Nat) : (accepted s h).reedClock n = s.reedClock n :=
  accepted_reads s h (f := (·.reedClock n)) fun _ _ => rfl
@[simp] theorem accepted_recordOk (port record : Nat) (bs : List Byte) :
    (accepted s h).recordOk port record bs = s.recordOk port record bs :=
  accepted_reads s h (f := (·.recordOk port record bs)) fun _ _ => rfl
@[simp] theorem accepted_portRecord (port record : Nat) : (accepted s h).portRecord port record = s.portRecord port record :=
  accepted_reads s h (f := (·.portRecord port record)) fun _ _ => rfl
@[simp] theorem accepted_reedRecord (n : Nat) : (accepted s h).reedRecord n = s.reedRecord n :=
  accepted_reads s h (f := (·.reedRecord n)) fun _ _ => rfl
@[simp] theorem accepted_linkRecord : (accepted s h).linkRecord = s.linkRecord :=
  accepted_reads s h (f := State.linkRecord) fun _ _ => rfl

end Accepted

/-! ### Reed ports by their codes -/

/-- R412: the 16 inputs and the 16 outputs. -/
def State.allReeds (s : State) : Prop := s.audio.ins.length = 16 ∧ s.audio.outs.length = 16

theorem State.allReeds_mapReed {s : State} (hs : s.allReeds) (c : Nat) (f : ReedPort → ReedPort) : (s.mapReed c f).allReeds := by
  unfold State.mapReed
  split
  · exact ⟨(List.length_modify _ _ _).trans hs.1, hs.2⟩
  · exact ⟨hs.1, (List.length_modify _ _ _).trans hs.2⟩

theorem State.reed_mapReed_same {s : State} (hs : s.allReeds) {c : Nat} (hc : c < 32) (f : ReedPort → ReedPort) :
    (s.mapReed c f).reed c = f (s.reed c) := by
  obtain ⟨hins, houts⟩ := hs
  by_cases h16 : c < 16
  · simp [State.mapReed, State.reed, h16, nth, hins]
  · have : c - 16 < s.audio.outs.length := by omega
    simp [State.mapReed, State.reed, h16, nth, this]

theorem State.reed_mapReed_of_ne (s : State) {c d : Nat} (hne : d ≠ c) (f : ReedPort → ReedPort) :
    (s.mapReed c f).reed d = s.reed d := by
  by_cases h16 : c < 16 <;> by_cases hd16 : d < 16
  · simp [State.mapReed, State.reed, h16, hd16, nth, hne.symm]
  · simp [State.mapReed, State.reed, h16, hd16]
  · simp [State.mapReed, State.reed, h16, hd16]
  · have : c - 16 ≠ d - 16 := by omega
    simp [State.mapReed, State.reed, h16, hd16, nth, this]

/-- A port that runs goes on running through changes that leave running ports running. -/
theorem running_foldl_mapReed {f : Nat → ReedPort → ReedPort} (keeps : ∀ c p, p.running = true → (f c p).running = true)
    {l : List Nat} (hl : ∀ c ∈ l, c < 32) {s : State} (hs : s.allReeds) {d : Nat} (hd : (s.reed d).running = true) :
    ((l.foldl (fun u c => u.mapReed c (f c)) s).reed d).running = true := by
  induction l generalizing s with
  | nil => exact hd
  | cons c l ih =>
    refine ih (fun x hx => hl x (List.mem_cons_of_mem _ hx)) (State.allReeds_mapReed hs c _) ?_
    by_cases hcd : d = c
    · subst hcd
      rw [State.reed_mapReed_same hs (hl d List.mem_cons_self)]
      exact keeps _ _ hd
    · rw [State.reed_mapReed_of_ne s hcd]
      exact hd

theorem allReeds_foldl_mapReed (f : Nat → ReedPort → ReedPort) (l : List Nat) {s : State} (hs : s.allReeds) :
    (l.foldl (fun u c => u.mapReed c (f c)) s).allReeds := by
  induction l generalizing s with
  | nil => exact hs
  | cons c l ih => exact ih (State.allReeds_mapReed hs c _)

/-- A port that a change makes run runs after the changes of all ports of a list that holds it. -/
theorem running_foldl_of_mem {f : Nat → ReedPort → ReedPort} (starts : ∀ c p, (f c p).running = true) {l : List Nat}
    (hl : ∀ c ∈ l, c < 32) {s : State} (hs : s.allReeds) {d : Nat} (hd : d ∈ l) :
    ((l.foldl (fun u c => u.mapReed c (f c)) s).reed d).running = true := by
  induction l generalizing s with
  | nil => cases hd
  | cons c l ih =>
    have hl' : ∀ x ∈ l, x < 32 := fun x hx => hl x (List.mem_cons_of_mem _ hx)
    have hs' := State.allReeds_mapReed hs c (f c)
    rcases List.mem_cons.mp hd with rfl | hmem
    · refine running_foldl_mapReed (fun c p _ => starts c p) hl' hs' ?_
      rw [State.reed_mapReed_same hs (hl d List.mem_cons_self)]
      exact starts _ _
    · exact ih hl' hs' hmem

theorem portsOf_lt {mask c : Nat} (hc : c ∈ portsOf mask) : c < 32 := by
  simp only [portsOf, List.mem_filter, List.mem_range] at hc
  exact hc.1

/-- Settles O10: by the command, and of PORT_START since each change of a named port leaves it running. -/
theorem portCommandsComplete : Obligations.PortCommandsComplete := by
  intro s h ps
  refine ⟨?config, ?start, ?stop, ?status⟩
  case config =>
    intro takes hlong hport hzero hrecord
    have hchecks : (be ps 1 1 = 1 ∨ s.recordOk (be ps 0 1) (be ps 2 1) (ps.drop 4) = true) → be ps 1 1 ≤ 1 →
        firstBad [(0, reedPort (be ps 0 1) || be ps 0 1 == 0x40), (1, decide (be ps 1 1 ≤ 1)),
          (2, be ps 2 1 == 0 || (be ps 2 1 == 1 && be ps 0 1 == 0x40)), (3, zeroAt ps 3 1),
          (4, be ps 1 1 == 1 || (accepted s h).recordOk (be ps 0 1) (be ps 2 1) (ps.drop 4))] = none := by
      intro hgood hop
      simpa [firstBad_eq_none, reedPort, hport, hop, hzero, hgood] using hrecord
    refine ⟨?write, ?read⟩
    case write =>
      intro hop hlen hok hidle
      have hfree : ¬ (reedPort (be ps 0 1) = true ∧ (s.reed (be ps 0 1)).running = true) := by
        rintro ⟨hreed, hrun⟩
        have hlt : be ps 0 1 < 32 := by simpa [reedPort] using hreed
        simp [hidle hlt] at hrun
      refine replies_of_body takes rfl ?_
      unfold portConfigBody
      simp only [hchecks (.inr hok) (by omega)]
      simp [hop, hlen, hfree]
    case read =>
      intro hop hlen
      refine replies_of_body takes rfl ?_
      unfold portConfigBody
      simp only [hchecks (.inl hop) (by omega)]
      simp [hop, hlen]
      exact congrArg (fun bs => ok (bs ++ _) _) (List.take_of_length_le (Nat.le_of_eq hlen))
  case start =>
    intro takes hlen hsome hready named begun t
    refine ⟨?_, ?_⟩
    · refine replies_of_body takes rfl ?_
      have hrefuses : ∀ c ∈ portsOf (be ps 0 4), (s.reed c).running = false ∧ (16 ≤ c → s.reedClock c ≠ 0)
          ∧ s.domainOn (reedDomain c) = true := fun c hc => ⟨(hready c hc).1, (hready c hc).2.2, (hready c hc).2.1⟩
      unfold portStartBody
      rw [if_neg (by simp [hlen]), if_neg (by simp [hsome]), if_neg]
      simpa [and_assoc] using hrefuses
    · intro c hc hins houts
      have hall : (accepted s h).allReeds := by simp [State.allReeds, hins, houts]
      have hnamed : ∀ c ∈ named, c < 32 := fun c hc => portsOf_lt hc
      have hbegun : begun.allReeds ∧ (begun.reed c).running = true :=
        ⟨allReeds_foldl_mapReed _ _ hall, running_foldl_of_mem (fun _ _ => rfl) hnamed hall hc⟩
      exact running_foldl_mapReed (f := fun c p => { p with clockOk := 16 ≤ c && begun.clockUsable c }) (fun _ _ hp => hp)
        hnamed hbegun.1 hbegun.2
  case stop =>
    intro takes hlen hsome
    refine replies_of_body takes rfl ?_
    simp [portStopBody, hlen, hsome]
  case status =>
    intro takes hlen hzero
    refine ⟨fun hreed => ?_, fun hlink => ?_, fun hlow hhigh => ?_⟩
    · refine replies_of_body takes rfl ?_
      have hne : be ps 0 1 ≠ 64 := by omega
      simp [portStatusBody, firstBad, hlen, hzero, reedPort, hreed, hne]
    · refine replies_of_body takes rfl ?_
      simp [portStatusBody, firstBad, hlen, hzero, hlink]
    · refine replies_of_body takes rfl ?_
      have hne : be ps 0 1 ≠ 64 := by omega
      have hreed : ¬ be ps 0 1 < 32 := by omega
      simp [portStatusBody, firstBad, hlen, hzero, reedPort, hreed, hne, hlow, hhigh]

end Sys2Proof.Machine
end

section
/-!
PROOF. R414 to R417: the commands of group 0x05 without a fault.
-/
namespace Sys2Proof.Machine

open Sys2Proof Sys2Proof.Safety

section Accepted
variable (s : State) (h : Hdr)

@[simp] theorem accepted_ingress? (id : Word) : (accepted s h).ingress? id = s.ingress? id :=
  accepted_reads s h (f := (·.ingress? id)) fun _ _ => rfl
@[simp] theorem accepted_curveUsed (k : Nat) : (accepted s h).curveUsed k = s.curveUsed k :=
  accepted_reads s h (f := (·.curveUsed k)) fun _ _ => rfl
@[simp] theorem accepted_ringFits (dest frames samples bytes : Nat) :
    (accepted s h).ringFits dest frames samples bytes = s.ringFits dest frames samples bytes := by
  simp [State.ringFits]
@[simp] theorem accepted_tapBytes (g : Ingress) (point : Nat) : (accepted s h).tapBytes g point = s.tapBytes g point := by
  simp [State.tapBytes]

end Accepted

/-! ### CARD_CONFIG -/

/-- R414: the ingress stream that a CARD_CONFIG opens with this id and this save area. -/
def openedIngress (ps : List Byte) (id : Word) (v b : Nat) : Ingress :=
  { id := id, port := be ps 1 1, channel := be ps 2 1, curve := be ps 3 1, frameSamples := be ps 4 2,
    repair := BitVec.ofNat 3 (be ps 6 1), gain := BitVec.ofNat 32 (be ps 8 4), rampFrom := none, statsEvery := be ps 22 2,
    saveVault := v, saveBlock := b, input := [], d := 0, prevY := none, lastOut := 0, run := .none, fadeIn := 0,
    sections := List.replicate 8 (0, 0), frame := 0, pos := 0, processed := 0, outs := [], clicks := 0,
    dropouts := 0, settled := false, lockFlag := false, lockLost := false, settings := [], taps := [],
    ring := Ring.start 0xFF (be ps 12 8) (be ps 20 2) 4, stats := [] }

/-- R414: the answer of a CARD_CONFIG that opens this ingress stream. -/
def openedIngressAnswer (g : Ingress) (s : State) : Answer :=
  { ok (zeros 4) { s with audio := { s.audio with ingress := s.audio.ingress ++ [g], nextStream := g.id + 1 } } with
    context := some g.id }

/-- R414: an OP 0 that passes its checks and finds a save area. -/
theorem cardOpen_ok {ps : List Byte} {s s1 : State} {v b : Nat}
    (hchecks : firstBad [(1, decide (be ps 1 1 < 32)), (2, decide (be ps 2 1 ≤ 1)), (3, be ps 3 1 ≤ 31 && s.curveUsed (be ps 3 1)),
      (4, 64 ≤ be ps 4 2 && be ps 4 2 ≤ 4096 && be ps 4 2 % 64 == 0), (6, decide (be ps 6 1 < 8)), (7, zeroAt ps 7 1),
      (8, gainOk (BitVec.ofNat 32 (be ps 8 4))), (12, s.ringFits (be ps 12 8) (be ps 20 2) (be ps 4 2) 4),
      (20, ringFramesOk (be ps 20 2)), (24, zeroAt ps 24 4)] = none)
    (hinput : be ps 1 1 < 16) (hon : s.domainOn 111 = true)
    (hnew : s.audio.ingress.any (fun g => g.port == be ps 1 1 && g.channel == be ps 2 1) = false)
    (hroom : s.audio.ingress.length < 64) (halloc : s.allocSave 2 2 = some ((v, b), s1)) :
    cardOpen ps s = openedIngressAnswer (openedIngress ps s.freshStream v b) s1 := by
  have hready : ((decide (16 ≤ be ps 1 1) && decide (be ps 1 1 < 32)) || !s.domainOn 111) = false := by
    simp [hon, Nat.not_le.mpr hinput]
  unfold cardOpen
  simp only [hchecks, hready, hnew, Nat.not_le.mpr hroom, halloc, Bool.false_eq_true, if_false, openedIngressAnswer,
    openedIngress]

/-- R414: an ingress stream that a command names. -/
theorem State.withIngress_of_ingress? {s : State} {h : Hdr} {g : Ingress} (hg : s.ingress? h.context = some g)
    (k : Ingress → Answer) : s.withIngress h k = k g := by
  simp [State.withIngress, hg]

/-- Settles O11: an OP 0 passes its checks and opens the stream on the state that the save area was taken from; an OP 1 closes the
stream that CONTEXT names. -/
theorem cardConfigCompletes : Obligations.CardConfigCompletes := by
  intro s h ps
  refine ⟨?opens, ?closes⟩
  case opens =>
    intro v b s1 takes hlen hop hport hchannel hcurve hused hlow hhigh hstep hrepair hzero hgain hring hmin hmax hzeros hon hnew
      hroom halloc
    have haudio : s1.audio = s.audio := (State.allocSave_audio halloc).trans (accepted_audio s h)
    have hbody : cardConfigBody h ps (accepted s h)
        = openedIngressAnswer (openedIngress ps s.freshStream v b) s1 := by
      unfold cardConfigBody
      rw [if_neg (by simp [hlen]), hop, ← accepted_freshStream s h]
      refine cardOpen_ok ?_ hport (by simpa using hon) (by simpa using hnew) (by simpa using hroom) halloc
      simp [firstBad_eq_none, hchannel, hcurve, hused, hlow, hhigh, hstep, hrepair, hzero, hgain, hring, hmin, hmax, hzeros,
        ringFramesOk, Nat.lt_of_lt_of_le hport]
    refine ⟨openedIngress ps s.freshStream v b, ?exec, ?fields⟩
    case exec =>
      refine exec_of_body_assigning takes rfl (hbody.trans ?_)
      simp only [openedIngressAnswer, openedIngress, ok, answer, haudio]
    case fields => simp [openedIngress]
  case closes =>
    intro g takes hlen hop hg
    refine replies_of_body takes rfl ?_
    unfold cardConfigBody
    rw [if_neg (by simp [hlen]), hop]
    exact State.withIngress_of_ingress? (by simpa using hg) _

/-! ### CARD_GAIN, CARD_TAP, CARD_STATS -/

/-- R415: the setting that waits for a frame is changed in its place. -/
theorem modifyFirst_append_cons {α : Type} {p : α → Bool} {f : α → α} {pre post : List α} {c : α} (hpre : ∀ d ∈ pre, p d = false)
    (hc : p c = true) : modifyFirst (pre ++ c :: post) p f = pre ++ f c :: post := by
  induction pre with
  | nil => simp [modifyFirst, hc]
  | cons d pre ih =>
    have hd : p d = false := hpre d (by simp)
    simp [modifyFirst, hd, ih fun e he => hpre e (by simp [he])]

/-- R415: the frame that a CARD_GAIN sets. -/
def gainFrame (g : Ingress) (ps : List Byte) : Word :=
  if 2 ^ 31 ≤ (BitVec.ofNat 32 (be ps 0 4) - g.nextFrame).toNat then g.nextFrame else BitVec.ofNat 32 (be ps 0 4)

/-- R415: the gain that a CARD_GAIN names. -/
def gainNamed (ps : List Byte) : Option Word := if be ps 9 1 = 1 then some (BitVec.ofNat 32 (be ps 4 4)) else none

/-- R415: the curve that a CARD_GAIN names. -/
def curveNamed (ps : List Byte) : Option Nat := if be ps 8 1 = 0xFF then none else some (be ps 8 1)

/-- R415: a setting that waits, with what a CARD_GAIN names. -/
def mergeGain (ps : List Byte) (c : CardSetting) : CardSetting :=
  { c with gain := (gainNamed ps).or c.gain, curve := (curveNamed ps).or c.curve }

/-- R415: the settings of an ingress stream after a CARD_GAIN. -/
def gainSettings (g : Ingress) (ps : List Byte) : List CardSetting :=
  if g.settings.any fun c => c.frame == gainFrame g ps then
    modifyFirst g.settings (fun c => c.frame == gainFrame g ps) (mergeGain ps)
  else g.settings ++ [⟨gainFrame g ps, gainNamed ps, curveNamed ps⟩]

/-- R415: what a CARD_GAIN that passes its checks answers. -/
theorem cardGainBody_ok {s : State} {h : Hdr} {ps : List Byte} {g : Ingress} (hg : s.ingress? h.context = some g)
    (hlen : ps.length = 12) (hgain : be ps 9 1 = 1 → gainOk (BitVec.ofNat 32 (be ps 4 4)) = true) (hflags : be ps 9 1 < 2)
    (hcurve : be ps 8 1 = 0xFF ∨ (be ps 8 1 ≤ 31 ∧ s.curveUsed (be ps 8 1) = true)) (hzero : zeroAt ps 10 2 = true)
    (hroom : (∃ c ∈ g.settings, c.frame = gainFrame g ps) ∨ g.settings.length < 8) :
    cardGainBody h ps s = ok (beBytes 4 (gainFrame g ps).toNat)
      (s.mapIngress g.id fun k => { k with settings := gainSettings g ps }) := by
  have hfits : (!(g.settings.any fun c => c.frame == gainFrame g ps) && decide (8 ≤ g.settings.length)) = false := by
    rcases hroom with ⟨c, hc, hframe⟩ | hroom
    · have hfound : (g.settings.any fun c => c.frame == gainFrame g ps) = true := List.any_eq_true.mpr ⟨c, hc, by simp [hframe]⟩
      simp [hfound]
    · simp [Nat.not_le.mpr hroom]
  have hsets : bitOf (be ps 9 1) 0 = decide (be ps 9 1 = 1) := by
    rcases (by omega : be ps 9 1 = 0 ∨ be ps 9 1 = 1) with h0 | h1
    · simp [bitOf, h0]
    · simp [bitOf, h1]
  have hchecks : firstBad [(4, !bitOf (be ps 9 1) 0 || gainOk (BitVec.ofNat 32 (be ps 4 4))),
      (8, be ps 8 1 == 0xFF || (be ps 8 1 ≤ 31 && s.curveUsed (be ps 8 1))), (9, decide (be ps 9 1 < 2)),
      (10, zeroAt ps 10 2)] = none := by
    have hnamed : be ps 9 1 ≠ 1 ∨ gainOk (BitVec.ofNat 32 (be ps 4 4)) = true := Decidable.not_or_of_imp hgain
    simpa [firstBad_eq_none, hsets, hflags, hzero, hcurve] using hnamed
  have hamount : (if bitOf (be ps 9 1) 0 then some (BitVec.ofNat 32 (be ps 4 4)) else none) = gainNamed ps := by
    simp [hsets, gainNamed]
  have hcurveNamed : (if be ps 8 1 == 0xFF then none else some (be ps 8 1)) = curveNamed ps := by simp [curveNamed]
  have hmerge : (fun c : CardSetting => { c with
      gain := if bitOf (be ps 9 1) 0 then gainNamed ps else c.gain,
      curve := if (curveNamed ps).isSome then curveNamed ps else c.curve }) = mergeGain ps := by
    funext c
    rw [hsets]
    by_cases h1 : be ps 9 1 = 1
    · by_cases h2 : be ps 8 1 = 0xFF
      · simp [mergeGain, gainNamed, curveNamed, h1, h2]
      · simp [mergeGain, gainNamed, curveNamed, h1, h2]
    · by_cases h2 : be ps 8 1 = 0xFF
      · simp [mergeGain, gainNamed, curveNamed, h1, h2]
      · simp [mergeGain, gainNamed, curveNamed, h1, h2]
  unfold cardGainBody
  dsimp only
  rw [if_neg (by simp [hlen]), hchecks]
  dsimp only
  rw [State.withIngress_of_ingress? hg]
  rw [hamount, hcurveNamed, hmerge]
  exact if_neg (ne_true_of_eq_false hfits)

/-- Settles O12: the ingress stream that CONTEXT names is handed to the command's own part, whose checks pass. -/
theorem cardingCommandsComplete : Obligations.CardingCommandsComplete := by
  intro s h ps g hg hid
  have hg' : (accepted s h).ingress? h.context = some g := by simpa using hg
  have hnamed : ∀ k, (accepted s h).withIngress h k = k g := State.withIngress_of_ingress? hg'
  refine ⟨?gain, ?tap, ?stats⟩
  case gain =>
    intro takes hlen hgain hflags hcurve hzero
    have hbody := cardGainBody_ok hg' hlen hgain hflags (by simpa using hcurve) hzero
    refine ⟨fun (hnew : ∀ c ∈ g.settings, c.frame ≠ gainFrame g ps) hroom => ?_,
      fun pre post c hsplit (hpre : ∀ d ∈ pre, d.frame ≠ gainFrame g ps) (hc : c.frame = gainFrame g ps) => ?_⟩
    · have hsettings : gainSettings g ps = g.settings ++ [⟨gainFrame g ps, gainNamed ps, curveNamed ps⟩] :=
        if_neg (by simpa using hnew)
      refine replies_of_body takes rfl ((hbody (.inr hroom)).trans ?_)
      rw [hsettings, hid]
      rfl
    · have hfound : ∃ c ∈ g.settings, c.frame = gainFrame g ps := ⟨c, by simp [hsplit], hc⟩
      have hsettings : gainSettings g ps = pre ++ mergeGain ps c :: post := by
        unfold gainSettings
        rw [if_pos (by simpa using hfound), hsplit]
        exact modifyFirst_append_cons (by simpa using hpre) (by simpa using hc)
      refine replies_of_body takes rfl ((hbody (.inl hfound)).trans ?_)
      rw [hsettings, hid]
      rfl
  case tap =>
    intro takes hlen hpoint hzero
    refine ⟨fun hop hmin hmax hring hnew hroom => ?_, fun hop => ?_⟩
    · refine replies_of_body takes rfl ?_
      have hfree : (g.taps.any fun r => r.point == be ps 1 1) = false := by simpa using hnew
      simp [-List.any_eq_true, -List.any_eq_false, cardTapBody, firstBad, hlen, hop, hpoint, hzero, hnamed, hid, ringFramesOk,
        hmin, hmax, hring, hfree, Nat.not_le.mpr hroom]
    · refine replies_of_body takes rfl ?_
      simp [cardTapBody, firstBad, hlen, hop, hpoint, hzero, hnamed, hid]
  case stats =>
    intro r takes hlen
    refine ⟨fun hlast hr => ?_, fun hone hr => ?_⟩
    · refine replies_of_body takes rfl ?_
      simp [cardStatsBody, hlen, hnamed, hlast, hr]
    · refine replies_of_body takes rfl ?_
      have hne : BitVec.ofNat 32 (be ps 0 4) ≠ 0xFFFFFFFF#32 := by
        intro e
        have hlt := be_lt ps 0 4
        have hval := congrArg BitVec.toNat e
        simp at hval
        omega
      simp [cardStatsBody, hlen, hnamed, hne, hr]

end Sys2Proof.Machine
end

section
/-!
PROOF. R418 to R423: the commands of group 0x06 without a fault.
-/
namespace Sys2Proof.Machine

open Sys2Proof Sys2Proof.Safety

section Accepted
variable (s : State) (h : Hdr)

@[simp] theorem accepted_offRefusal (d : Nat) : (accepted s h).offRefusal d = s.offRefusal d :=
  accepted_reads s h (f := (·.offRefusal d)) fun _ _ => rfl
@[simp] theorem accepted_absentPhy (d : Nat) : (accepted s h).absentPhy d = s.absentPhy d := by simp [State.absentPhy]
@[simp] theorem accepted_padsNamed (d : Nat) : (accepted s h).padsNamed d = s.padsNamed d :=
  accepted_reads s h (f := (·.padsNamed d)) fun _ _ => rfl
@[simp] theorem accepted_hottest : (accepted s h).hottest = s.hottest := by simp [State.hottest]
@[simp] theorem accepted_jobsNotReady : (accepted s h).jobsNotReady = s.jobsNotReady := by simp [State.jobsNotReady]

end Accepted

/-! ### DOMAIN_CTRL and PAD_RELEASE -/

theorem maskOf_succ (n : Nat) (p : Nat → Bool) :
    maskOf (n + 1) p = if p n then 2 ^ n + maskOf n p else maskOf n p := by
  simp [maskOf, List.range_succ, Nat.add_comm]

theorem maskOf_lt (n : Nat) (p : Nat → Bool) : maskOf n p < 2 ^ n := by
  induction n with
  | zero => simp [maskOf]
  | succ n ih =>
    rw [maskOf_succ, Nat.pow_succ]
    split <;> omega

/-- The number of a mask has the bit i set exactly when the mask names i. -/
theorem testBit_maskOf (n : Nat) (p : Nat → Bool) (i : Nat) : (maskOf n p).testBit i = (decide (i < n) && p i) := by
  induction n with
  | zero => simp [maskOf]
  | succ n ih =>
    rcases Nat.lt_trichotomy i n with hlt | rfl | hgt
    · have hbit : (maskOf (n + 1) p).testBit i = (maskOf n p).testBit i := by
        rw [maskOf_succ]
        split
        · exact Nat.testBit_two_pow_add_gt hlt _
        · rfl
      simp [hbit, ih, hlt, Nat.lt_succ_of_lt hlt]
    · have hlow : (maskOf i p).testBit i = false := Nat.testBit_lt_two_pow (maskOf_lt i p)
      rw [maskOf_succ]
      cases hi : p i with
      | true => simp [Nat.testBit_two_pow_add_eq, hlow]
      | false => simp [hlow]
    · have hhigh : (maskOf (n + 1) p).testBit i = false :=
        Nat.testBit_lt_two_pow (Nat.lt_of_lt_of_le (maskOf_lt (n + 1) p) (Nat.pow_le_pow_right (by decide) hgt))
      simp [hhigh, Nat.not_lt.mpr (Nat.succ_le_of_lt hgt)]

/-- Settles O13: by the OP of DOMAIN_CTRL; the pads released are the bits that the mask of PAD_RELEASE names. -/
theorem domainCommandsComplete : Obligations.DomainCommandsComplete := by
  intro s h ps hlen
  refine ⟨?ctrl, ?pads⟩
  case ctrl =>
    intro takes hzero
    refine ⟨fun hop hd hmay => ?_, fun hop hd => ?_, fun hop => ?_⟩
    · refine replies_of_body takes rfl ?_
      simp [domainCtrlBody, firstBad, hlen, hop, hd, hzero, hmay]
    · refine replies_of_body takes rfl ?_
      simp [domainCtrlBody, firstBad, hlen, hop, hd, hzero, State.domainOnNow, State.domainOn]
    · refine replies_of_body takes rfl ?_
      simp [domainCtrlBody, firstBad, hlen, hop, hzero]
  case pads =>
    intro takes hzero hd
    refine ⟨(accepted s h).releasePads (s.padsNamed (be ps 0 2)), ?_, ?_, ?_⟩
    · refine replies_of_body takes rfl ?_
      have h1 : be ps 0 2 < 129 ∨ be ps 0 2 = 0xFFFF := hd.symm.imp (·.1) id
      have h2 : be ps 0 2 ≠ 0xFFFF → s.domainOn (be ps 0 2) = true := fun hne => (hd.resolve_left hne).2
      unfold padReleaseBody
      simp only [accepted_padsNamed]
      rw [if_neg (by simp [hlen])]
      have hchecks : firstBad [(0, be ps 0 2 < 129 || be ps 0 2 == 0xFFFF), (2, zeroAt ps 2 2)] = none := by
        simpa [firstBad_eq_none, hzero] using h1
      rw [hchecks]
      exact if_neg (by simpa using h2)
    · intro d hlt
      have hbit : (BitVec.ofNat 129 (maskOf 129 fun i => (s.padsNamed (be ps 0 2)).contains i)).getLsbD d
          = decide (d ∈ s.padsNamed (be ps 0 2)) := by
        rw [BitVec.getLsbD_ofNat, testBit_maskOf]
        simp [hlt]
      have hkept : ((accepted s h).releasePads (s.padsNamed (be ps 0 2))).power.latched
          = s.power.latched &&& ~~~ BitVec.ofNat 129 (maskOf 129 fun i => (s.padsNamed (be ps 0 2)).contains i) := by
        rw [← accepted_power s h]
        rfl
      rw [hkept, BitVec.getLsbD_and, BitVec.getLsbD_not, hbit]
      simp [hlt]
    · simp [State.releasePads, State.mapPower]

/-! ### POWER_STATE, VOLTAGE_POLICY and POWER_CEILING -/

/-- R494: asking a rail for a voltage leaves the retained fields. -/
theorem State.requestRail_live (s : State) (rail : Rail) (mv : Nat) : (s.requestRail rail mv).live = s.live := by
  unfold State.requestRail
  split
  · rfl
  · rfl

theorem State.steerVcore_live (s : State) : s.steerVcore.live = s.live := by
  unfold State.steerVcore
  split
  · rfl
  · exact State.requestRail_live s _ _

/-- R358: a command that the block takes sends its reply, and then does what follows the reply. -/
theorem exec_of_body_then {i : Instr} {op : Nat} {h : Hdr} {ps : List Byte} {s s' : State} {st : Status}
    {params : List Byte} {post : State → State} {run : List Byte → State → Answer} (takes : Takes s op h ps)
    (runs : exec i s = .next (s.command i op h ps false run))
    (body : run ps (accepted s h) = ⟨st, params, none, false, s', post⟩) :
    exec i s = .next (post (answered op h s' st h.context false params)) := by
  rw [runs, State.command_of_takes takes, body]
  rfl

theorem powerStateOf_code (p : PowerState) : powerStateOf p.code = p := by cases p <;> rfl

theorem code_powerStateOf {n : Nat} (hn : n ≤ 4) : (powerStateOf n).code = n := by
  interval_cases n <;> rfl

/-- Settles O14: by what each command is asked for; POWER_STATE enters its state after the reply. -/
theorem powerCommandsComplete : Obligations.PowerCommandsComplete := by
  refine ⟨?state, fun s h ps => ⟨?policy, ?ceiling⟩⟩
  case state =>
    intro s h ps takes hlen hforce hzero
    refine ⟨?other, ?same, ?read⟩
    case other =>
      intro hstate hne hready
      have hother : powerStateOf (be ps 0 1) ≠ s.power.state := fun e => hne (by rw [← e, code_powerStateOf hstate])
      have hready' : (powerStateOf (be ps 0 1) != .run && be ps 1 1 == 0 && s.jobsNotReady) = false := by
        rcases hready with h0 | h1 | hjobs
        · simp [h0, powerStateOf]
        · simp [h1]
        · have hnone : s.jobsNotReady = false := by simpa [State.jobsNotReady] using hjobs
          simp [hnone]
      have hnot : be ps 0 1 ≠ 0xFF := by omega
      have hbody : powerStateBody h ps (accepted s h) = { answer .accepted [] (accepted s h) with
          post := fun s => (s.enterState (powerStateOf (be ps 0 1)) (s.repliesTo h)).askedBy h ps } := by
        unfold powerStateBody
        simp only [accepted_power, accepted_jobsNotReady, hready']
        simp [firstBad, hlen, hforce, hzero, hstate, hnot, hother]
      exact exec_of_body_then (i := .powerState h ps) takes rfl hbody
    case same =>
      intro hsame
      have hcode : s.power.state.code ≤ 4 := by cases s.power.state <;> decide
      refine replies_of_body takes rfl ?_
      simp [powerStateBody, firstBad, hlen, hforce, hzero, hsame, hcode, powerStateOf_code]
    case read =>
      intro hread
      refine replies_of_body takes rfl ?_
      simp [powerStateBody, firstBad, hlen, hforce, hzero, hread]
  case policy =>
    intro takes hzero
    refine ⟨?_, fun hop hlen => ?_⟩
    · intro hop hlen v hok hreach t
      have hlive : t.live.voltagePolicy = v :=
        congrArg (·.voltagePolicy) (State.steerVcore_live { accepted s h with live := { s.live with voltagePolicy := v } })
      refine ⟨replies_of_body takes rfl ?_, hlive⟩
      have hreach' : (fld v 43 42 == 1 && decide (paceAt (fld v 53 44) s.hottest < (fld v 41 21 : Rat))) = false := by
        simpa using hreach
      have hchecks : firstBad [(0, decide (0 ≤ 1)), (1, zeroAt ps 1 3), (4, (0 : Nat) == 1 || voltagePolicyOk v)] = none := by
        simp [firstBad_eq_none, hzero, hok]
      unfold voltagePolicyBody
      simp only [hop, beq_self_eq_true, if_true, Bool.true_and, accepted_hottest, accepted_live]
      rw [if_neg (by simp [hlen]), hchecks]
      exact if_neg (ne_true_of_eq_false hreach')
    · refine replies_of_body takes rfl ?_
      simp [voltagePolicyBody, firstBad, hlen, hop, hzero]
  case ceiling =>
    intro takes hlen hzero
    refine ⟨fun hne hok => ?_, fun h0 => ?_⟩
    · refine replies_of_body takes rfl ?_
      have hlt : be ps 0 2 < 65536 := be_lt ps 0 2
      simp [powerCeilingBody, firstBad, hlen, hzero, hne, hok, Nat.mod_eq_of_lt hlt]
    · refine replies_of_body takes rfl ?_
      simp [powerCeilingBody, firstBad, hlen, hzero, h0]

end Sys2Proof.Machine
end

section
/-!
PROOF. What the end of a job, a card and a stream changes: the jobs and contexts with their streams, tags, bindings, blocks and
events, and nothing else of the device.
-/
namespace Sys2Proof.Machine

open Sys2Proof Sys2Proof.Safety

/-- Two states that differ alone in the scheduler, the streams and ports, the links, the units, the blocks in use, the output and
the protocol's record. -/
def JobsOnly (s t : State) : Prop :=
  t = { s with sched := t.sched, audio := t.audio, links := t.links, units := t.units, out := t.out, proto := t.proto,
               memory := { s.memory with blocks := t.memory.blocks, lent := t.memory.lent } }

theorem JobsOnly.refl (s : State) : JobsOnly s s := rfl

theorem JobsOnly.trans {s t u : State} (h1 : JobsOnly s t) (h2 : JobsOnly t u) : JobsOnly s u := by
  unfold JobsOnly at *
  rw [h2, h1]

theorem JobsOnly.vault {s t : State} (h : JobsOnly s t) : t.memory.vault = s.memory.vault := by rw [h]
theorem JobsOnly.ext {s t : State} (h : JobsOnly s t) : t.memory.ext = s.memory.ext := by rw [h]
theorem JobsOnly.power {s t : State} (h : JobsOnly s t) : t.power = s.power := by rw [h]
theorem JobsOnly.bark {s t : State} (h : JobsOnly s t) : t.bark = s.bark := by rw [h]
theorem JobsOnly.flash {s t : State} (h : JobsOnly s t) : t.flash = s.flash := by rw [h]
theorem JobsOnly.live {s t : State} (h : JobsOnly s t) : t.live = s.live := by rw [h]
theorem JobsOnly.recorder {s t : State} (h : JobsOnly s t) : t.recorder = s.recorder := by rw [h]
theorem JobsOnly.net {s t : State} (h : JobsOnly s t) : t.net = s.net := by rw [h]
theorem JobsOnly.pace {s t : State} (h : JobsOnly s t) : t.pace = s.pace := by rw [h]
theorem JobsOnly.pending {s t : State} (h : JobsOnly s t) : t.pending = s.pending := by rw [h]
theorem JobsOnly.free {s t : State} (h : JobsOnly s t) : t.free = s.free := by rw [h]

theorem JobsOnly.of_output {s t : State} (h : OutputOnly s t) : JobsOnly s t := by
  unfold JobsOnly
  rw [h]

theorem JobsOnly.of_passes {s t : State} (h : PassesOnly s t) : JobsOnly s t := by
  obtain ⟨cs, rfl, -⟩ := h
  rfl

/-- A fold of such changes is such a change. -/
theorem JobsOnly.foldl {α : Type} {f : State → α → State} (h : ∀ s a, JobsOnly s (f s a)) (l : List α) (s : State) :
    JobsOnly s (l.foldl f s) := by
  induction l generalizing s with
  | nil => exact JobsOnly.refl s
  | cons a l ih => exact (h s a).trans (ih _)

/-! ### Parts of a job's end -/

theorem OutputOnly.tellAll (s : State) (c : Control) : OutputOnly s (s.tellAll c) :=
  OutputOnly.foldl (fun s d => OutputOnly.tell s d c) _ s

/-- R313: what the other devices are told of a binding. -/
theorem OutputOnly.tellLeft (s : State) (b b' : Binding) : OutputOnly s (s.tellLeft b b') := by
  unfold State.tellLeft
  split
  · split
    · exact OutputOnly.refl s
    · exact OutputOnly.tellAll s _
  · exact OutputOnly.foldl (fun s i => OutputOnly.tellAll s _) _ s

theorem JobsOnly.mapJob (s : State) (id : Word) (f : Job → Job) : JobsOnly s (s.mapJob id f) := rfl

theorem JobsOnly.mapCtx (s : State) (job : Word) (pos : Nat) (f : Ctx → Ctx) : JobsOnly s (s.mapCtx job pos f) := rfl

theorem JobsOnly.mapTagged (s : State) (loom tag : Nat) (f : Transfer → Transfer) : JobsOnly s (s.mapTagged loom tag f) := rfl

theorem JobsOnly.countEnd (s : State) (client : Nat) (st : Status) : JobsOnly s (s.countEnd client st) := rfl

theorem JobsOnly.dropPortTransfers (s : State) (job : Word) : JobsOnly s (s.dropPortTransfers job) := rfl

theorem JobsOnly.freeBlock (s : State) (b : Nat × Nat) : JobsOnly s (s.freeBlock b) := rfl

/-- R112: a context gone. -/
theorem JobsOnly.dropCtx (s : State) (job : Word) (pos : Nat) : JobsOnly s (s.dropCtx job pos) := by
  unfold State.dropCtx
  split
  · exact JobsOnly.refl s
  · next c _ =>
    have hblocks : JobsOnly s (s.freeBlocks c.allBlocks) := JobsOnly.foldl JobsOnly.freeBlock _ s
    exact hblocks.trans rfl

theorem JobsOnly.dropCtxs (s : State) (job : Word) : JobsOnly s (s.dropCtxs job) :=
  (JobsOnly.foldl (fun s p => JobsOnly.dropCtx s job p) _ s).trans rfl

/-- R313: the bindings that a job's end leaves. -/
theorem JobsOnly.leaveBindings (s : State) (job : Word) : JobsOnly s (s.leaveBindings job) := by
  unfold State.leaveBindings
  refine JobsOnly.trans ?_ (JobsOnly.of_output (OutputOnly.foldl (fun s b => OutputOnly.tellLeft s b _) _ _))
  rfl

theorem JobsOnly.resultEvent (s : State) (j : Job) : JobsOnly s (s.resultEvent j) :=
  JobsOnly.of_output (OutputOnly.event s _ _ _ _ _)

/-- R405: the event of a job that has become Ready, of a job that is there. -/
theorem JobsOnly.resultEventOf (s : State) (id : Word) : JobsOnly s ((s.job? id).elim s s.resultEvent) := by
  cases s.job? id with
  | none => exact JobsOnly.refl s
  | some j => exact JobsOnly.resultEvent s j

/-- R397: a phrase job leaves. -/
theorem JobsOnly.dropPhraseJob (s : State) (j : Job) (st : Status) : JobsOnly s (s.dropPhraseJob j st) := by
  unfold State.dropPhraseJob
  dsimp only
  split
  · rfl
  · refine JobsOnly.trans ?_ (JobsOnly.of_output (OutputOnly.event _ _ _ _ _ _))
    rfl

/-! ### The end of a job -/

theorem JobsOnly.endOne (s : State) (id : Word) (st : Status) : JobsOnly s (s.endOne id st) := by
  unfold State.endOne
  split
  · exact JobsOnly.refl s
  · next j _ =>
    split
    · exact JobsOnly.refl s
    · dsimp only
      have hgone : JobsOnly s (((s.dropPortTransfers id).dropCtxs id).leaveBindings id) :=
        (JobsOnly.trans (JobsOnly.dropPortTransfers s id) (JobsOnly.dropCtxs _ id)).trans (JobsOnly.leaveBindings _ id)
      generalize ((s.dropPortTransfers id).dropCtxs id).leaveBindings id = t at hgone ⊢
      have htagged : JobsOnly s (if j.started = true then j.alt.elim t t.tagDents else t) := by
        refine hgone.trans ?_
        split
        · cases j.alt <;> rfl
        · rfl
      generalize (if j.started = true then j.alt.elim t t.tagDents else t) = u at htagged ⊢
      refine (htagged.trans (JobsOnly.countEnd u j.client st)).trans ?_
      generalize u.countEnd j.client st = v
      split
      · exact JobsOnly.dropPhraseJob v j st
      · exact (JobsOnly.mapJob v id _).trans (JobsOnly.resultEventOf _ id)

theorem JobsOnly.endJob (s : State) (id : Word) (st : Status) : JobsOnly s (s.endJob id st) :=
  (JobsOnly.foldl (fun s m => JobsOnly.endOne s m _) _ s).trans (JobsOnly.endOne _ id st)

theorem JobsOnly.settleJob (s : State) (id : Word) : JobsOnly s (s.settleJob id) := by
  unfold State.settleJob
  split
  · exact JobsOnly.refl s
  · split
    · exact JobsOnly.endJob s id _
    · exact JobsOnly.refl s

theorem JobsOnly.stopJob (s : State) (id : Word) (st : Status) : JobsOnly s (s.stopJob id st) := by
  unfold State.stopJob
  split
  · exact JobsOnly.refl s
  · split
    · exact JobsOnly.refl s
    · refine JobsOnly.trans ?_ (JobsOnly.settleJob _ id)
      rfl

theorem JobsOnly.cancelJob (s : State) (id : Word) : JobsOnly s (s.cancelJob id) := by
  unfold State.cancelJob
  split
  · exact JobsOnly.refl s
  · next j _ =>
    split
    · exact JobsOnly.stopJob s id _
    · split
      · rfl
      · exact JobsOnly.endJob s id _
    · split
      · rfl
      · exact JobsOnly.endJob s id _

theorem JobsOnly.cancelAll (s : State) : JobsOnly s s.cancelAll := JobsOnly.foldl (fun s id => JobsOnly.endJob s id _) _ s

/-! ### The end of a transfer and of a stream -/

theorem JobsOnly.charge (s : State) (job : Word) (pos : Nat) (es : List Engine) (waves fixed : Nat) :
    JobsOnly s (s.charge job pos es waves fixed) := by
  unfold State.charge
  dsimp only
  split <;> rfl

/-- R101: completed transfers leave in order. -/
theorem JobsOnly.flushTransfers (s : State) (job : Word) (pos : Nat) : JobsOnly s (s.flushTransfers job pos) := by
  unfold State.flushTransfers
  refine JobsOnly.trans (JobsOnly.foldl (fun s t => ?_) _ s) rfl
  split <;> rfl

theorem JobsOnly.completeTransfer (s : State) (t : Transfer) : JobsOnly s (s.completeTransfer t) := by
  unfold State.completeTransfer
  have hcharged : JobsOnly s ((s.mapCtx t.job t.position t.settled).charge t.job t.position [.fetch] t.waves 0) :=
    (JobsOnly.mapCtx s _ _ _).trans (JobsOnly.charge _ _ _ _ _ _)
  exact ((hcharged.trans (JobsOnly.flushTransfers _ _ _)).trans (JobsOnly.settleJob _ _)).trans
    (JobsOnly.of_passes (State.refresh_passes _ _))

theorem JobsOnly.donePiece (s : State) (loom tag : Nat) : JobsOnly s (s.donePiece loom tag) := by
  unfold State.donePiece
  split
  · exact JobsOnly.refl s
  · dsimp only
    split
    · exact (JobsOnly.mapTagged s _ _ _).trans (JobsOnly.completeTransfer _ _)
    · rfl

/-- R398: a stream closes. -/
theorem JobsOnly.closeStream (s : State) (id : Word) : JobsOnly s (s.closeStream id) := by
  unfold State.closeStream
  split
  · exact JobsOnly.refl s
  · next t _ =>
    have hinbox := JobsOnly.foldl (fun s r => JobsOnly.donePiece s r.loom r.tag) t.inbox s
    refine JobsOnly.trans (hinbox.trans (JobsOnly.trans ?_ (JobsOnly.foldl JobsOnly.cancelJob _ _)))
      (JobsOnly.of_output (OutputOnly.tellAll _ _))
    rfl

end Sys2Proof.Machine
end

section
/-!
PROOF. R424 to R428: the commands of groups 0x07 and 0x08 without a fault.
-/
namespace Sys2Proof.Machine

open Sys2Proof Sys2Proof.Safety

section Accepted
variable (s : State) (h : Hdr)

@[simp] theorem accepted_quoteBody (nonce : List Byte) (select : Nat) :
    (accepted s h).quoteBody nonce select = s.quoteBody nonce select :=
  accepted_reads s h (f := (·.quoteBody nonce select)) fun _ _ => rfl
@[simp] theorem accepted_akSeed : (accepted s h).akSeed = s.akSeed :=
  accepted_reads s h (f := State.akSeed) fun _ _ => rfl
@[simp] theorem accepted_keyStore : (accepted s h).keyStore = s.keyStore :=
  accepted_reads s h (f := State.keyStore) fun _ _ => rfl
@[simp] theorem accepted_keysLocked : (accepted s h).keysLocked = s.keysLocked := by simp [State.keysLocked]
@[simp] theorem accepted_lifecycleSigners (target : Nat) :
    (accepted s h).lifecycleSigners target = s.lifecycleSigners target :=
  accepted_reads s h (f := (·.lifecycleSigners target)) fun _ _ => rfl
@[simp] theorem accepted_rollbackValue : (accepted s h).rollbackValue = s.rollbackValue :=
  accepted_reads s h (f := State.rollbackValue) fun _ _ => rfl
@[simp] theorem accepted_modelKeyUnwrap (keyId cipher wrapped : List Byte) :
    (accepted s h).modelKeyUnwrap keyId cipher wrapped = s.modelKeyUnwrap keyId cipher wrapped :=
  accepted_reads s h (f := (·.modelKeyUnwrap keyId cipher wrapped)) fun _ _ => rfl
@[simp] theorem accepted_tokenSigners (level : Nat) : (accepted s h).tokenSigners level = s.tokenSigners level :=
  accepted_reads s h (f := (·.tokenSigners level)) fun _ _ => rfl
@[simp] theorem accepted_debugLocked : (accepted s h).debugLocked = s.debugLocked := by simp [State.debugLocked]
@[simp] theorem accepted_traceDent (dest records : Nat) : (accepted s h).traceDent dest records = s.traceDent dest records := by
  simp [State.traceDent]
@[simp] theorem accepted_loom (n : Nat) : (accepted s h).loom n = s.loom n :=
  accepted_reads s h (f := (·.loom n)) fun _ _ => rfl
@[simp] theorem accepted_resident? (loom slot : Nat) : (accepted s h).resident? loom slot = s.resident? loom slot :=
  accepted_reads s h (f := (·.resident? loom slot)) fun _ _ => rfl

end Accepted

/-! ### ATTEST, KEY_INSTALL and LIFECYCLE -/

/-- R524: keys may be installed in the stages between Manufacture and Returned. -/
theorem State.keysLocked_eq_false {s : State} (h0 : s.bark.lifecycle ≠ 0) (h3 : s.bark.lifecycle ≠ 3) :
    s.keysLocked = false := by
  exact Bool.or_eq_false_iff.mpr ⟨beq_eq_false_iff_ne.mpr h0, beq_eq_false_iff_ne.mpr h3⟩

theorem State.lifetime_bark (s : State) (code kind unit status : Nat) (detail : List Byte) :
    (s.lifetime code kind unit status detail).bark = s.bark := rfl

theorem State.emptyDevice_bark (s : State) : s.emptyDevice.bark = s.bark := by
  have hclosed := (JobsOnly.cancelAll s).trans (JobsOnly.foldl JobsOnly.closeStream (s.audio.streams.map (·.id)) s.cancelAll)
  exact hclosed.bark

/-- R511: the stage that a transition burns. -/
theorem State.burnLifecycle_lifecycle (s : State) (target : Nat) (owner : List Byte) :
    (s.burnLifecycle target owner).bark.lifecycle = BitVec.ofNat 8 target := by
  unfold State.burnLifecycle
  dsimp only
  split
  · exact congrArg Bark.lifecycle (State.emptyDevice_bark _)
  · rfl

/-- R512: a slot changes; the participant of a CAK in use restarts. -/
theorem State.installKey_eq (s : State) (kind slot : Nat) (v : KeySlot) :
    s.installKey kind slot v = let t := s.writeKeyStore (s.keyStore.setSlot kind slot v)
      if kind = 0 ∧ s.net.mkaSlot = some slot then { t with net := t.net.unsecure } else t := by
  have hnet : (s.writeKeyStore (s.keyStore.setSlot kind slot v)).net = s.net := by
    unfold State.writeKeyStore
    dsimp only
    split <;> rfl
  simp [State.installKey, hnet]

/-- Settles O15: the checks of each command pass, and a transition's stage is what it burns, the last thing it writes there. -/
theorem barkCommandsComplete : Obligations.BarkCommandsComplete := by
  refine ⟨fun s h ps => ⟨?attest, ?keyInstall, ?read⟩, fun s h ps => ?transition⟩
  case attest =>
    intro takes hlen hselect hboth q
    have hgood : (bitsOf (be ps 32 4) 29 10 != 0 || (bitOf (be ps 32 4) 30 && bitOf (be ps 32 4) 31)) = false := by
      simpa [hselect] using hboth
    refine replies_of_body takes rfl ?_
    unfold attestBody
    simp only [accepted_quoteBody, accepted_akSeed, accepted_bark]
    rw [if_neg (by simp [hlen])]
    exact if_neg (ne_true_of_eq_false hgood)
  case keyInstall =>
    intro payload kind slot e takes hlong hlen hkind hslot hzero hchecks h0 h3 hserial hnewer hsigned hpayload
    have hpass : firstBad ([(0, decide (kind ≤ 2)), (1, decide (slot ≤ 3)), (2, zeroAt ps 2 2)] ++ envelopeChecks e kind slot)
        = none := by
      have hrest := firstBad_eq_none.mp hchecks
      refine firstBad_eq_none.mpr fun c hc => ?_
      rcases List.mem_append.mp hc with hc | hc
      · have hall : ∀ c ∈ [(0, decide (kind ≤ 2)), (1, decide (slot ≤ 3)), (2, zeroAt ps 2 2)], c.2 = true := by
          simp [hkind, hslot, hzero]
        exact hall c hc
      · exact hrest c hc
    have hauth : (slice e 8 8 != serialBytes
        || decide (be e 16 4 ≤ (nth (s.keyStore.kind kind) slot .empty).generation.toNat)
        || !signedBy [s.bark.ownerDigest] e) = false := by
      simp [hserial, hsigned, Nat.not_le.mpr hnewer]
    refine replies_of_body takes rfl ?_
    unfold keyInstallBody
    dsimp only
    have hfits : (decide (ps.length < 12) || ps.length != 4 + envelopeLen kind (bitOf (be e 7 1) 0)) = false := by
      simp [← hlen, Nat.not_lt.mpr hlong]
    rw [if_neg (ne_true_of_eq_false hfits), hpass]
    dsimp only
    rw [accepted_keysLocked, State.keysLocked_eq_false h0 h3, if_neg (by decide), accepted_keyStore, accepted_bark,
      if_neg (ne_true_of_eq_false hauth), hpayload]
    dsimp only
    rw [State.installKey_eq, accepted_keyStore, accepted_net]
  case read =>
    intro takes hlen hread hzero
    refine replies_of_body takes rfl ?_
    simp [lifecycleBody, firstBad, hlen, hread, hzero]
  case transition =>
    intro signers t takes hlen htarget hzero hmagic hversion hnames hpad howner hsigners hstage hserial hsigned
    refine ⟨(accepted s h).burnLifecycle (be ps 0 1) (slice t 16 32), ?_, rfl, State.burnLifecycle_lifecycle _ _ _⟩
    have hread : be ps 0 1 ≠ 0xFF := by omega
    have hbody : lifecycleBody ps (accepted s h)
        = { ok ([BitVec.ofNat 8 (be ps 0 1)] ++ zeros 3) ((accepted s h).burnLifecycle (be ps 0 1) (slice t 16 32)) with
            post := State.coldReset } := by
      have hchecks : firstBad ([(0, be ps 0 1 ≤ 3 || be ps 0 1 == 0xFF), (1, zeroAt ps 1 3)] ++
          [(4, be t 0 4 == 0x4C435431), (8, be t 4 1 == 1), (10, be t 6 1 == be ps 0 1), (11, zeroAt t 7 1),
           (20, be ps 0 1 == 1 || zeroAt t 16 32)]) = none := by
        have howner' : be ps 0 1 = 1 ∨ zeroAt t 16 32 = true := Decidable.or_iff_not_imp_left.mpr howner
        simpa [firstBad_eq_none, htarget, hzero, hmagic, hversion, hnames, hpad] using howner'
      unfold lifecycleBody
      dsimp only
      rw [if_neg (by simp [hlen, hread]; omega)]
      have hread' : (be ps 0 1 == 0xFF) = false := beq_eq_false_iff_ne.mpr hread
      have hauth : (slice t 8 8 != serialBytes || !signedBy signers t) = false := by simp [hserial, hsigned]
      simp only [hread', Bool.or_false, Bool.false_eq_true, if_false] at hchecks ⊢
      rw [hchecks]
      dsimp only
      rw [accepted_lifecycleSigners, hsigners]
      dsimp only
      rw [accepted_bark, if_neg (by simpa using hstage), if_neg (ne_true_of_eq_false hauth), State.burnLifecycle_lifecycle]
    exact exec_of_body_then (i := .lifecycleTransition h ps) takes rfl hbody

end Sys2Proof.Machine
end

section
/-!
PROOF. R425 to R428, R517: FW_INSTALL, MODEL_KEY and the debug commands without a fault.
-/
namespace Sys2Proof.Machine

open Sys2Proof Sys2Proof.Safety

/-! ### FW_INSTALL and MODEL_KEY -/

/-- R566: a part that has left its network boot does not leave it again. -/
theorem State.leaveNetworkBoot_of_ready {s : State} (hb : s.power.boot = .ready) : s.leaveNetworkBoot = s := by
  simp [State.leaveNetworkBoot, hb]

/-- R358: a command whose follow-up finds nothing to do has only its reply. -/
theorem replies_of_idle_post {i : Instr} {op : Nat} {h : Hdr} {ps : List Byte} {s s' : State} {params : List Byte}
    {post : State → State} {run : List Byte → State → Answer} (takes : Takes s op h ps)
    (runs : exec i s = .next (s.command i op h ps false run))
    (body : run ps (accepted s h) = { ok params s' with post := post })
    (idle : post (answered op h s' .ok h.context false params) = answered op h s' .ok h.context false params) :
    Replies i op h s s' params := by
  have hrun := exec_of_body_then takes runs body
  exact hrun.trans (congrArg _ idle)

/-- Settles O16: by the OP of each command; leaving the network boot does nothing on a part that is past its boot. -/
theorem firmwareAndModelKeysComplete : Obligations.FirmwareAndModelKeysComplete := by
  refine ⟨fun s h ps i takes hzero => ⟨?manifest, ?chunk, ?finish, ?read⟩, ?keys⟩
  case manifest =>
    intro hop
    dsimp only
    intro hlen hmagic hversion hpad hmin hmax hzeros hsigned hnewer
    refine replies_of_body takes rfl ?_
    have hchecks : firstBad [(1, zeroAt ps 1 3), (4, be (ps.drop 4) 0 4 == 0x464D4631), (8, be (ps.drop 4) 4 1 == 1),
        (9, zeroAt (ps.drop 4) 5 3),
        (16, 1 ≤ manifestImageBytes (ps.drop 4) && manifestImageBytes (ps.drop 4) ≤ 33554432),
        (60, zeroAt (ps.drop 4) 56 8)] = none := by
      simp [firstBad_eq_none, hzero, hmagic, hversion, hpad, hmin, hmax, hzeros]
    unfold fwInstallBody
    rw [if_neg (by simp [hlen]; omega), hop]
    unfold fwManifest
    dsimp only
    rw [if_neg (by simp [hlen]; omega), hchecks]
    dsimp only
    rw [if_neg (by simp [hsigned]), accepted_rollbackValue, if_neg (Nat.not_lt.mpr hnewer)]
    simp only [State.setInstall, accepted_flash, accepted_bark]
  case chunk =>
    intro hop hi howner hlong hlen hmin hmax hnext hroom
    refine replies_of_body takes rfl ?_
    unfold fwInstallBody
    rw [if_neg (by omega), hop]
    simp [fwChunk, firstBad, State.setInstall, hlen, hzero, hi, howner, hnext, hmin, hmax, hroom]
  case finish =>
    intro hop hlen hi howner hall hmatch
    have hbody : fwInstallBody h ps (accepted s h) = { ok [] { accepted s h with
        flash := { s.flash with manifest := i.manifest }, bark := { s.bark with install := none, imageCopy := none } } with
        post := State.leaveNetworkBoot } := by
      unfold fwInstallBody
      rw [if_neg (by omega), hop]
      simp [fwFinish, State.setInstall, hlen, hzero, hi, howner, hall, hmatch]
    refine replies_of_idle_post takes rfl hbody (State.leaveNetworkBoot_of_ready ?_)
    rw [(OutputOnly.answered _ _ _ _ _ _ _).power]
    simpa using takes.1
  case read =>
    intro hop hlen
    refine replies_of_body takes rfl ?_
    cases hi : s.bark.install with
    | none => simp [fwInstallBody, fwRead, hop, hlen, hzero, hi]
    | some i => simp [fwInstallBody, fwRead, hop, hlen, hzero, hi]
  case keys =>
    intro s h ps takes hzero hne h0 h3 id
    have hid : (id != 0#32) = true := by simpa using word_ne_zero hne
    have hopen : (accepted s h).keysLocked = false := by simpa using State.keysLocked_eq_false h0 h3
    refine ⟨fun key hop hlen hnew hroom hkey => ?_, fun hop hlen hfree => ?_⟩
    · have hnone : (s.bark.modelKeys.any fun k => k.1 == id) = false := by simpa using hnew
      have hchecks : firstBad [(0, decide (0 ≤ 1)), (1, zeroAt ps 1 3), (4, id != 0)] = none := by
        simp [-bne_iff_ne, firstBad_eq_none, hzero, hid]
      refine replies_of_body takes rfl ?_
      unfold modelKeyBody
      simp only [hop]
      rw [if_neg (by simp [hlen]), hchecks]
      simp only [hopen, accepted_bark, accepted_modelKeyUnwrap, hkey, Nat.not_le.mpr hroom, beq_self_eq_true, if_true,
        Bool.false_eq_true, if_false]
      exact if_neg (ne_true_of_eq_false hnone)
    · have hnone : (s.sched.models.any fun m => !m.committed && m.encrypted && m.keyId == id) = false := by
        simpa [and_assoc] using hfree
      have hchecks : firstBad [(0, decide (1 ≤ 1)), (1, zeroAt ps 1 3), (4, id != 0)] = none := by
        simp [-bne_iff_ne, firstBad_eq_none, hzero, hid]
      refine replies_of_body takes rfl ?_
      unfold modelKeyBody
      simp only [hop]
      rw [if_neg (by simp [hlen]), hchecks]
      dsimp only
      rw [hopen, if_neg (by decide), if_neg (by decide), accepted_sched, accepted_bark]
      exact if_neg (ne_true_of_eq_false hnone)

/-! ### The debug commands -/

/-- Settles O17: the checks of each command pass, and a live grant unlocks it. -/
theorem debugAccessCommandsComplete : Obligations.DebugAccessCommandsComplete := by
  refine ⟨fun s h ps => ⟨?unlock, ?lock⟩, fun s h ps hlive => ⟨?trace, ?halt, ?step⟩⟩
  case unlock =>
    intro signers t takes hlen hlevel hzero hmagic hversion hnames hflags hpad hsigners hserial hcycles hminutes hsigned
    have hchecks : firstBad [(0, be ps 0 1 == 1 || be ps 0 1 == 2), (1, zeroAt ps 1 3), (4, be t 0 4 == 0x44475431),
        (8, be t 4 1 == 1), (9, be t 5 1 == be ps 0 1), (10, be t 6 2 ≤ 3), (28, zeroAt t 24 8)] = none := by
      simpa [firstBad_eq_none, hzero, hmagic, hversion, hnames, hflags, hpad] using hlevel
    have hauth : (slice t 8 8 != serialBytes || be t 16 4 != s.recorder.cycles.toNat
        || decide (be t 20 4 ≤ s.recorder.minutes.toNat) || !signedBy signers t) = false := by
      simp [hserial, hcycles, hsigned, Nat.not_le.mpr hminutes]
    refine replies_of_body takes rfl ?_
    unfold debugUnlockBody
    dsimp only
    rw [if_neg (by simp [hlen]), hchecks]
    dsimp only
    rw [accepted_tokenSigners, hsigners]
    dsimp only
    rw [accepted_recorder, accepted_bark]
    exact if_neg (ne_true_of_eq_false hauth)
  case lock =>
    intro takes hlen id
    refine ⟨fun h0 => ?_, fun hne hg => ?_⟩
    · refine replies_of_body takes rfl ?_
      simp [debugLockBody, hlen, h0]
    · refine replies_of_body takes rfl ?_
      have hid : (BitVec.ofNat 32 (be ps 0 4) == 0) = false := beq_eq_false_iff_ne.mpr (word_ne_zero hne)
      have hfound : (s.bark.grants.any fun g => g.id == BitVec.ofNat 32 (be ps 0 4)) = true := by simpa using hg
      unfold debugLockBody
      dsimp only
      rw [if_neg (by simp [hlen]), accepted_bark, if_neg (ne_true_of_eq_false hid)]
      exact if_pos hfound
  case trace =>
    intro takes hlen hzero
    have hopen : (accepted s h).debugLocked = false := by simpa [State.debugLocked] using hlive
    refine ⟨fun d => ?_, fun hop => ?_⟩
    · intro ring hop hlooms hmin hmax hring hnone hfree
      refine replies_of_body takes rfl ?_
      simp [traceCtrlBody, firstBad, hlen, hop, hzero, hlooms, hmin, hmax, hring, hnone, hfree, hopen, ring]
    · refine replies_of_body takes rfl ?_
      simp [traceCtrlBody, firstBad, hlen, hop, hzero, hopen]
  case halt =>
    intro takes hlen hzero hloom hgood hon
    have hopen : (accepted s h).debugLocked = false := by simpa [State.debugLocked] using hlive
    refine ⟨fun hop => ?_, fun hop => ?_⟩
    · refine replies_of_body takes rfl ?_
      simp [loomHaltBody, firstBad, hlen, hop, hzero, hloom, hgood, hopen, State.domainOn, hon]
    · refine replies_of_body takes rfl ?_
      simp [loomHaltBody, firstBad, hlen, hop, hzero, hloom, hgood, hopen, State.domainOn, hon]
  case step =>
    intro c takes hlen hloom hslot he hzero hcount hpad hhalted hc
    have hopen : (accepted s h).debugLocked = false := by simpa [State.debugLocked] using hlive
    refine replies_of_body takes rfl ?_
    simp [loomStepBody, firstBad, hlen, hloom, hslot, he, hzero, hcount, hpad, hhalted, hc, hopen]

end Sys2Proof.Machine
end

section
/-!
PROOF. R374, R429 to R438: PACE_READ and the commands of groups 0x09 and 0x0A without a fault.
-/
namespace Sys2Proof.Machine

open Sys2Proof Sys2Proof.Safety

section Accepted
variable (s : State) (h : Hdr)

@[simp] theorem accepted_entryBusy (t i : Nat) : (accepted s h).entryBusy t i = s.entryBusy t i :=
  accepted_reads s h (f := (·.entryBusy t i)) fun _ _ => rfl
@[simp] theorem accepted_tableEntries (t : Nat) : (accepted s h).tableEntries t = s.tableEntries t :=
  accepted_reads s h (f := (·.tableEntries t)) fun _ _ => rfl
@[simp] theorem accepted_currentImage : (accepted s h).currentImage = s.currentImage :=
  accepted_reads s h (f := State.currentImage) fun _ _ => rfl
@[simp] theorem accepted_dirty : (accepted s h).dirty = s.dirty :=
  accepted_reads s h (f := State.dirty) fun _ _ => rfl

end Accepted

/-- R437: the image that a commit writes. -/
def State.committedImage (s : State) : List Byte :=
  settingsImage s.live ((imageGeneration s.currentImage + 1) % 2 ^ 32) s.bark.lifecycle

theorem State.commitSettings_of_slot0 {s : State} (hc : s.flash.current = some false) :
    s.commitSettings = ((imageGeneration s.currentImage + 1) % 2 ^ 32, { s with flash :=
      { s.flash with slot1 := s.committedImage, current := some true, heartwoodCopy := s.committedImage } }) := by
  simp [State.commitSettings, State.committedImage, hc]

theorem State.commitSettings_of_not_slot0 {s : State} (hc : s.flash.current ≠ some false) :
    s.commitSettings = ((imageGeneration s.currentImage + 1) % 2 ^ 32, { s with flash :=
      { s.flash with slot0 := s.committedImage, current := some false, heartwoodCopy := s.committedImage } }) := by
  rcases he : s.flash.current with _ | _ | _
  · simp [State.commitSettings, State.committedImage, he]
  · exact absurd he hc
  · simp [State.commitSettings, State.committedImage, he]

@[simp] theorem accepted_committedImage (s : State) (h : Hdr) : (accepted s h).committedImage = s.committedImage := by
  simp [State.committedImage]

theorem PaceCounter.domain_eq (c : PaceCounter) :
    c.domain = if c.kind = 0 then c.index else if c.kind = 1 then 68 + c.index else 112 := by
  simp [PaceCounter.domain]

theorem paceNamed_iff (kind first count : Byte) (c : PaceCounter) :
    paceNamed kind.toNat first.toNat count.toNat c = true
      ↔ kind = 0xFF ∨ c.kind = kind.toNat ∧ first.toNat ≤ c.index ∧ c.index < first.toNat + count.toNat := by
  have hall : kind.toNat = 0xFF ↔ kind = 0xFF := ⟨fun e => BitVec.eq_of_toNat_eq e, fun e => by rw [e]; rfl⟩
  simp [paceNamed, hall, and_assoc]

/-- R374: a counter that is read with CLEAR. -/
def PaceCounter.clearedBy (read : PaceCounter → Bool) (c : PaceCounter) : PaceCounter :=
  if read c then { c with minRate := 0, cleared := true } else c

/-- R374: what a PACE_READ that passes its checks answers. -/
theorem paceReadBody_ok {s : State} {kind first count : Byte} {clear : Bool}
    (hunits : kind = 0xFF ∨ kind.toNat ≤ 2 ∧ 1 ≤ count.toNat ∧ first.toNat + count.toNat ≤ paceUnits kind.toNat) :
    paceReadBody [kind, first, count, if clear then 1 else 0] s
      = ok ((s.pace.counters.filter fun c => paceNamed kind.toNat first.toNat count.toNat c && s.domainOn c.domain).flatMap
          PaceCounter.record)
        (if clear then
          { s with pace := { s.pace with
              counters := s.pace.counters.map (PaceCounter.clearedBy fun c =>
                paceNamed kind.toNat first.toNat count.toNat c && s.domainOn c.domain) } }
          else s) := by
  have hfields : ∀ flag : Byte, be [kind, first, count, flag] 0 1 = kind.toNat ∧ be [kind, first, count, flag] 1 1 = first.toNat
      ∧ be [kind, first, count, flag] 2 1 = count.toNat ∧ be [kind, first, count, flag] 3 1 = flag.toNat := by
    intro flag
    simp [be, slice, beNat]
  have hall : kind.toNat = 0xFF ∨ kind.toNat ≤ 2 ∧ 1 ≤ count.toNat ∧ first.toNat + count.toNat ≤ paceUnits kind.toNat :=
    hunits.imp_left fun e => by rw [e]; rfl
  have hchecks : ∀ flag : Byte, flag.toNat ≤ 1 → firstBad [(0, kind.toNat ≤ 2 || kind.toNat == 0xFF),
      (1, kind.toNat == 0xFF || first.toNat + count.toNat ≤ paceUnits kind.toNat), (2, kind.toNat == 0xFF || count.toNat != 0),
      (3, decide (flag.toNat ≤ 1))] = none := by
    intro flag hflag
    rcases hall with hall | ⟨hkind, hcount, hend⟩
    · simp [firstBad_eq_none, hall, hflag]
    · have hne : count.toNat ≠ 0 := by omega
      simp [-ne_eq, firstBad_eq_none, hkind, hend, hflag, bne_iff_ne.mpr hne]
  obtain ⟨hk, hf, hc, hl⟩ := hfields (if clear then 1 else 0)
  unfold paceReadBody
  simp only [hk, hf, hc, hl]
  rw [if_neg (by simp), hchecks _ (by cases clear <;> decide)]
  cases clear <;> rfl

/-- Settles O18: the checks of each command pass, and what follows them reads or writes what the command names. -/
theorem tableAndSettingsCommandsComplete : Obligations.TableAndSettingsCommandsComplete := by
  refine ⟨⟨?pace, fun s h ps n size => ⟨?info, ?ring, ?write, ?read⟩⟩, fun s h ps => ⟨?commit, ?settings⟩⟩
  case pace =>
    intro s h kind first count clear
    dsimp only
    intro takes hunits
    have hnamed : ∀ c : PaceCounter, (paceNamed kind.toNat first.toNat count.toNat c && s.domainOn c.domain)
        = decide ((kind = 0xFF ∨ c.kind = kind.toNat ∧ first.toNat ≤ c.index ∧ c.index < first.toNat + count.toNat)
          ∧ s.power.powered.getLsbD (if c.kind = 0 then c.index else if c.kind = 1 then 68 + c.index else 112) = true) := by
      intro c
      rw [Bool.eq_iff_iff, decide_eq_true_iff, Bool.and_eq_true, paceNamed_iff, State.domainOn, PaceCounter.domain_eq]
    refine replies_of_body takes rfl ((paceReadBody_ok hunits).trans ?_)
    simp only [accepted_pace, accepted_domainOn, hnamed]
    rfl
  case info =>
    intro takes
    refine replies_of_body takes rfl ?_
    simp [ringInfoBody]
  case ring =>
    intro takes hlen hclass hzero hfirst hmin hmax
    refine replies_of_body takes rfl ?_
    have hmax' : be ps 8 2 ≤ (if be ps 0 1 == 0 then 139 else 279) := by simpa using hmax
    have hchecks : firstBad [(0, decide (be ps 0 1 ≤ 1)), (1, zeroAt ps 1 3), (4, decide (be ps 4 4 < (ringShape (be ps 0 1)).1)),
        (8, 1 ≤ be ps 8 2 && be ps 8 2 ≤ (if be ps 0 1 == 0 then 139 else 279))] = none := by
      simpa [firstBad_eq_none, hclass, hzero, hfirst, hmin] using hmax
    unfold ringReadBody
    dsimp only
    rw [if_neg (by simp [hlen]), hchecks]
    dsimp only
    rw [accepted_recorder]
  case write =>
    intro takes hlong hlow hhigh hzero hsize hlen hfirst hfits hzeros
    dsimp only
    intro hok hfree
    have hchecks : firstBad [(0, 1 ≤ be ps 0 1 && be ps 0 1 ≤ 6), (1, zeroAt ps 1 1), (2, decide (be ps 2 2 ≤ n)),
        (4, decide (be ps 2 2 + be ps 4 2 ≤ n)), (6, zeroAt ps 6 2),
        (8, tableWriteOk (be ps 0 1) (chunk size (be ps 4 2) (ps.drop 8))
          (replaceEntries (s.live.table (be ps 0 1)) (be ps 2 2) (chunk size (be ps 4 2) (ps.drop 8))))] = none := by
      simp [firstBad_eq_none, hlow, hhigh, hzero, hfirst, hfits, hzeros, hok]
    have hunused : ((List.range (be ps 4 2)).any fun i => s.entryBusy (be ps 0 1) (be ps 2 2 + i)) = false := by
      simpa using hfree
    refine replies_of_body takes rfl ?_
    unfold tableWriteBody
    dsimp only
    rw [if_neg (Nat.not_lt.mpr hlong), hsize]
    dsimp only
    rw [if_neg (by simp [hlen]), accepted_live, hchecks]
    dsimp only
    simp only [accepted_entryBusy]
    exact if_neg (ne_true_of_eq_false hunused)
  case read =>
    intro takes hlen hzero hzeros hsize hfirst hfits hroom
    refine replies_of_body takes rfl ?_
    simp [tableReadBody, firstBad, hlen, hsize, hzero, hzeros, hfirst, hfits, hroom]
  case commit =>
    intro takes hlen hzero
    refine ⟨fun hop hcur => ?_, fun hop hcur => ?_, fun hop => ?_⟩
    · refine replies_of_body takes rfl ?_
      simp [settingsCommitBody, firstBad, hlen, hop, hzero, State.commitSettings_of_slot0, hcur, State.committedImage]
    · refine replies_of_body takes rfl ?_
      simp [settingsCommitBody, firstBad, hlen, hop, hzero, State.commitSettings_of_not_slot0, hcur, State.committedImage]
    · refine replies_of_body takes rfl ?_
      simp [settingsCommitBody, firstBad, hlen, hop, hzero, State.invalidateSettings]
  case settings =>
    intro takes hlen hmost hfits
    refine replies_of_body takes rfl ?_
    simp [settingsReadBody, firstBad, hlen, hmost, hfits]

end Sys2Proof.Machine
end

section
/-!
PROOF. R403, R404: SYS_ROUTE and LINK_STATUS without a fault.
-/
namespace Sys2Proof.Machine

open Sys2Proof Sys2Proof.Safety

section Accepted
variable (s : State) (h : Hdr)

@[simp] theorem accepted_port (n : Nat) : (accepted s h).port n = s.port n :=
  accepted_reads s h (f := (·.port n)) fun _ _ => rfl
@[simp] theorem accepted_liveBindings : (accepted s h).liveBindings = s.liveBindings := by simp [State.liveBindings]
@[simp] theorem accepted_bindChecks (ps : List Byte) : (accepted s h).bindChecks ps = s.bindChecks ps :=
  accepted_reads s h (f := (·.bindChecks ps)) fun _ _ => rfl
@[simp] theorem accepted_phasesAllow (kind send : Nat) (recvs : List Nat) :
    (accepted s h).phasesAllow kind send recvs = s.phasesAllow kind send recvs := by simp [State.phasesAllow]
@[simp] theorem accepted_linked (a b : Nat) : (accepted s h).linked a b = s.linked a b := by simp [State.linked]
@[simp] theorem accepted_windowsFit (narrowed : Bool) (maxBlock window : Nat) (recvs : List BindEnd) :
    (accepted s h).windowsFit narrowed maxBlock window recvs = s.windowsFit narrowed maxBlock window recvs :=
  accepted_reads s h (f := (·.windowsFit narrowed maxBlock window recvs)) fun _ _ => rfl
@[simp] theorem accepted_scalePlace (device port size : Nat) :
    (accepted s h).scalePlace device port size = s.scalePlace device port size := by simp [State.scalePlace]
@[simp] theorem accepted_freeBinding : (accepted s h).freeBinding = s.freeBinding := by simp [State.freeBinding]
@[simp] theorem accepted_endNotReady : (accepted s h).endNotReady = s.endNotReady :=
  accepted_reads s h (f := State.endNotReady) fun _ _ => rfl
@[simp] theorem accepted_selvageRecord : (accepted s h).selvageRecord = s.selvageRecord :=
  accepted_reads s h (f := State.selvageRecord) fun _ _ => rfl
@[simp] theorem accepted_boundStreams (port first count : Nat) :
    (accepted s h).boundStreams port first count = s.boundStreams port first count := by simp [State.boundStreams]

end Accepted

/-- R403: a SYS_ROUTE for this device with a known OP is of that OP's form. -/
theorem sysRouteBody_of_checks {s : State} {h : Hdr} {ps : List Byte} (hlong : 24 ≤ ps.length)
    (hlen : ps.length = 24 + 8 * be ps 8 1) (hroot : h.device = 0) (hop : be ps 0 1 = 0 ∨ be ps 0 1 = 1 ∧ zeroAt ps 9 7 = true) :
    sysRouteBody h ps s = if be ps 0 1 = 0 then sysBind ps s else sysUnbind ps s := by
  unfold sysRouteBody
  rw [if_neg (by simp [← hlen]; omega)]
  rcases hop with h0 | ⟨h1, hzero⟩
  · simp [firstBad, hroot, h0]
  · simp [firstBad, hroot, h1, hzero]

/-- Settles O20: SYS_ROUTE by its OP, LINK_STATUS by the flags that name what else it reads. -/
theorem bindingAndLinkCommandsComplete : Obligations.BindingAndLinkCommandsComplete := by
  refine ⟨fun s h ps takes hlong hlen hroot => ⟨fun base n => ?bind, fun b => ?unbind⟩, fun s h ps takes hlen hports hzero => ?status⟩
  case bind =>
    dsimp only
    intro hop hgood hphases hlinked hfits hplace hfree
    have hup : ((endAt ps 16 :: (List.range (be ps 8 1)).map fun i => endAt ps (24 + 8 * i)).any fun e =>
        !s.linked (endAt ps 16).device e.device || !s.linked e.device (endAt ps 16).device) = false :=
      List.any_eq_false.mpr fun e he => by simp [hlinked e he]
    refine replies_of_body takes rfl ?_
    rw [sysRouteBody_of_checks hlong hlen hroot (.inl hop), if_pos hop]
    unfold sysBind
    simp only [accepted_bindChecks, hgood, accepted_phasesAllow, hphases, accepted_linked, hup, accepted_windowsFit, hfits,
      accepted_scalePlace, hplace, accepted_freeBinding, hfree, Bool.not_true, Bool.false_eq_true, if_false]
  case unbind =>
    intro hop hzero hfound hdone
    have hidle : (b.send :: b.recvs.filter (·.live)).any s.endNotReady = false :=
      List.any_eq_false.mpr fun e he => by simp [hdone e he]
    refine replies_of_body takes rfl ?_
    rw [sysRouteBody_of_checks hlong hlen hroot (.inr ⟨hop, hzero⟩), if_neg (by simp [hop])]
    unfold sysUnbind
    dsimp only
    rw [accepted_liveBindings, hfound]
    dsimp only
    rw [accepted_endNotReady, accepted_free]
    exact if_neg (ne_true_of_eq_false hidle)
  case status =>
    dsimp only
    intro hflags hone hport hstreams hscales
    have hchecks : firstBad [(0, decide (be ps 0 1 < 64)), (1, be ps 1 1 < 32 && !(bitOf (be ps 1 1) 1 && bitOf (be ps 1 1) 2)),
        (2, be ps 2 1 ≤ 5 || !(bitOf (be ps 1 1) 1 || bitOf (be ps 1 1) 2)), (3, zeroAt ps 3 1),
        (4, (!bitOf (be ps 1 1) 1 || be ps 4 2 + be ps 6 2 ≤ 256) && (!bitOf (be ps 1 1) 2 || be ps 4 2 + be ps 6 2 ≤ 4096)),
        (6, (!bitOf (be ps 1 1) 1 || (1 ≤ be ps 6 2 && be ps 6 2 ≤ 200))
          && (!bitOf (be ps 1 1) 2 || (1 ≤ be ps 6 2 && be ps 6 2 ≤ 512)))] = none := by
      cases h1 : bitOf (be ps 1 1) 1 with
      | true =>
        cases h2 : bitOf (be ps 1 1) 2 with
        | true => exact absurd ⟨h1, h2⟩ hone
        | false => simp [firstBad_eq_none, hports, hflags, hzero, hport (.inl h1), hstreams h1]
      | false =>
        cases h2 : bitOf (be ps 1 1) 2 with
        | true => simp [firstBad_eq_none, hports, hflags, hzero, hport (.inr h2), hscales h2]
        | false => simp [firstBad_eq_none, hports, hflags, hzero]
    refine replies_of_body takes rfl ?_
    unfold linkStatusBody
    dsimp only
    rw [if_neg (by simp [hlen]), hchecks]
    dsimp only
    simp only [accepted_boundStreams, accepted_selvageRecord, accepted_port]
    cases bitOf (be ps 1 1) 3 <;> cases bitOf (be ps 1 1) 4 <;> rfl

end Sys2Proof.Machine
end

section
/-!
PROOF. R353, R355, R364: what every step does, the values after reset, and duplicates.
-/
namespace Sys2Proof.Machine

open Sys2Proof Sys2Proof.Safety

/-! ### A step -/

/-- R364: the packets in their turns are the packets. -/
theorem turns_perm (before is : List Instr) : ((turns before is).1 ++ (turns before is).2).Perm is := by
  induction is generalizing before with
  | nil => exact .nil
  | cons i rest ih =>
    simp only [turns]
    split
    · exact (ih _).cons i
    · exact List.perm_middle.trans ((ih _).cons i)

/-- R364: those that are no stream commands keep their order. -/
theorem turns_filter (before is : List Instr) :
    (turns before is).1.filter (fun i => !streamPacket i) = [] ∧
      (turns before is).2.filter (fun i => !streamPacket i) = is.filter fun i => !streamPacket i := by
  induction is generalizing before with
  | nil => simp [turns]
  | cons i rest ih =>
    simp only [turns]
    split
    · next hfirst =>
      have hstream : streamPacket i = true := (Bool.and_eq_true_iff.mp hfirst).1
      simp [hstream, ih]
    · simp [List.filter_cons, ih]

/-- Settles O50: by the queue; the packets that the firmware queue gives go in their turns. -/
theorem stepRunsFrontCommand : Obligations.StepRunsFrontCommand := by
  intro s
  refine ⟨fun c rest hq => by simp [step, hq], fun hq => ?_⟩
  have hstep : step s = .next s.idle := by simp [step, hq]
  intro u waiting
  have hperm : (inTurn waiting).Perm waiting := turns_perm [] waiting
  refine ⟨fun hnone => ?_, fun hsome => ⟨inTurn waiting, hperm, ?_, ?_⟩⟩
  · have hempty : inTurn (s.linkDrain.proto.fwQueue.filter s.linkDrain.interprets) = [] := by
      rw [show s.linkDrain.proto.fwQueue.filter s.linkDrain.interprets = [] from hnone]
      rfl
    rw [hstep]
    simp [State.idle, hempty, u]
  · obtain ⟨hfirst, hrest⟩ := turns_filter [] waiting
    simp [inTurn, hfirst, hrest]
  · have hne : (inTurn (s.linkDrain.proto.fwQueue.filter s.linkDrain.interprets)).isEmpty = false := by
      refine List.isEmpty_eq_false_iff.mpr fun (e : inTurn waiting = []) => hsome (List.Perm.eq_nil ?_)
      exact e ▸ hperm.symm
    rw [hstep]
    unfold State.idle
    dsimp only
    rw [if_neg (ne_true_of_eq_false hne)]

/-! ### Reset -/

theorem reedConfig_of_reset {r : DWord} (hr : r ∈ State.reset.live.reedIn ++ State.reset.live.reedOut) :
    r = Factory.reedConfig :=
  (List.mem_append.mp hr).elim List.eq_of_mem_replicate List.eq_of_mem_replicate

/-- Settles O53: field by field. -/
theorem resetValues : Obligations.ResetValues := by
  refine ⟨⟨rfl, rfl⟩, rfl, rfl, rfl, rfl, ?masters, rfl, rfl, rfl, rfl, rfl, rfl, rfl, rfl, rfl, rfl, ?ports, rfl, rfl, rfl, rfl, rfl,
    by decide, by decide, by decide, by decide, rfl, by decide, by decide, by decide, by decide, by decide, by decide, by decide,
    by decide, rfl, rfl, ?reeds, rfl, by decide⟩
  case masters =>
    intro m
    cases m <;> exact ⟨rfl, rfl, rfl, rfl, rfl⟩
  case ports => decide
  case reeds =>
    intro r hr
    obtain rfl := reedConfig_of_reset hr
    decide

/-! ### Duplicates -/

/-- R351: a command row is a packet from the DEVICE check on, with the command's own part. -/
theorem exec_of_packet {i : Instr} {op : Nat} {h : Hdr} {ps : List Byte} (hp : packetOf i = some (op, h, ps)) :
    ∃ run, ∀ s, exec i s = .next (s.command i op h ps false run) := by
  cases i <;> cases hp <;> exact ⟨_, fun _ => rfl⟩

/-- R351: a packet that runs or waits now is judged by its sequence number first. -/
theorem State.command_sequenced {s : State} {i : Instr} {op : Nat} {h : Hdr} {ps : List Byte} {run : List Byte → State → Answer}
    (hlisten : s.listens h.iface = true) (hwake : h.iface = .wakeBus → s.busWakes = false) (hgate : s.gate op h ps = .run)
    (hroot : h.iface = .hostLink → s.links.device = none ∨ s.links.isRoot = true) (hhere : s.verdict op h = .execute)
    (hheld : s.isHeld h = false) : ∃ k : State → State, s.command i op h ps false run = s.sequenced op h k := by
  have hbus : (h.iface == .wakeBus && s.power.boot == .ready && s.busWakes) = false := by
    by_cases e : h.iface = .wakeBus
    · simp [hwake e]
    · simp [e]
  have hforeign : (h.iface == .hostLink && s.links.device.isSome && !s.links.isRoot && op != 0x0B01) = false := by
    by_cases e : h.iface = .hostLink
    · rcases hroot e with hnone | hroot
      · simp [hnone]
      · simp [hroot]
    · simp [e]
  unfold State.command
  simp only [hheld, hbus, hlisten, hgate, Bool.not_true, Bool.false_eq_true, if_false]
  cases hwait : s.mustWait op h false with
  | true => exact ⟨_, by simp only [State.enqueue, State.route, hforeign, hhere, Bool.false_eq_true, if_false, if_true]; rfl⟩
  | false =>
    exact ⟨_, by simp only [State.dispatch, State.execute, State.route, hforeign, hhere, Bool.false_eq_true, if_false]; rfl⟩

/-- Settles O54: the packet's sequence number is judged before anything of the command runs. -/
theorem duplicatesNeverRunAgain : Obligations.DuplicatesNeverRunAgain := by
  intro s i op h ps hp hboot hlisten hwake hgate hroot hhere hheld ms stored
  obtain ⟨run, hrun⟩ := exec_of_packet hp
  obtain ⟨k, hk⟩ := State.command_sequenced (i := i) (run := run) hlisten hwake hgate hroot hhere hheld
  have hexec : exec i s = .next (s.sequenced op h k) := by rw [hrun, hk]
  refine ⟨fun hdup => ⟨fun p hp => ?_, fun hnone => ?_⟩, fun hop hstale => ?_⟩
  · rw [hexec]
    simp only [State.sequenced, show (s.master h.iface.master).classify h.seq = .duplicate from hdup, State.duplicate,
      show ((s.master h.iface.master).seen.find? fun e => e.seq == h.seq).bind (·.reply) = some p from hp]
  · rw [hexec]
    simp only [State.sequenced, show (s.master h.iface.master).classify h.seq = .duplicate from hdup, State.duplicate,
      show ((s.master h.iface.master).seen.find? fun e => e.seq == h.seq).bind (·.reply) = none from hnone]
  · rw [hexec]
    simp only [State.sequenced, show (s.master h.iface.master).classify h.seq = .stale from hstale,
      beq_eq_false_iff_ne.mpr hop, Bool.false_eq_true, if_false]

end Sys2Proof.Machine
end

section
/-!
PROOF. R374 to R438: the commands that read.
-/
namespace Sys2Proof.Machine

open Sys2Proof Sys2Proof.Safety

/-! ### Answers that change nothing -/

/-- An answer that leaves the state as it is, with nothing to do after the reply. -/
def OnlyAnswers (a : Answer) (s : State) : Prop := a.st = s ∧ a.post = id

@[simp] theorem onlyAnswers_ok (params : List Byte) (s : State) : OnlyAnswers (ok params s) s := ⟨rfl, rfl⟩
@[simp] theorem onlyAnswers_failWith (st : Status) (s : State) : OnlyAnswers (failWith st s) s := ⟨rfl, rfl⟩
@[simp] theorem onlyAnswers_badParam (off : Nat) (s : State) : OnlyAnswers (badParam off s) s := ⟨rfl, rfl⟩
@[simp] theorem onlyAnswers_badLength (s : State) : OnlyAnswers (badLength s) s := ⟨rfl, rfl⟩

/-! ### What a reply leaves -/

theorem State.pump_proto (fuel n : Nat) (s : State) : (State.pump fuel n s).proto = s.proto := by
  induction fuel generalizing s with
  | zero => rfl
  | succ k ih =>
    unfold State.pump
    dsimp only
    split
    · rfl
    · split
      · rfl
      · exact ih _

theorem State.sendMessage_proto (s : State) (via : Option Nat) (odd : Bool) (device mtype dport : Nat) (lsid tag : Byte)
    (seq : Word) (body : List Byte) : (s.sendMessage via odd device mtype dport lsid tag seq body).proto = s.proto := by
  unfold State.sendMessage
  split
  · rfl
  · split
    · exact State.pump_proto _ _ _
    · rfl

theorem State.sendPacket_master (s : State) (p : OutPacket) (m : MasterId) : (s.sendPacket p).master m = s.master m := by
  have hrecord : (s.sendPacket p).proto.host = s.proto.host ∧ (s.sendPacket p).proto.mgmt = s.proto.mgmt := by
    unfold State.sendPacket
    split
    · exact ⟨rfl, rfl⟩
    · exact ⟨rfl, rfl⟩
    · exact ⟨rfl, rfl⟩
    · rw [State.sendMessage_proto]
      exact ⟨rfl, rfl⟩
  cases m with
  | host => exact hrecord.1
  | mgmt => exact hrecord.2

theorem MasterId.other_ne (m : MasterId) : m.other ≠ m := by cases m <;> decide

theorem accepted_other (s : State) (h : Hdr) : (accepted s h).master h.iface.master.other = s.master h.iface.master.other :=
  State.mapMaster_of_ne s _ (MasterId.other_ne _)

theorem answered_other (op : Nat) (h : Hdr) (s : State) (st : Status) (context : Word) (rep : Bool) (params : List Byte) :
    (answered op h s st context rep params).master h.iface.master.other = s.master h.iface.master.other :=
  (State.sendPacket_master _ _ _).trans (State.mapMaster_of_ne s _ (MasterId.other_ne _))

/-- R358: a reply by another interface than a Selvage leaves the links. -/
theorem answered_links {h : Hdr} (hiface : h.iface ≠ .selvage) (op : Nat) (s : State) (st : Status) (context : Word) (rep : Bool)
    (params : List Byte) : (answered op h s st context rep params).links = s.links :=
  (State.sendPacket_links _ hiface).trans (State.mapMaster_links s _ _)

/-- R358: a command that only answers changes the protocol's record, what leaves the device and the links alone, and the record
of its own master alone. -/
theorem exec_of_onlyAnswers {i : Instr} {op : Nat} {h : Hdr} {ps : List Byte} {s : State} {run : List Byte → State → Answer}
    (takes : Takes s op h ps) (runs : exec i s = .next (s.command i op h ps false run))
    (reads : OnlyAnswers (run ps (accepted s h)) (accepted s h)) :
    ∃ t, exec i s = .next t ∧ OutputOnly s t ∧ (h.iface ≠ .selvage → t.links = s.links)
      ∧ t.master h.iface.master.other = s.master h.iface.master.other := by
  obtain ⟨hst, hpost⟩ := reads
  generalize ha : run ps (accepted s h) = a at hst hpost
  obtain ⟨st, params, context, rep, s', post⟩ := a
  obtain rfl : s' = accepted s h := hst
  obtain rfl : post = id := hpost
  refine ⟨_, exec_of_body takes runs ha, (OutputOnly.accepted s h).trans (OutputOnly.answered _ _ _ _ _ _ _), fun hne => ?_, ?_⟩
  · exact (answered_links hne _ _ _ _ _ _).trans (accepted_links s h)
  · exact (answered_other _ _ _ _ _ _ _).trans (accepted_other s h)

/-! ### The selectors of the forms -/

/-- A field of one byte is the byte. -/
theorem be_one (ps : List Byte) (off : Nat) : be ps off 1 = (ps.getD off 0).toNat := by
  have hfield : slice ps off 1 = (ps[off]?).toList := by
    cases hd : ps[off]? with
    | none => simp [slice, List.drop_eq_nil_of_le (List.getElem?_eq_none_iff.mp hd)]
    | some b =>
      obtain ⟨hlt, rfl⟩ := List.getElem?_eq_some_iff.mp hd
      rw [slice, List.drop_eq_getElem_cons hlt]
      rfl
  cases hd : ps[off]? with
  | none => simp [be, hfield, hd, beNat]
  | some b => simp [be, hfield, hd, beNat]

theorem selects_of_commandOk {i : Instr} {op : Nat} {h : Hdr} {ps : List Byte} (hp : packetOf i = some (op, h, ps))
    (hok : commandOk i = true) : instrOf op h ps = some i := by
  unfold commandOk at hok
  rw [hp] at hok
  exact of_decide_eq_true (Bool.and_eq_true_iff.mp hok).1

theorem sharesReadClient_selector {h : Hdr} {ps : List Byte} (hok : commandOk (.sharesReadClient h ps) = true) : be ps 0 1 = 1 := by
  have hrow : instrOf 0x0206 h ps = some (.sharesReadClient h ps) := selects_of_commandOk rfl hok
  rw [be_one]
  simp only [instrOf] at hrow
  grind

theorem schedConfigRead_selector {h : Hdr} {ps : List Byte} (hok : commandOk (.schedConfigRead h ps) = true) : be ps 0 1 = 3 := by
  have hrow : instrOf 0x0206 h ps = some (.schedConfigRead h ps) := selects_of_commandOk rfl hok
  rw [be_one]
  simp only [instrOf] at hrow
  grind

theorem portConfigRead_selector {h : Hdr} {ps : List Byte} (hok : commandOk (.portConfigRead h ps) = true) : be ps 1 1 = 1 := by
  have hrow : instrOf 0x0401 h ps = some (.portConfigRead h ps) := selects_of_commandOk rfl hok
  rw [be_one]
  simp only [instrOf] at hrow
  grind

theorem powerStateRead_selector {h : Hdr} {ps : List Byte} (hok : commandOk (.powerStateRead h ps) = true) : be ps 0 1 = 255 := by
  have hrow : instrOf 0x0601 h ps = some (.powerStateRead h ps) := selects_of_commandOk rfl hok
  rw [be_one]
  simp only [instrOf] at hrow
  grind

theorem domainCtrlRead_selector {h : Hdr} {ps : List Byte} (hok : commandOk (.domainCtrlRead h ps) = true) : be ps 0 1 = 2 := by
  have hrow : instrOf 0x0602 h ps = some (.domainCtrlRead h ps) := selects_of_commandOk rfl hok
  rw [be_one]
  simp only [instrOf] at hrow
  grind

theorem voltagePolicyRead_selector {h : Hdr} {ps : List Byte} (hok : commandOk (.voltagePolicyRead h ps) = true) : be ps 0 1 = 1 := by
  have hrow : instrOf 0x0604 h ps = some (.voltagePolicyRead h ps) := selects_of_commandOk rfl hok
  rw [be_one]
  simp only [instrOf] at hrow
  grind

theorem lifecycleRead_selector {h : Hdr} {ps : List Byte} (hok : commandOk (.lifecycleRead h ps) = true) : be ps 0 1 = 255 := by
  have hrow : instrOf 0x0703 h ps = some (.lifecycleRead h ps) := selects_of_commandOk rfl hok
  rw [be_one]
  simp only [instrOf] at hrow
  grind

theorem fwInstallRead_selector {h : Hdr} {ps : List Byte} (hok : commandOk (.fwInstallRead h ps) = true) : be ps 0 1 = 3 := by
  have hrow : instrOf 0x0704 h ps = some (.fwInstallRead h ps) := selects_of_commandOk rfl hok
  rw [be_one]
  simp only [instrOf] at hrow
  grind

theorem powerCeilingRead_selector {h : Hdr} {ps : List Byte} (hok : commandOk (.powerCeilingRead h ps) = true) :
    be ps 0 2 = 0 := by
  have hrow : instrOf 0x0605 h ps = some (.powerCeilingRead h ps) := selects_of_commandOk rfl hok
  simp only [instrOf] at hrow
  grind

/-! ### The commands -/

section Reads
variable (h : Hdr) (ps : List Byte) (s : State)

theorem identifyBody_onlyAnswers : OnlyAnswers (identifyBody ps s) s := by unfold identifyBody; split <;> simp

theorem pingBody_onlyAnswers : OnlyAnswers (pingBody ps s) s := by unfold pingBody; split <;> simp

theorem statusBody_onlyAnswers : OnlyAnswers (statusBody ps s) s := by unfold statusBody; split <;> simp

theorem memReadBody_onlyAnswers : OnlyAnswers (memReadBody ps s) s := by
  unfold memReadBody
  split
  · simp
  · dsimp only
    split
    · simp
    · split
      · simp
      · split
        · simp
        · split <;> simp

theorem jobStatusBody_onlyAnswers : OnlyAnswers (jobStatusBody h ps s) s := by
  unfold jobStatusBody
  split
  · simp
  · split <;> simp

/-- R392: the OPs that read. -/
theorem sharesSetBody_onlyAnswers (hop : be ps 0 1 = 1 ∨ be ps 0 1 = 3) : OnlyAnswers (sharesSetBody ps s) s := by
  unfold sharesSetBody
  split
  · simp
  · dsimp only
    split
    · simp
    · rcases hop with hop | hop
      · simp [hop]
      · simp [hop]

theorem withStream_onlyAnswers {k : Stream → Answer} (hk : ∀ t, OnlyAnswers (k t) s) : OnlyAnswers (s.withStream h k) s := by
  unfold State.withStream
  split
  · exact hk _
  · split <;> simp

theorem streamStatusBody_onlyAnswers : OnlyAnswers (streamStatusBody h ps s) s := by
  unfold streamStatusBody
  split
  · simp
  · exact withStream_onlyAnswers h s fun t => by simp

/-- R410: the form that reads. -/
theorem portConfigBody_onlyAnswers (hop : be ps 1 1 = 1) : OnlyAnswers (portConfigBody ps s) s := by
  unfold portConfigBody
  simp only [hop, show ((1 : Nat) == 0) = false from rfl, Bool.false_eq_true, if_false]
  split
  · simp
  · split
    · simp
    · simp

theorem portStatusBody_onlyAnswers : OnlyAnswers (portStatusBody ps s) s := by
  unfold portStatusBody
  dsimp only
  split
  · simp
  · split
    · simp
    · split
      · simp
      · split <;> simp

theorem withIngress_onlyAnswers {k : Ingress → Answer} (hk : ∀ g, OnlyAnswers (k g) s) : OnlyAnswers (s.withIngress h k) s := by
  unfold State.withIngress
  split
  · exact hk _
  · split <;> simp

theorem cardStatsBody_onlyAnswers : OnlyAnswers (cardStatsBody h ps s) s := by
  unfold cardStatsBody
  split
  · simp
  · refine withIngress_onlyAnswers h s fun g => ?_
    dsimp only
    split
    · split <;> simp
    · split
      · simp
      · split <;> simp

/-- R418: STATE 0xFF. -/
theorem powerStateBody_onlyAnswers (hop : be ps 0 1 = 0xFF) : OnlyAnswers (powerStateBody h ps s) s := by
  unfold powerStateBody
  split
  · simp
  · split
    · simp
    · simp [hop]

/-- R420: the OP that reads. -/
theorem domainCtrlBody_onlyAnswers (hop : be ps 0 1 = 2) : OnlyAnswers (domainCtrlBody ps s) s := by
  unfold domainCtrlBody
  split
  · simp
  · dsimp only
    split
    · simp
    · simp [hop]

/-- R422: the OP that reads. -/
theorem voltagePolicyBody_onlyAnswers (hop : be ps 0 1 = 1) : OnlyAnswers (voltagePolicyBody ps s) s := by
  unfold voltagePolicyBody
  simp only [hop, show ((1 : Nat) == 0) = false from rfl, Bool.false_eq_true, if_false]
  split
  · simp
  · split
    · simp
    · simp

/-- R423: WATTS 0. -/
theorem powerCeilingBody_onlyAnswers (hop : be ps 0 2 = 0) : OnlyAnswers (powerCeilingBody ps s) s := by
  unfold powerCeilingBody
  split
  · simp
  · dsimp only
    split
    · simp
    · simp [hop]

/-- R424: TARGET 0xFF. -/
theorem lifecycleBody_onlyAnswers (hop : be ps 0 1 = 0xFF) : OnlyAnswers (lifecycleBody ps s) s := by
  unfold lifecycleBody
  simp only [hop, show ((0xFF : Nat) == 0xFF) = true from rfl, if_true]
  split
  · simp
  · split
    · simp
    · simp

theorem fwRead_onlyAnswers : OnlyAnswers (fwRead ps s) s := by
  unfold fwRead
  split
  · simp
  · split
    · simp
    · split <;> simp

/-- R425: OP 3. -/
theorem fwInstallBody_onlyAnswers (hop : be ps 0 1 = 3) : OnlyAnswers (fwInstallBody h ps s) s := by
  unfold fwInstallBody
  split
  · simp
  · rw [hop]
    exact fwRead_onlyAnswers ps s

theorem ringInfoBody_onlyAnswers : OnlyAnswers (ringInfoBody ps s) s := by unfold ringInfoBody; split <;> simp

theorem ringReadBody_onlyAnswers : OnlyAnswers (ringReadBody ps s) s := by
  unfold ringReadBody
  dsimp only
  split
  · simp
  · split <;> simp

theorem tableReadBody_onlyAnswers : OnlyAnswers (tableReadBody ps s) s := by
  unfold tableReadBody
  dsimp only
  split
  · simp
  · split
    · simp
    · split <;> simp

theorem settingsReadBody_onlyAnswers : OnlyAnswers (settingsReadBody ps s) s := by
  unfold settingsReadBody
  dsimp only
  split
  · simp
  · split <;> simp

end Reads

/-- R374: the form of a command that reads only answers. -/
theorem reads_onlyAnswers {op : Nat} {i : Instr} {h : Hdr} {ps : List Byte}
    (hread : (op, i) ∈ [(0x0002, Instr.identify h ps), (0x0003, .ping h ps), (0x0004, .status h ps), (0x0105, .memRead h ps),
      (0x0203, .jobStatus h ps), (0x0206, .sharesReadClient h ps), (0x0206, .schedConfigRead h ps),
      (0x0307, .streamStatus h ps), (0x0401, .portConfigRead h ps), (0x0404, .portStatus h ps), (0x0504, .cardStats h ps),
      (0x0601, .powerStateRead h ps), (0x0602, .domainCtrlRead h ps), (0x0604, .voltagePolicyRead h ps),
      (0x0605, .powerCeilingRead h ps), (0x0703, .lifecycleRead h ps), (0x0704, .fwInstallRead h ps),
      (0x0901, .ringInfo h ps), (0x0902, .ringRead h ps), (0x0A02, .tableRead h ps), (0x0A04, .settingsRead h ps)])
    (hok : commandOk i = true) :
    ∃ run : List Byte → State → Answer, (∀ s, exec i s = .next (s.command i op h ps false run)) ∧
      ∀ s, OnlyAnswers (run ps s) s := by
  simp only [List.mem_cons, List.not_mem_nil, or_false, Prod.mk.injEq] at hread
  rcases hread with ⟨rfl, rfl⟩ | ⟨rfl, rfl⟩ | ⟨rfl, rfl⟩ | ⟨rfl, rfl⟩ | ⟨rfl, rfl⟩ | ⟨rfl, rfl⟩ | ⟨rfl, rfl⟩ | ⟨rfl, rfl⟩ | ⟨rfl, rfl⟩
    | ⟨rfl, rfl⟩ | ⟨rfl, rfl⟩ | ⟨rfl, rfl⟩ | ⟨rfl, rfl⟩ | ⟨rfl, rfl⟩ | ⟨rfl, rfl⟩ | ⟨rfl, rfl⟩ | ⟨rfl, rfl⟩ | ⟨rfl, rfl⟩ | ⟨rfl, rfl⟩
    | ⟨rfl, rfl⟩ | ⟨rfl, rfl⟩
  · exact ⟨_, fun _ => rfl, identifyBody_onlyAnswers ps⟩
  · exact ⟨_, fun _ => rfl, pingBody_onlyAnswers ps⟩
  · exact ⟨_, fun _ => rfl, statusBody_onlyAnswers ps⟩
  · exact ⟨_, fun _ => rfl, memReadBody_onlyAnswers ps⟩
  · exact ⟨_, fun _ => rfl, jobStatusBody_onlyAnswers h ps⟩
  · exact ⟨_, fun _ => rfl, fun s => sharesSetBody_onlyAnswers ps s (.inl (sharesReadClient_selector hok))⟩
  · exact ⟨_, fun _ => rfl, fun s => sharesSetBody_onlyAnswers ps s (.inr (schedConfigRead_selector hok))⟩
  · exact ⟨_, fun _ => rfl, streamStatusBody_onlyAnswers h ps⟩
  · exact ⟨_, fun _ => rfl, fun s => portConfigBody_onlyAnswers ps s (portConfigRead_selector hok)⟩
  · exact ⟨_, fun _ => rfl, portStatusBody_onlyAnswers ps⟩
  · exact ⟨_, fun _ => rfl, cardStatsBody_onlyAnswers h ps⟩
  · exact ⟨_, fun _ => rfl, fun s => powerStateBody_onlyAnswers h ps s (powerStateRead_selector hok)⟩
  · exact ⟨_, fun _ => rfl, fun s => domainCtrlBody_onlyAnswers ps s (domainCtrlRead_selector hok)⟩
  · exact ⟨_, fun _ => rfl, fun s => voltagePolicyBody_onlyAnswers ps s (voltagePolicyRead_selector hok)⟩
  · exact ⟨_, fun _ => rfl, fun s => powerCeilingBody_onlyAnswers ps s (powerCeilingRead_selector hok)⟩
  · exact ⟨_, fun _ => rfl, fun s => lifecycleBody_onlyAnswers ps s (lifecycleRead_selector hok)⟩
  · exact ⟨_, fun _ => rfl, fun s => fwInstallBody_onlyAnswers h ps s (fwInstallRead_selector hok)⟩
  · exact ⟨_, fun _ => rfl, ringInfoBody_onlyAnswers ps⟩
  · exact ⟨_, fun _ => rfl, ringReadBody_onlyAnswers ps⟩
  · exact ⟨_, fun _ => rfl, tableReadBody_onlyAnswers ps⟩
  · exact ⟨_, fun _ => rfl, settingsReadBody_onlyAnswers ps⟩

/-- Settles O55: a command that reads only answers, and an answer changes the protocol's record, the output and the links alone. -/
theorem readCommandsChangeNothing : Obligations.ReadCommandsChangeNothing := by
  intro s h ps op i hread takes hok
  obtain ⟨run, hruns, hanswers⟩ := reads_onlyAnswers hread hok
  obtain ⟨t, hexec, hout, hlinks, hother⟩ := exec_of_onlyAnswers takes (hruns s) (hanswers _)
  exact ⟨t, hexec, hout.memory, hout.sched, hout.audio, hout.power, hout.bark, hout.flash, hout.live, hout.units, hout.recorder,
    hout.net, hout.pace, hout.pending, hout.free, hlinks, hother⟩

end Sys2Proof.Machine
end

section
/-!
PROOF. R349 to R357, R335: raw packets, fragments of commands and fragments of datagrams.
-/
namespace Sys2Proof.Machine

open Sys2Proof Sys2Proof.Safety

/-! ### Packets in step -/

/-- R351 to R357: a packet, fragment or not, is the Treadle's to judge now: its interface listens, the power state lets it run, it
waits behind none, it is for this device, and its sequence number is new and in step. -/
structure Arrives (s : State) (op : Nat) (h : Hdr) (ps : List Byte) (more : Bool) : Prop where
  ready : s.power.boot = .ready
  listens : s.listens h.iface = true
  awake : h.iface = .wakeBus → s.busWakes = false
  gate : s.gate op h ps = .run
  rooted : h.iface = .hostLink → s.links.device = none ∨ s.links.isRoot = true ∨ op = 0x0B01
  here : s.verdict op h = .execute
  notHeld : s.isHeld h = false
  noWait : s.mustWait op h more = false
  fresh : (s.master h.iface.master).classify h.seq = .fresh
  inStep : ((s.lastFragment op h).any fun last => h.seq != last + 1) = false
  known : opcodeKnown h op = true
  session : (s.master h.iface.master).session = true ∨ (1 ≤ op ∧ op ≤ 4)

theorem accepted_ready {s : State} (h : Hdr) (hb : s.power.boot = .ready) : (accepted s h).power.boot = .ready := by simpa

/-- R351: such a packet is judged on the accepted state, from the conflict on. -/
theorem State.command_of_arrives {s : State} {op : Nat} {h : Hdr} {ps : List Byte} {more : Bool} (ha : Arrives s op h ps more)
    (i : Instr) (run : List Byte → State → Answer) :
    s.command i op h ps more run = State.finish op h ((accepted s h).judged op h ps more run) := by
  have hwake : (h.iface == .wakeBus && s.power.boot == .ready && s.busWakes) = false := by
    by_cases e : h.iface = .wakeBus
    · simp [ha.awake e]
    · simp [e]
  have hroot : (h.iface == .hostLink && s.links.device.isSome && !s.links.isRoot && op != 0x0B01) = false := by
    by_cases e : h.iface = .hostLink
    · rcases ha.rooted e with e2 | e2 | e2 <;> simp [e2]
    · simp [e]
  have hsession : (!((accepted s h).master h.iface.master).session && !(decide (1 ≤ op) && decide (op ≤ 4))) = false := by
    rcases ha.session with e | e
    · simp [accepted, e]
    · simp [e.1, e.2]
  have hchecked : (accepted s h).checked op h ps more run = (accepted s h).judged op h ps more run := by
    simp only [State.checked, ha.known, hsession, accepted_ready h ha.ready]
    rfl
  simp only [State.command, ha.notHeld, hwake, ha.listens, ha.gate, ha.noWait, State.dispatch, State.route, hroot, ha.here,
    State.execute, State.sequenced, ha.fresh, ha.inStep, Bool.not_true, Bool.false_eq_true, if_false]
  exact congrArg (State.finish op h) hchecked

/-- R357: a fragment with MORE conflicts with none and only joins its assembly. -/
theorem State.judged_fragment (s : State) (op : Nat) (h : Hdr) (ps : List Byte) (run : List Byte → State → Answer) :
    s.judged op h ps true run = s.assemble op h ps true run := by
  simp [State.judged, Answer.leftFor]

theorem arrives_of_takes {s : State} {op : Nat} {h : Hdr} {ps : List Byte} {more : Bool} (takes : Takes s op h ps)
    (hwait : s.mustWait op h more = false) : Arrives s op h ps more := by
  obtain ⟨hb, hl, hw, hg, hr, hv, hh, -, hc, hf, -, hk, hs, -⟩ := takes
  exact ⟨hb, hl, hw, hg, hr, hv, hh, hwait, hc, by simp [hf], hk, hs⟩

/-! ### The state without a packet's assembly -/

section Ended
variable (s : State) (op : Nat) (h : Hdr)

theorem endAssembly_eq : ∃ p : Proto, s.endAssembly op h = { s with proto := p } := by
  unfold State.endAssembly
  cases h.iface.master <;> exact ⟨_, rfl⟩

/-- What does not read the protocol's record reads the same state. -/
theorem endAssembly_reads {α : Type} {f : State → α} (indifferent : ∀ (t : State) (p : Proto), f { t with proto := p } = f t) :
    f (s.endAssembly op h) = f s := by
  obtain ⟨p, hp⟩ := endAssembly_eq s op h
  rw [hp, indifferent]

@[simp] theorem endAssembly_power : (s.endAssembly op h).power = s.power := State.mapMaster_power s _ _
@[simp] theorem endAssembly_links : (s.endAssembly op h).links = s.links := State.mapMaster_links s _ _
@[simp] theorem endAssembly_pending : (s.endAssembly op h).pending = s.pending := State.mapMaster_pending s _ _
@[simp] theorem endAssembly_recorder : (s.endAssembly op h).recorder = s.recorder := State.mapMaster_recorder s _ _
@[simp] theorem endAssembly_fwQueue : (s.endAssembly op h).proto.fwQueue = s.proto.fwQueue := State.mapMaster_fwQueue s _ _
@[simp] theorem endAssembly_held : (s.endAssembly op h).proto.held = s.proto.held := State.mapMaster_held s _ _
@[simp] theorem endAssembly_doomed : (s.endAssembly op h).proto.doomed = s.proto.doomed := State.mapMaster_doomed s _ _
@[simp] theorem endAssembly_twins : (s.endAssembly op h).proto.twins = s.proto.twins := State.mapMaster_twins s _ _
@[simp] theorem endAssembly_busWakes : (s.endAssembly op h).busWakes = s.busWakes := by simp [State.busWakes]
@[simp] theorem endAssembly_isHeld (g : Hdr) : (s.endAssembly op h).isHeld g = s.isHeld g := by simp [State.isHeld]
@[simp] theorem endAssembly_verdict (o : Nat) (g : Hdr) : (s.endAssembly op h).verdict o g = s.verdict o g :=
  endAssembly_reads s op h (f := (·.verdict o g)) fun _ _ => rfl
@[simp] theorem endAssembly_gate (o : Nat) (g : Hdr) (ps : List Byte) : (s.endAssembly op h).gate o g ps = s.gate o g ps := by
  simp [State.gate]
@[simp] theorem endAssembly_entryWins (p : Nat × Hdr × List Byte) : (s.endAssembly op h).entryWins p = s.entryWins p := by
  simp [State.entryWins]
@[simp] theorem endAssembly_listens (i : Iface) : (s.endAssembly op h).listens i = s.listens i := by
  unfold State.endAssembly
  cases h.iface.master <;> rfl
@[simp] theorem endAssembly_mustWait (more : Bool) : (s.endAssembly op h).mustWait op h more = s.mustWait op h more := by
  simp [State.mustWait, State.interprets]
@[simp] theorem endAssembly_replyTo (st : Status) (context : Word) (rep : Bool) (params : List Byte) :
    (s.endAssembly op h).replyTo op h st context rep params = s.replyTo op h st context rep params :=
  endAssembly_reads s op h (f := (·.replyTo op h st context rep params)) fun _ _ => rfl

theorem endAssembly_master : (s.endAssembly op h).master h.iface.master = (s.master h.iface.master).endAssembly op h :=
  State.mapMaster_same s _ _

theorem assembly?_endAssembly (ms : MasterState) : (ms.endAssembly op h).assembly? op h = none := by
  simp only [MasterState.endAssembly, MasterState.assembly?, List.find?_filter, List.find?_eq_none]
  intro a _
  cases (a.opcode.toNat == op && a.context == h.context && a.hostTag == h.hostTag) <;> decide

/-- R357: with no fragment of a command in the queues, the last one is that of its open assembly. -/
theorem lastFragment_of_endAssembly {a : Assembly} (hopen : (s.master h.iface.master).assembly? op h = some a)
    (hnone : (s.endAssembly op h).lastFragment op h = none) (last : Word) (hlast : s.lastFragment op h = some last) :
    last = a.lastSeq := by
  unfold State.lastFragment at hnone hlast
  dsimp only at hlast
  simp only [endAssembly_pending, endAssembly_isHeld, endAssembly_fwQueue] at hnone
  split at hlast
  · next heq =>
    rw [heq] at hnone
    cases hnone
  · cases hlast
  · simpa [hopen, eq_comm] using hlast

end Ended

/-- R357: a packet that the block would take but for its open assembly, which it continues in step, arrives. -/
theorem arrives_of_takes_endAssembly {s : State} {op : Nat} {h : Hdr} {ps qs : List Byte} {more : Bool} {a : Assembly}
    (takes : Takes (s.endAssembly op h) op h qs) (hgate : s.gate op h ps = .run) (hwait : s.mustWait op h more = false)
    (hopen : (s.master h.iface.master).assembly? op h = some a) (hseq : h.seq = a.lastSeq + 1) : Arrives s op h ps more := by
  obtain ⟨hb, hl, hw, -, hr, hv, hh, -, hc, hf, -, hk, hs, -⟩ := takes
  simp only [endAssembly_power, endAssembly_listens, endAssembly_busWakes, endAssembly_links, endAssembly_verdict,
    endAssembly_isHeld, endAssembly_master] at hb hl hw hr hv hh hc hs
  refine ⟨hb, hl, hw, hgate, hr, hv, hh, hwait, hc, ?_, hk, hs⟩
  cases hlast : s.lastFragment op h with
  | none => rfl
  | some last => simp [lastFragment_of_endAssembly s op h hopen hf last hlast, hseq]

/-! ### Raw packets -/

/-- Settles O21: by the header, the later checks and the power state's gate. -/
theorem malformedPacketCompletes : Obligations.MalformedPacketCompletes := by
  intro s iface src bytes hlisten hwake huart
  have hawake : (iface == .wakeBus && s.power.boot == .ready && s.busWakes) = false := by
    by_cases e : iface = .wakeBus
    · simp [hwake e]
    · simp [e]
  have hquiet : (iface == .uart && s.uartBusy) = false := by
    by_cases e : iface = .uart
    · simp [huart e]
    · simp [e]
  have hexec : exec (.malformedPacket iface src bytes) s = .next (s.receiveRaw iface src bytes) := by
    change Host.Outcome.next _ = _
    rw [if_neg (ne_true_of_eq_false hawake)]
  refine ⟨fun hbad => ?_, fun hgood hroot => ?_⟩
  · simp [hexec, State.receiveRaw, hlisten, hquiet, hbad]
  · have hours : (iface == .hostLink && s.links.device.isSome && !s.links.isRoot && rawOpcode bytes != 0x0B01) = false := by
      by_cases e : iface = .hostLink
      · rcases hroot e with e2 | e2 | e2 <;> simp [e2]
      · simp [e]
    intro h op
    refine ⟨fun st params hfault => ?_, fun i hnone hi => ⟨fun hgate => ?_, fun hgate => ?_⟩⟩
    · rw [hexec]
      unfold State.receiveRaw
      simp only [hlisten, hquiet, hgood, hours, hfault, Bool.not_true, Bool.false_eq_true, if_false,
        State.rejectRaw]
      rw [← endAssembly_replyTo]
    · have hgate' : s.gate (rawOpcode bytes) (rawHdr iface src bytes) (rawParams bytes) = .run := hgate
      rw [hexec]
      unfold State.receiveRaw
      simp only [hlisten, hquiet, hgood, hours, hnone, hi, hgate', Bool.not_true, Bool.false_eq_true, if_false]
      rfl
    · have hgate' : s.gate (rawOpcode bytes) (rawHdr iface src bytes) (rawParams bytes) = .hold := hgate
      rw [hexec]
      unfold State.receiveRaw
      simp only [hlisten, hquiet, hgood, hours, hnone, hi, hgate', Bool.not_true, Bool.false_eq_true, if_false]
      rfl

/-! ### Fragments -/

/-- R357: a fragment with MORE is answered once its assembly holds it. -/
theorem fragment_replies {s s' : State} {op : Half} {h : Hdr} {ps : List Byte} (ha : Arrives s op.toNat h ps true)
    (hjoin : (accepted s h).assemble op.toNat h ps true (fun _ s => ok [] s) = ok [] s') :
    Replies (.fragmentReceived op h ps) op.toNat h s s' [] := by
  have hrun := State.command_of_arrives ha (.fragmentReceived op h ps) fun _ s => ok [] s
  rw [State.judged_fragment, hjoin] at hrun
  exact congrArg Host.Outcome.next hrun

theorem accepted_assembly? (s : State) (h : Hdr) (op : Nat) :
    ((accepted s h).master h.iface.master).assembly? op h = (s.master h.iface.master).assembly? op h := by
  simp [accepted]

theorem accepted_assemblies (s : State) (h : Hdr) :
    ((accepted s h).master h.iface.master).assemblies = (s.master h.iface.master).assemblies := by
  simp [accepted]

/-- Settles O22: a fragment in step is judged and joins its assembly; the clock alone ends one. -/
theorem fragmentsComplete : Obligations.FragmentsComplete := by
  intro s op h ps
  refine ⟨?opens, ?joins, ?expires⟩
  case opens =>
    intro takes hwait hsome hroom
    have hnone : (s.master h.iface.master).assembly? op.toNat h = none := takes.2.2.2.2.2.2.2.2.2.2.1
    refine fragment_replies (arrives_of_takes takes hwait) ?_
    simp [State.assemble, accepted_assembly?, hnone, hsome, accepted_assemblies, Nat.not_le.mpr hroom]
  case joins =>
    intro a takes hwait hopen hseq hsome hfew hdevice
    have hgate : s.gate op.toNat h ps = .run := by simpa using takes.2.2.2.1
    refine fragment_replies (arrives_of_takes_endAssembly takes hgate hwait hopen hseq) ?_
    simp [State.assemble, accepted_assembly?, hopen, hsome, Nat.not_le.mpr hfew, hdevice, Assembly.join]
  case expires =>
    intro m context hostTag
    dsimp only
    intro hold
    have hany : ((s.master m).assemblies.any fun a => a.opcode == op && a.context == context && a.hostTag == hostTag
        && a.expired s.recorder.windows) = true := List.any_eq_true.mpr hold
    change Host.Outcome.next _ = _
    rw [if_pos hany]
    rfl

/-! ### The last fragment -/

theorem State.joined_hdr (s : State) (q : Nat × Hdr × List Byte) : (s.joined q).2.1 = q.2.1 := by
  unfold State.joined
  split <;> rfl

/-- R357: the commands of the other master are joined with their own assemblies. -/
theorem joined_accepted_of_ne {s : State} {op : Nat} {h : Hdr} {q : Nat × Hdr × List Byte}
    (hne : q.2.1.iface.master ≠ h.iface.master) : (accepted s h).joined q = (s.endAssembly op h).joined q := by
  have hended : (s.endAssembly op h).master q.2.1.iface.master = s.master q.2.1.iface.master := State.mapMaster_of_ne s _ hne
  rw [accepted, State.joined_accept]
  simp only [State.joined, hended]

/-- R361: a command that neither conflicts with the others nor is identical to one, once its own assembly is out of account, does
neither with it. -/
theorem apart_of_endAssembly {s : State} {op : Nat} {h : Hdr} {ps : List Byte} {q : Nat × Hdr × List Byte}
    (hq : conflicting (op, h, ps) ((s.endAssembly op h).joined q) = false
      ∧ identical (op, h, ps) ((s.endAssembly op h).joined q) = false) :
    conflicting (op, h, ps) ((accepted s h).joined q) = false ∧ identical (op, h, ps) ((accepted s h).joined q) = false := by
  by_cases hsame : q.2.1.iface.master = h.iface.master
  · have hmaster : (h.iface.master != ((accepted s h).joined q).2.1.iface.master) = false := by
      rw [State.joined_hdr, hsame]
      exact bne_self_eq_false _
    constructor
    · simp only [conflicting, hmaster, Bool.false_and]
    · simp only [identical, hmaster, Bool.false_and]
  · rwa [joined_accepted_of_ne (op := op) hsame]

/-- Settles O23: the command is judged with its joined parameters, and its own part runs on them. -/
theorem lastFragmentRunsJoinedCommand : Obligations.LastFragmentRunsJoinedCommand := by
  intro s op h ps a i run takes hgate hopen hseq hsome hfew hdevice
  have hwait : s.mustWait op h false = false := by simpa using takes.2.2.2.2.2.2.2.1
  have harrives : Arrives s op h ps false := arrives_of_takes_endAssembly takes hgate hwait hopen hseq
  obtain ⟨-, -, -, -, -, -, -, -, -, -, -, -, -, hdoomed, htwin, hentry, hothers⟩ := takes
  have hjoined : (accepted s h).joined (op, h, ps) = (op, h, a.data ++ ps) := by
    simp [State.joined, accepted_assembly?, hopen]
  have hapart : ∀ q ∈ ((accepted s h).pending ++ (accepted s h).proto.fwQueue).filterMap packetOf,
      conflicting (op, h, a.data ++ ps) ((accepted s h).joined q) = false
        ∧ identical (op, h, a.data ++ ps) ((accepted s h).joined q) = false := fun q hm =>
    apart_of_endAssembly (hothers q (by simpa [accepted] using hm))
  have htwin' : (accepted s h).twin? h = none := by simpa [State.twin?, accepted] using htwin
  have hpass : (accepted s h).conflictCheck (op, h, a.data ++ ps) = .ok (accepted s h) :=
    State.conflictCheck_ok (by simpa [accepted] using hdoomed) (by simpa [State.entryWins] using hentry) fun q hm => (hapart q hm).1
  have hruns : (accepted s h).assemble op h ps false run = run (a.data ++ ps) ((accepted s h).endAssembly op h) := by
    simp [State.assemble, accepted_assembly?, hopen, hsome, Nat.not_le.mpr hfew, hdevice]
  have hleft := State.leftFor_none (run (a.data ++ ps) ((accepted s h).endAssembly op h)) fun q hm => (hapart q hm).2
  rw [State.command_of_arrives harrives]
  simp only [State.judged, hjoined, htwin', hpass, hruns, Bool.false_eq_true, if_false, hleft]

/-! ### IP reassembly -/

/-- R335: a fragment that joins a datagram without completing it. -/
theorem joinFrag_of_part {s : State} {a : IpAssembly} {f : IpFrag} (hfits : a.clashes f = false) (hpart : (a.join f).whole = none) :
    s.joinFrag a f = s.setIp f (some (a.join f)) := by
  simp [State.joinFrag, hfits, hpart]

/-- R335: the fragment that completes a datagram with a command packet. -/
theorem joinFrag_of_whole {s : State} {a : IpAssembly} {f : IpFrag} {d payload : List Byte} {port : Nat}
    (hfits : a.clashes f = false) (hwhole : (a.join f).whole = some d)
    (hpacket : s.datagramPacket (a.join f) d = some (port, payload)) :
    s.joinFrag a f = (s.setIp f none).receiveRaw .hostLink ⟨f.src, port⟩ payload := by
  have hsame : (s.setIp f none).datagramPacket (a.join f) d = s.datagramPacket (a.join f) d := rfl
  simp [State.joinFrag, hfits, hwhole, hsame, hpacket]

/-- Settles O24: by whether the fragment's datagram is there, and whether it is complete. -/
theorem ipReassemblyCompletes : Obligations.IpReassemblyCompletes := by
  intro s f hrecv hup
  have hexec : exec (.ipFragmentReceived f) s = .next (s.takeFrag f) := by
    change Host.Outcome.next (s.onLinkUp _) = _
    simp [State.onLinkUp, hrecv, hup]
  refine ⟨?joins, ?opens, ?completes, ?expires⟩
  case joins =>
    intro a ha hfits hpart
    simp [hexec, State.takeFrag, ha, joinFrag_of_part hfits hpart, State.setIp]
  case opens =>
    rintro fresh rfl hnew hroom hfits hpart
    have hnone : (s.proto.ip.find? fun a => a.has f) = none := List.find?_eq_none.mpr fun a ha => by simp [hnew a ha]
    have hkept : s.proto.ip.filter (fun b => !b.has f) = s.proto.ip :=
      List.filter_eq_self.mpr fun a ha => by simp [hnew a ha]
    rw [hexec]
    simp only [State.takeFrag, hnone, Nat.not_le.mpr hroom, if_false, joinFrag_of_part hfits hpart, State.setIp, hkept]
    rfl
  case completes =>
    intro a d port payload ha hfits hwhole hpacket
    simp [hexec, State.takeFrag, ha, joinFrag_of_whole hfits hwhole hpacket, State.setIp]
  case expires =>
    intro v6 src dst ident
    rfl

end Sys2Proof.Machine
end

section
/-!
PROOF. R327 to R334: the frames and the events of the host link.
-/
namespace Sys2Proof.Machine

open Sys2Proof Sys2Proof.Safety

/-! ### Frames -/

/-- R333, R334: the content of a frame on a link that carries packets. -/
theorem State.onLinkUp_of_up {s : State} (hrecv : s.linkReceives = true) (hup : s.hostLinkUp = true) (k : State → State) :
    s.onLinkUp k = k s := by
  simp [State.onLinkUp, hrecv, hup]

/-- R333: an association validates a frame whose check passes and whose packet number is not below its lowest. -/
theorem Net.validate_of_valid {n : Net} {t : SecTag} {a : RxAssociation}
    (ha : (n.rxSas.find? fun a => a.sci == t.sci && a.an == t.an) = some a) (hvalid : t.valid = true)
    (hpn : a.lowest.toNat ≤ t.pn.toNat) : n.validate t = { n with
      rxSas := n.rxSas.map fun b => if b.sci == t.sci && b.an == t.an then { b with lowest := t.pn + 1 } else b } := by
  simp [Net.validate, ha, hvalid, hpn]

theorem Net.validate_of_invalid {n : Net} {t : SecTag}
    (hbad : ∀ a, (n.rxSas.find? fun a => a.sci == t.sci && a.an == t.an) = some a →
      t.valid = false ∨ t.pn.toNat < a.lowest.toNat) :
    n.validate t = { n with macsecFail := satAdd n.macsecFail 1 } := by
  unfold Net.validate
  split
  · next a ha =>
    rcases hbad a ha with hvalid | hpn
    · simp [hvalid]
    · simp [Nat.not_le.mpr hpn]
  · rfl

/-- R327: a frame with the tag of another VLAN. -/
theorem foreignVlan_iff (f : FrameHead) (vlan : Nat) :
    (vlan != 0 && f.vlan.any fun v => v != vlan) = true ↔ vlan ≠ 0 ∧ ∃ v, f.vlan = some v ∧ v ≠ vlan := by
  cases f.vlan with
  | none => simp
  | some v => simp

section Head
variable {s : State} {f : FrameHead}

/-- R327, R330: the head of a frame that is taken, by its MACsec tag. -/
theorem State.takeHead_of_passed (hfull : f.full = false) (hpause : f.pause = false)
    (hshort : f.bytes ≤ fld s.net.config 47 34 + 22)
    (hours : ¬ (fld s.net.config 33 22 ≠ 0 ∧ ∃ v, f.vlan = some v ∧ v ≠ fld s.net.config 33 22)) :
    s.takeHead f = f.sec.elim (s.takeUnsecured f) fun t =>
      if fld s.net.config 15 14 == 0 then s.discard 1 else { s with net := s.net.validate t } := by
  have hpassed : (decide (fld s.net.config 47 34 + 22 < f.bytes)
      || (fld s.net.config 33 22 != 0 && f.vlan.any fun v => v != fld s.net.config 33 22)) = false := by
    rw [Bool.or_eq_false_iff]
    exact ⟨by simpa using hshort, Bool.eq_false_iff.mpr fun e => hours ((foreignVlan_iff f _).mp e)⟩
  unfold State.takeHead
  simp only [hfull, hpause, hpassed, Bool.false_eq_true, if_false]
  cases f.sec <;> rfl

theorem State.takeHead_of_untagged (hfull : f.full = false) (hpause : f.pause = false)
    (hshort : f.bytes ≤ fld s.net.config 47 34 + 22)
    (hours : ¬ (fld s.net.config 33 22 ≠ 0 ∧ ∃ v, f.vlan = some v ∧ v ≠ fld s.net.config 33 22)) (hsec : f.sec = none) :
    s.takeHead f = s.takeUnsecured f := by
  rw [State.takeHead_of_passed hfull hpause hshort hours, hsec]
  rfl

theorem State.takeHead_of_secTag {t : SecTag} (hfull : f.full = false) (hpause : f.pause = false)
    (hshort : f.bytes ≤ fld s.net.config 47 34 + 22)
    (hours : ¬ (fld s.net.config 33 22 ≠ 0 ∧ ∃ v, f.vlan = some v ∧ v ≠ fld s.net.config 33 22)) (hsec : f.sec = some t)
    (hmacsec : fld s.net.config 15 14 ≠ 0) : s.takeHead f = { s with net := s.net.validate t } := by
  rw [State.takeHead_of_passed hfull hpause hshort hours, hsec]
  exact if_neg (by simpa using hmacsec)

end Head

/-- Settles O25: by the kind of the frame, and of a head by the first check that it fails. -/
theorem hostFramesComplete : Obligations.HostFramesComplete := by
  intro s hrecv
  refine ⟨fun hup hawake => ?answers, fun hdown f hcontent => ?insecure, fun bytes k hawake hmacsec hready => ?eapol, fun f => ?head⟩
  case answers =>
    have hcontent : ∀ k : State → State, s.onLinkUp k = k s := State.onLinkUp_of_up hrecv hup
    have hdhcp : ∀ f, exec (.dhcpReply f) s = .next (s.configure f) := by
      intro f
      change Host.Outcome.next _ = _
      simp [hawake, hcontent]
    refine ⟨fun target ip mac hown => ?_, fun target ip mac hown => ?_, fun v6 dst src payload hown => ?_, ?_,
      fun addr gw pfx h9 h4 => ?_, fun h9 => ?_, fun prefix64 router h8 h32 => ?_⟩
    · change Host.Outcome.next (s.onLinkUp _) = _
      simp [hcontent, State.answerFrame, hown, State.emit]
    · change Host.Outcome.next (s.onLinkUp _) = _
      simp [hcontent, State.answerFrame, hown, State.emit]
    · change Host.Outcome.next (s.onLinkUp _) = _
      simp [hcontent, State.answerFrame, hown, hawake, State.emit]
    · change Host.Outcome.next (s.onLinkUp _) = _
      simp [hcontent, State.answerFrame, State.discard]
    · rw [hdhcp]
      simp only [State.configure, h9, h4]
      rfl
    · rw [hdhcp]
      simp only [State.configure, h9]
      rfl
    · rw [hdhcp]
      simp only [State.configure, h8, h32]
      rfl
  case insecure =>
    have hcounted : ∀ k : State → State, s.onLinkUp k = s.discard 1 := by
      intro k
      simp [State.onLinkUp, hrecv, hdown]
    cases f with
    | head x => exact absurd rfl (hcontent x)
    | arp target ip mac => exact congrArg _ (hcounted _)
    | ndp target ip mac => exact congrArg _ (hcounted _)
    | echo v6 dst src payload => exact congrArg _ (hcounted _)
    | other => exact congrArg _ (hcounted _)
  case eapol =>
    dsimp only
    intro hk hkey
    have hmade : (s.keyStore.cak[(Config.mka s.net.eapol bytes).1]?).any (fun k => !k.payload.isEmpty) = true := by simp [hk, hkey]
    have hruns : (s.power.boot == .ready && fld s.net.config 15 14 != 0
        && (s.keyStore.cak[(Config.mka s.net.eapol bytes).1]?).any fun k => !k.payload.isEmpty) = true := by
      simp only [hmade, hready, bne_iff_ne.mpr hmacsec]
      rfl
    change Host.Outcome.next _ = _
    simp only [hrecv, hawake, State.takeEapol, hruns]
    rfl
  case head =>
    have hexec : exec (.networkControlFrame (.head f)) s = .next (s.takeHead f) := by
      change Host.Outcome.next _ = _
      simp [hrecv]
    dsimp only
    rw [hexec]
    refine ⟨fun hfull => ?_, fun hfull hpause => ?_, fun hfull hpause => ⟨fun hbad => ?_, fun hshort hours =>
      ⟨fun hsec => ?_, fun hsec => ?_, fun t hsec => ?_⟩⟩⟩
    · simp [State.takeHead, hfull]
    · simp [State.takeHead, hfull, hpause]
    · have hdropped : (decide (fld s.net.config 47 34 + 22 < f.bytes)
          || (fld s.net.config 33 22 != 0 && f.vlan.any fun v => v != fld s.net.config 33 22)) = true := by
        rcases hbad with hlong | hforeign
        · simp [hlong]
        · simp [(foreignVlan_iff f _).mpr hforeign]
      unfold State.takeHead
      simp only [hfull, hpause, hdropped, Bool.false_eq_true, if_false, if_true]
      rfl
    · intro hmacsec heapol
      rw [State.takeHead_of_untagged hfull hpause hshort hours hsec]
      simp [State.takeUnsecured, hmacsec, heapol, State.discard]
    · intro hmacsec
      rw [State.takeHead_of_untagged hfull hpause hshort hours hsec]
      simp [State.takeUnsecured, hmacsec]
    · intro hmacsec
      rw [State.takeHead_of_secTag hfull hpause hshort hours hsec hmacsec]
      refine ⟨fun a ha => ⟨fun hvalid hpn => ?_, fun hbad => ?_⟩, fun hnone => ?_⟩
      · rw [Net.validate_of_valid ha hvalid hpn]
      · rw [Net.validate_of_invalid fun b hb => ?_]
        obtain rfl : a = b := Option.some.inj (ha.symm.trans hb)
        exact hbad
      · rw [Net.validate_of_invalid fun b hb => ?_]
        cases hnone.symm.trans hb

/-! ### The link -/

/-- The low bits of a register value as a value of their own. -/
theorem getLsbD_ofNat_fld {w n i : Nat} (v : BitVec w) (hi : i < n) :
    (BitVec.ofNat n (fld v (n - 1) 0)).getLsbD i = v.getLsbD i := by
  have hlow : fld v (n - 1) 0 = v.toNat % 2 ^ n := by
    simp [fld, bitsOf, Nat.sub_add_cancel (Nat.lt_of_le_of_lt (Nat.zero_le i) hi)]
  rw [BitVec.getLsbD_ofNat, hlow, Nat.testBit_mod_two_pow]
  simp [hi, BitVec.getLsbD]

/-- R328, R330: the terms of a link that ROLE forces. -/
theorem linkTerms_of_forced {config : DWord} {advertised : BitVec 3} {asked : BitVec 2} {offered : Bool} (hasked : asked ≠ 0)
    (hrole : fld config 11 10 ≠ 0) : linkTerms config advertised asked offered =
      (if config.getLsbD 2 then 3 else if config.getLsbD 1 then 2 else 1, decide (fld config 11 10 = 1)) := by
  have hbit : ∀ i < 3, (BitVec.ofNat 3 (fld config 2 0)).getLsbD i = config.getLsbD i := fun i hi => getLsbD_ofNat_fld config hi
  have hrole' : (fld config 11 10 == 1) = decide (fld config 11 10 = 1) := rfl
  unfold linkTerms topRate
  simp only [beq_eq_false_iff_ne.mpr hasked, bne_iff_ne.mpr hrole, hbit 2 (by decide), hbit 1 (by decide), hrole']
  cases config.getLsbD 2 <;> cases config.getLsbD 1 <;> rfl

/-- R328: the terms of a link that negotiates. -/
theorem linkTerms_of_negotiated {config : DWord} {advertised : BitVec 3} {asked : BitVec 2} {offered : Bool} (hasked : asked ≠ 0)
    (hrole : fld config 11 10 = 0) (hrate : advertised.getLsbD (asked.toNat - 1) = true) :
    linkTerms config advertised asked offered = (asked, offered) := by
  unfold linkTerms
  simp only [beq_eq_false_iff_ne.mpr hasked, hrole, hrate]
  rfl

section Up
variable {s : State} {rate : BitVec 2} (leader lpi : Bool)

/-- R328, R330: the host link with the terms of the rate that it takes. -/
def Net.upAt (n : Net) (rate : BitVec 2) (leader lpi : Bool) : Net :=
  { n.unsecure with rate := rate, leader := leader, lpi := lpi && n.config.getLsbD 12, trainFails := 0 }

theorem State.linkUpAt_of_down (hdown : s.net.rate = 0) (hne : rate ≠ 0) : s.linkUpAt rate leader lpi =
    ((((({ s with net := { s.net.upAt rate leader lpi with droppedDown := 0 } }).recordLink 0 rate).formV6).faultEvent .ok
      .hostLink 0 s.net.droppedDown [] []).drainEvents) := by
  have hold : ((0 : BitVec 2) == rate) = false := beq_eq_false_iff_ne.mpr (Ne.symm hne)
  have hwas : ((0 : BitVec 2) != 0) = false := rfl
  unfold State.linkUpAt
  simp only [hdown, hold, hwas, Bool.false_eq_true, if_false]
  rfl

theorem State.linkUpAt_of_up (hup : s.net.rate ≠ 0) (hchange : s.net.rate ≠ rate) : s.linkUpAt rate leader lpi =
    State.recordLink { s with net := { s.net.upAt rate leader lpi with linkDowns := satAdd s.net.linkDowns 1 } } s.net.rate
      rate := by
  unfold State.linkUpAt
  simp only [beq_eq_false_iff_ne.mpr hchange, beq_eq_false_iff_ne.mpr hup, bne_iff_ne.mpr hup, Bool.or_self, Bool.false_eq_true,
    if_false, if_true]
  rfl

end Up

/-- R328: what is advertised once the highest rate is given up, which the lowest is not. -/
def lessAdvertised (advertised : BitVec 3) : BitVec 3 :=
  let less := setBit advertised (topRate advertised) false
  if less == 0 then advertised else less

/-- Settles O26: the terms of the link are the rate and role that it comes up with; the others are the event's own cases. -/
theorem hostLinkEventsComplete : Obligations.HostLinkEventsComplete := by
  intro s hallowed
  have hstarted : s.started = true := by
    simp only [State.linkAllowed, Bool.and_eq_true] at hallowed
    exact hallowed.1.1
  refine ⟨fun asked rate offered leader lpi hasked hnegotiated hforced => ?up, fun hrate hon => ?down, fun hrate =>
    ⟨fun hfew => ?few, fun hthird hrole => ⟨lessAdvertised s.net.advertised, ?third, ?given⟩, ?readvertise⟩⟩
  case up =>
    have hterms : linkTerms s.net.config s.net.advertised asked offered = (rate, leader) ∧ rate ≠ 0 := by
      by_cases hrole : fld s.net.config 11 10 = 0
      · obtain ⟨rfl, rfl, hrate⟩ := hnegotiated hrole
        exact ⟨linkTerms_of_negotiated hasked hrole hrate, hasked⟩
      · obtain ⟨rfl, hrate⟩ := hforced hrole
        rw [linkTerms_of_forced hasked hrole]
        rcases hrate with ⟨rfl, h2⟩ | ⟨rfl, h2, h1⟩ | ⟨rfl, h2, h1⟩
        · rw [if_pos h2]
          exact ⟨rfl, by decide⟩
        · rw [if_neg (by simp only [h2, Bool.false_eq_true, not_false_eq_true]), if_pos h1]
          exact ⟨rfl, by decide⟩
        · rw [if_neg (by simp only [h2, Bool.false_eq_true, not_false_eq_true]),
            if_neg (by simp only [h1, Bool.false_eq_true, not_false_eq_true])]
          exact ⟨rfl, by decide⟩
    obtain ⟨hterms, hne⟩ := hterms
    have hexec : exec (.hostLinkUp asked offered lpi) s = .next (s.linkUpAt rate leader lpi) := by
      change Host.Outcome.next _ = _
      rw [hterms]
      exact congrArg _ (if_pos (by simpa [hallowed] using hne))
    rw [hexec]
    exact ⟨fun hdown => congrArg _ (State.linkUpAt_of_down leader lpi hdown hne),
      fun hup hchange => congrArg _ (State.linkUpAt_of_up leader lpi hup hchange)⟩
  case down =>
    change Host.Outcome.next _ = _
    simp only [hstarted, hon, State.linkLost, beq_eq_false_iff_ne.mpr hrate]
    rfl
  case few =>
    change Host.Outcome.next _ = _
    have hfails : s.net.trainFails + 1 < 3 := by omega
    simp [hallowed, hrate, hfails]
  case third =>
    change Host.Outcome.next _ = _
    simp [hallowed, hrate, hthird, hrole, lessAdvertised]
  case given =>
    refine ⟨fun e => ?_, fun e => ?_, fun e => ?_⟩
    · rw [e]
      decide
    · rw [e]
      decide
    · rw [e]
      decide
  case readvertise =>
    change Host.Outcome.next _ = _
    simp [hallowed, hrate]

end Sys2Proof.Machine
end


section
/-!
PROOF. Cards: a chosen card runs in a state where its context stands as it was chosen, a charge and the finding of ready
engines change its counts and passes alone; so a completed execute card leaves the results that its own part computed.
-/
namespace Sys2Proof.Machine

open Sys2Proof Sys2Proof.Safety

/-! ### A context whose passes or counts changed -/

/-- The same context but for its passes and blocked marks. -/
def Ctx.Passed (c d : Ctx) : Prop :=
  ∃ pf pe bf be, d = { c with passF := pf, passE := pe, blockedF := bf, blockedE := be }

/-- The same context but for its passes and for the counts of its waves, with `waves` more. -/
def Ctx.Charged (c d : Ctx) (waves : Nat) : Prop :=
  ∃ pf pe bf be sl rw rt sk ov, d = { c with
    passF := pf, passE := pe, blockedF := bf, blockedE := be, sliceWaves := sl, residentWaves := rw, replayTo := rt
    arch := { c.arch with waves := c.arch.waves + BitVec.ofNat 64 waves, sinceKnot := sk, overrun := ov } }

/-- Passes change after a charge. -/
theorem Ctx.Charged.passed {c d d' : Ctx} {waves : Nat} (h : c.Charged d waves) (hp : d.Passed d') : c.Charged d' waves := by
  obtain ⟨_, _, _, _, sl, rw, rt, sk, ov, rfl⟩ := h
  obtain ⟨pf, pe, bf, be, rfl⟩ := hp
  exact ⟨pf, pe, bf, be, sl, rw, rt, sk, ov, rfl⟩

/-- Setting passes changes passes alone. -/
theorem Ctx.foldl_setPass_passed (es : List Engine) (pass : Ctx → Engine → Nat) (blocked : Ctx → Engine → Bool) (c : Ctx) :
    c.Passed (es.foldl (fun c e => c.setPass e (pass c e) (blocked c e)) c) := by
  induction es generalizing c with
  | nil => exact ⟨_, _, _, _, rfl⟩
  | cons e es ih =>
    obtain ⟨pf, pe, bf, be, h⟩ := ih (c.setPass e (pass c e) (blocked c e))
    rw [List.foldl_cons, h]
    cases e <;> exact ⟨_, _, _, _, rfl⟩

/-- A found context is found changed. -/
theorem State.ctx?_mapCtx_found {s : State} {job : Word} {pos : Nat} {c : Ctx} (h : s.ctx? job pos = some c) {f : Ctx → Ctx}
    (hf : ∀ c, (f c).job = c.job ∧ (f c).position = c.position) : (s.mapCtx job pos f).ctx? job pos = some (f c) := by
  rw [State.ctx?_mapCtx s job pos hf, h, Option.map_some]

/-- R273: a charge leaves its context charged. -/
theorem State.ctx?_charge {s : State} {job : Word} {pos : Nat} {c : Ctx} (h : s.ctx? job pos = some c) (es : List Engine)
    (waves fixed : Nat) : ∃ d, (s.charge job pos es waves fixed).ctx? job pos = some d ∧ c.Charged d waves := by
  unfold State.charge
  dsimp only
  rw [State.ctx?_mapJob, h]
  dsimp only
  generalize waves * stride (State.ctxShare _ c) = step
  have passed := Ctx.foldl_setPass_passed es (fun d e => d.passOf e + step) fun d e => d.blockedOf e
  rw [State.ctx?_mapCtx]
  · rw [State.ctx?_mapJob, h]
    refine ⟨_, rfl, ?_⟩
    obtain ⟨pf, pe, bf, be, hp⟩ := passed c
    dsimp only
    rw [hp]
    exact ⟨pf, pe, bf, be, _, _, _, _, _, rfl⟩
  · intro d
    obtain ⟨pf, pe, bf, be, hp⟩ := passed d
    rw [hp]
    exact ⟨rfl, rfl⟩

/-- R274: what finding engines ready or blocked leaves of a context. -/
theorem PassesOnly.ctx?_passed {s t : State} (h : PassesOnly s t) {job : Word} {pos : Nat} {c : Ctx}
    (hc : s.ctx? job pos = some c) : ∃ d, t.ctx? job pos = some d ∧ c.Passed d := by
  obtain ⟨d, hd, e⟩ := (h.ctx? job pos).1 c hc
  exact ⟨d, hd, _, _, _, _, e⟩

/-- A change of passes alone leaves memory. -/
theorem PassesOnly.memory {s t : State} (h : PassesOnly s t) : t.memory = s.memory := by
  obtain ⟨_, rfl, _⟩ := h
  rfl

/-- A change of passes alone leaves the links. -/
theorem PassesOnly.links {s t : State} (h : PassesOnly s t) : t.links = s.links := by
  obtain ⟨_, rfl, _⟩ := h
  rfl

/-- A change of passes alone leaves the transfers. -/
theorem PassesOnly.transfers {s t : State} (h : PassesOnly s t) : t.sched.transfers = s.sched.transfers := by
  obtain ⟨_, rfl, _⟩ := h
  rfl

/-- A change of passes alone leaves what the Scale units run. -/
theorem PassesOnly.scale {s t : State} (h : PassesOnly s t) : t.sched.scale = s.sched.scale := by
  obtain ⟨_, rfl, _⟩ := h
  rfl

/-! ### The state that a chosen card runs in -/

/-- R427: a trace record changes memory and the trace alone. -/
theorem State.traceRecord_frame (s : State) (loom slot : Nat) (e : Engine) (index op : Nat) :
    ∃ m b, s.traceRecord loom slot e index op = { s with memory := m, bark := b } := by
  unfold State.traceRecord
  split
  · exact ⟨_, _, rfl⟩
  · split
    · exact ⟨_, _, rfl⟩
    · dsimp only
      split
      · rename_i l _
        cases l <;> exact ⟨_, _, rfl⟩
      · exact ⟨_, _, rfl⟩

/-- R427: tracing a card changes memory and the trace alone. -/
theorem State.traceCard_frame (s : State) (loom slot : Nat) (e : Engine) (c : Ctx) (card : Card) :
    ∃ m b, s.traceCard loom slot e c card = { s with memory := m, bark := b } := by
  unfold State.traceCard
  split
  · obtain ⟨m, b, h⟩ := s.traceRecord_frame loom slot .fetch c.arch.fetch.card 0x0A
    obtain ⟨m', b', h'⟩ := (s.traceRecord loom slot .fetch c.arch.fetch.card 0x0A).traceRecord_frame loom slot .execute
      c.arch.execute.card 0x0A
    exact ⟨m', b', by rw [h', h]⟩
  · exact s.traceRecord_frame loom slot e _ _

/-- R274, R427: a card runs in a state that differs from the refreshed one in memory and the trace alone. -/
theorem issued_frame (s : State) (loom slot : Nat) (e : Engine) (c : Ctx) (card : Card) :
    ∃ m b, issued s loom slot e c card = { s.refresh loom with memory := m, bark := b } := by
  unfold issued
  dsimp only
  split
  · exact ⟨_, _, rfl⟩
  · exact State.traceCard_frame _ loom slot e c card

/-- R93: the chosen context stands in the state that its card runs in. -/
theorem issued_ctx? {s : State} {loom slot : Nat} {e : Engine} {c : Ctx} {card : Card}
    (h : Chooses s loom slot e c card) : (issued s loom slot e c card).ctx? c.job c.position = some c := by
  obtain ⟨m, b, hi⟩ := issued_frame s loom slot e c card
  rw [hi]
  exact h.2.2.2.1

/-- R93, R273: what a chosen card leaves of its context is what its own part leaves, but for passes. -/
theorem leaves_of_card {s : State} {loom slot : Nat} {e : Engine} {c : Ctx} {card : Card} (h : Chooses s loom slot e c card)
    {k : Instr} {kind : Card → Bool} {run : State → Ctx → Card → State}
    (hexec : exec k s = .next (s.cardEvent loom slot e kind run)) (hk : kind card = true) {holds : State → Ctx → Prop} {d : Ctx}
    (hd : (run (issued s loom slot e c card) c card).ctx? c.job c.position = some d)
    (hh : ∀ t d', PassesOnly (run (issued s loom slot e c card) c card) t → d.Passed d' → holds t d') :
    Leaves k s c holds := by
  have hp := State.refresh_passes (run (issued s loom slot e c card) c card) loom
  obtain ⟨d', hd', pd⟩ := hp.ctx?_passed hd
  refine ⟨_, d', ?_, hd', hh _ d' hp pd⟩
  rw [hexec, State.cardEvent_of_chooses h hk]

/-! ### A completed execute card -/

/-- R101, R233: a context past its execute card, with the card's results, before its waves are charged. -/
def Ctx.takeResults (card : Card) (o : CardOut) (draw : DWord) (c : Ctx) : Ctx :=
  let arch := (c.arch.next .execute).signalled card
  { c with
    scratch := o.scratch, stripe := o.stripe
    arch := { arch with arithFlags := o.flags, execStep := arch.execStep + draw } }

/-- R101, R233, R273: a completed execute card takes its results and is charged its waves. -/
theorem State.finishExec_eq (s : State) (c : Ctx) (card : Card) (o : CardOut) :
    s.finishExec c card o = (s.mapCtx c.job c.position
      (Ctx.takeResults card o (if c.drawsExec card then 1 else 0))).charge c.job c.position [.execute]
        (s.wavesOf c .execute card) 0 := rfl

/-- R93, R101: a context charged after its results were taken has its card done. -/
theorem executeDone_of_charged {c d : Ctx} {card : Card} {o : CardOut} {waves : Nat}
    (h : (c.takeResults card o (if c.drawsExec card then 1 else 0)).Charged d waves) : ExecuteDone c d card o waves := by
  obtain ⟨pf, pe, bf, be, sl, rw, rt, sk, ov, rfl⟩ := h
  unfold ExecuteDone Ctx.takeResults Arch.signalled
  by_cases hs : sigOf card = true <;> simp [hs, Arch.next, Arch.mapEng, Arch.mapTokens]

/-- R93, R101, R273: an execute card with good extents whose own part succeeds completes with its results. -/
theorem leaves_executeDone {s : State} {loom slot : Nat} {c : Ctx} {card : Card} (h : Chooses s loom slot .execute c card)
    {k : Instr} {kind : Card → Bool} {run : Card → CardIn → Except Status CardOut}
    (hexec : exec k s = .next (s.cardEvent loom slot .execute kind (State.runExec run))) (hk : kind card = true)
    (hx : (issued s loom slot .execute c card).extentsOk c .execute card = true) {o : CardOut}
    (ho : run card ((issued s loom slot .execute c card).cardIn c) = .ok o) :
    Leaves k s c fun _ c' =>
      ExecuteDone c c' card o ((issued s loom slot .execute c card).wavesOf c .execute card) := by
  obtain ⟨d, hd, hc⟩ := State.ctx?_charge
    (State.ctx?_mapCtx_found (issued_ctx? h) (f := Ctx.takeResults card o (if c.drawsExec card then 1 else 0))
      fun _ => ⟨rfl, rfl⟩) [.execute] ((issued s loom slot .execute c card).wavesOf c .execute card) 0
  refine leaves_of_card h hexec hk (d := d) ?_ fun t d' _ hp => executeDone_of_charged (hc.passed hp)
  rw [State.runExec_ok hx ho, State.finishExec_eq]
  exact hd

/-- An opcode is recognised. -/
theorem isOp_of_eq {card : Card} {op : Nat} (h : opOf card = op) : isOp op card = true := by simp [isOp, h]

/-! ### The weft cards -/

/-- The elements of a computed row, each with its index. -/
theorem map_zipIdx_range {α β : Type} (n : Nat) (f : Nat → α) (g : α × Nat → β) :
    ((List.range n).map f).zipIdx.map g = (List.range n).map fun j => g (f j, j) := by
  apply List.ext_getElem <;> simp

/-- R143: what a VOP computes. -/
theorem runVop_eq {card : Card} (i : CardIn) (hop : opOf card = 0x18) :
    runVop card i = .ok (i.writeRows (lineOf i.ix (fld card 71 52)) (fld card 11 8) (fld card 7 6) (satOf card)
      ((List.range (fld card 51 40 + 1)).map fun r => (List.range (fld card 39 26 + 1)).map fun j =>
        vop (fld card 25 20)
          (elemAt i.t1 i.out.scratch (lineOf i.ix (fld card 111 92)) (fld card 19 16) (fld card 39 26 + 1) r j)
          (if 6 ≤ fld card 25 20 ∧ fld card 25 20 ≤ 9 then 0
          else if fld card 5 4 = 0 then
            elemAt i.t1 i.out.scratch (lineOf i.ix (fld card 91 72)) (fld card 15 12) (fld card 39 26 + 1) r j
          else if fld card 5 4 = 1 then elemAt i.t1 i.out.scratch (lineOf i.ix (fld card 91 72)) (fld card 15 12) 1 0 0
          else if fld card 5 4 = 2 then
            elemAt i.t1 i.out.scratch (lineOf i.ix (fld card 91 72)) (fld card 15 12) (fld card 51 40 + 1) 0 r
          else elemAt i.t1 i.out.scratch (lineOf i.ix (fld card 91 72)) (fld card 15 12) (fld card 39 26 + 1) 0 j))) := by
  have hround : roundOf card = fld card 7 6 := by simp [roundOf, hop]
  unfold runVop rowAt
  simp only [hround, map_zipIdx_range]
  refine congrArg (fun f => Except.ok (i.writeRows _ _ _ _ (List.map f _))) (funext fun r => ?_)
  refine congrArg (fun f => List.map f _) (funext fun j => congrArg (vop _ _) ?_)
  by_cases hu : 6 ≤ fld card 25 20 ∧ fld card 25 20 ≤ 9
  · simp [hu]
  · simp only [hu, ← Bool.decide_and, decide_false, if_false, Bool.false_eq_true]
    split <;> simp_all

/-- R146: what a CURVE computes. -/
theorem runCurve_eq {card : Card} (i : CardIn) (hop : opOf card = 0x19) :
    runCurve card i = .ok (i.writeRows (lineOf i.ix (fld card 91 72)) (fld card 35 32) (fld card 31 30) (satOf card)
      ((List.range (fld card 71 60 + 1)).map fun r => (List.range (fld card 59 46 + 1)).map fun j =>
        curveEval (curveOf (nth i.t2 (fld card 45 40) []))
          (elemAt i.t1 i.out.scratch (lineOf i.ix (fld card 111 92)) (fld card 39 36) (fld card 59 46 + 1) r j))) := by
  have hround : roundOf card = fld card 31 30 := by simp [roundOf, hop]
  simp [runCurve, rowAt, hround, Function.comp_def]

/-- R144: what a REDUCE computes. -/
theorem runReduce_eq {card : Card} (i : CardIn) (hop : opOf card = 0x1A) :
    runReduce card i = .ok (i.writeRows (lineOf i.ix (fld card 91 72)) (fld card 38 35) (fld card 34 33) (satOf card)
      [(List.range (fld card 71 60 + 1)).map fun r => reduceRow (fld card 45 43)
        (rowAt i.t1 i.out.scratch (lineOf i.ix (fld card 111 92)) (fld card 42 39) (fld card 59 46 + 1) r)]) := by
  have hround : roundOf card = fld card 34 33 := by simp [roundOf, hop]
  rw [← hround]
  rfl

/-- R145: what a NORM computes. -/
theorem runNorm_eq {card : Card} (i : CardIn) (hop : opOf card = 0x1B) :
    runNorm card i = .ok (i.writeRows (lineOf i.ix (fld card 71 52)) (fld card 14 11) (fld card 10 9) (satOf card)
      ((List.range (fld card 51 40 + 1)).map fun r =>
        normRow (card.getLsbD 25) (BitVec.ofNat 32 ((123 - fld card 8 4) * 2 ^ 23))
          (if 0 < fld card 24 23 then
            some (rowAt i.t1 i.out.scratch (lineOf i.ix (fld card 91 72)) (fld card 18 15) (fld card 39 26 + 1) 0) else none)
          (if 1 < fld card 24 23 then
            some (rowAt i.t1 i.out.scratch (lineOf i.ix (fld card 91 72)) (fld card 18 15) (fld card 39 26 + 1) 1) else none)
          (rowAt i.t1 i.out.scratch (lineOf i.ix (fld card 111 92)) (fld card 22 19) (fld card 39 26 + 1) r))) := by
  have hround : roundOf card = fld card 10 9 := by simp [roundOf, hop]
  rw [← hround]
  rfl

/-- R234: what a GRAIN fill computes. -/
theorem runGrainFill_eq {card : Card} (i : CardIn) (hop : opOf card = 0x38) :
    runGrainFill card i = .ok (i.writeRows (lineOf i.ix (fld card 111 92)) (fld card 62 59) (fld card 58 57) (satOf card)
      ((List.range (fld card 91 80 + 1)).map fun r => (List.range (fld card 79 66 + 1)).map fun j =>
        grainValue card i.key i.step
          ((lineOf i.ix (fld card 56 53 * 65536) + r * (fld card 79 66 + 1) + j) % 2 ^ 32))) := by
  have hround : roundOf card = fld card 58 57 := by simp [roundOf, hop]
  rw [← hround]
  rfl

/-- Settles O27: each weft card with legal extents completes, and its own part computes the named rows. -/
theorem weftCardsComplete : Obligations.WeftCardsComplete := by
  unfold Obligations.WeftCardsComplete
  intro s loom slot c card h
  dsimp only
  intro hx
  refine ⟨?vop, ?curve, ?reduce, ?norm, ?grain⟩
  case vop => exact fun hop => leaves_executeDone h rfl (isOp_of_eq hop) hx (runVop_eq _ hop)
  case curve => exact fun hop => leaves_executeDone h rfl (isOp_of_eq hop) hx (runCurve_eq _ hop)
  case reduce => exact fun hop => leaves_executeDone h rfl (isOp_of_eq hop) hx (runReduce_eq _ hop)
  case norm => exact fun hop => leaves_executeDone h rfl (isOp_of_eq hop) hx (runNorm_eq _ hop)
  case grain =>
    exact fun hop hm => leaves_executeDone h rfl (by simp [isOp_of_eq hop, hm]) hx (runGrainFill_eq _ hop)

/-! ### The checked cards -/

/-- R138: what an MMA or MMA_G whose zero points are in range computes. -/
theorem runMma_ok (grouped : Bool) {card : Card} (i : CardIn)
    (hz : ∀ r < mmaM card, zeroPointOk (fld card 26 23) (zeroPoint i.out.scratch (lineOf i.ix (fld card 111 92)
      + mmaM card * rowLines i.t1 (fld card 26 23) (mmaK card)) (fld card 7 6) (card.getLsbD 5) (mmaM card) r) = true) :
    runMma grouped card i = .ok (i.writeRows (lineOf i.ix (fld card 71 52)) (fld card 18 15) (roundOf card) (satOf card)
      ((List.range (mmaM card)).map fun r => (List.range (mmaN card)).map fun col =>
        mmaElement (if grouped then groupOf (fld card 10 9) else 32) (card.getLsbD 11)
          ((List.range (mmaK card)).map fun k =>
            (actValue (fmtAt i.t1 (fld card 26 23)) (zeroPoint i.out.scratch (lineOf i.ix (fld card 111 92)
                + mmaM card * rowLines i.t1 (fld card 26 23) (mmaK card)) (fld card 7 6) (card.getLsbD 5) (mmaM card) r)
              (codeAt i.out.scratch (lineOf i.ix (fld card 111 92) + r * rowLines i.t1 (fld card 26 23) (mmaK card))
                (containerOf i.t1 (fld card 26 23)) k),
             value (fmtAt i.t1 (fld card 22 19)) (weightAt i.t1 i.out.scratch (lineOf i.ix (fld card 91 72))
               (tileShape (operandClass i.t1 (fld card 26 23) (fld card 22 19))) (fld card 22 19) (mmaK card) k col)))
          (fun gi => if grouped then
            elemAt i.t1 i.out.scratch (lineOf i.ix (fld card 91 72)
              + tilesOf (tileShape (operandClass i.t1 (fld card 26 23) (fld card 22 19))) (mmaK card) (mmaN card)
                * tileLines i.t1 (tileShape (operandClass i.t1 (fld card 26 23) (fld card 22 19))) (fld card 22 19))
              (if card.getLsbD 8 then 5 else 0xC) (mmaN card) gi col else one32)
          (actScale i.out.scratch (lineOf i.ix (fld card 111 92)
            + mmaM card * rowLines i.t1 (fld card 26 23) (mmaK card)) (fld card 7 6) r)
          (if card.getLsbD 12 then
            some (elemAt i.t1 i.out.scratch (lineOf i.ix (fld card 4 1 * 65536)) (fld card 18 15) (mmaN card) r col)
            else none))) := by
  unfold runMma
  dsimp only
  rw [if_neg]
  simpa using hz

/-- R155: a SCAN whose descriptor and extents are legal computes its results. -/
theorem runScan_ok {card : Card} {i : CardIn}
    (hd : scanDescOk (i.out.scratch.read (64 * lineOf i.ix (fld card 51 32)) 64) = true)
    (hin : ∀ e ∈ scanExtents i.t1 i.ix card (i.out.scratch.read (64 * lineOf i.ix (fld card 51 32)) 64),
      e.inside i.ways i.units = true)
    (hno : noOverlap (scanExtents i.t1 i.ix card (i.out.scratch.read (64 * lineOf i.ix (fld card 51 32)) 64)) = true) :
    ∃ o, runScan card i = .ok o := by
  unfold runScan
  dsimp only
  rw [if_neg]
  · exact ⟨_, rfl⟩
  · rw [hd, hno, List.all_eq_true.2 hin]
    decide

/-- R166: a CONV whose descriptor is legal computes its results. -/
theorem runConv_ok {card : Card} {i : CardIn}
    (h : convOk i.t1 i.ways i.units i.ix card (convDesc (i.out.scratch.read (64 * lineOf i.ix (fld card 51 32)) 64)) = true) :
    ∃ o, runConv card i = .ok o := by
  unfold runConv
  dsimp only
  rw [h, if_neg (by decide)]
  split
  · exact ⟨_, rfl⟩
  · exact ⟨_, rfl⟩

/-- R194: what a WIDEN whose scale record agrees with it computes. -/
theorem runWiden_ok {card : Card} {i : CardIn} (hop : opOf card = 0x32) {rec_ : List Byte}
    (hr : rec_ = i.out.scratch.read (64 * lineOf i.ix (fld card 91 72))
      (16 + 8 * (fld card 39 28 + 1) + ceilDiv (fld card 39 28 + 1) 8))
    (hch : le rec_ 4 2 = fld card 39 28 + 1) (hrows : le rec_ 6 2 = fld card 51 40 + 1) (hfn : le rec_ 1 1 = fld card 27 24)
    (hmode : le rec_ 2 1 < 2) (hf : le rec_ 2 1 = 1 → fld card 27 24 < 3) :
    runWiden card i = .ok (i.writeRows (lineOf i.ix (fld card 71 52)) (fld card 23 20) (fld card 19 18) (satOf card)
      ((List.range (fld card 51 40 + 1)).map fun t => (List.range (fld card 39 28 + 1)).map fun k =>
        widenValue (fld card 27 24) (codeAt i.out.scratch
            (lineOf i.ix (fld card 111 92) + t * rowLines i.t1 (fld card 27 24) (fld card 39 28 + 1))
            (containerOf i.t1 (fld card 27 24)) k)
          (recordConst rec_ (fld card 39 28 + 1) k) (le32 rec_ (16 + 8 * k)) (le32 rec_ (20 + 8 * k))
          (le rec_ 2 1 == 1))) := by
  have hround : roundOf card = fld card 19 18 := by simp [roundOf, hop]
  unfold runWiden
  dsimp only
  rw [← hr, if_neg, hround]
  · rfl
  · simp [hch, hrows, hfn, hmode]
    exact hf

/-- R237 to R239: what a GSAMPLE whose row records are legal computes. -/
theorem runGsample_ok {card : Card} {i : CardIn}
    (h : ∀ r < fld card 51 44 + 1,
      rowRecordOk (i.out.scratch.read (64 * lineOf i.ix (fld card 91 72) + 32 * r) 32) = true) :
    runGsample card i = .ok { i.out with
      scratch := i.out.scratch.write (64 * lineOf i.ix (fld card 71 52)) (packRow 32
        (((List.range (fld card 51 44 + 1)).map fun r => gsampleRow
          (rowAt i.t1 i.out.scratch (lineOf i.ix (fld card 111 92)) (fld card 25 22) (fld card 43 26 + 1) r)
          (rowRecord (i.out.scratch.read (64 * lineOf i.ix (fld card 91 72) + 32 * r) 32)) i.key 2).map (·.1)))
      flags := raiseAll i.out.flags (((List.range (fld card 51 44 + 1)).map fun r => gsampleRow
          (rowAt i.t1 i.out.scratch (lineOf i.ix (fld card 111 92)) (fld card 25 22) (fld card 43 26 + 1) r)
          (rowRecord (i.out.scratch.read (64 * lineOf i.ix (fld card 91 72) + 32 * r) 32)) i.key 2).map (·.2)) } := by
  unfold runGsample
  dsimp only
  rw [if_neg]
  simpa using h

/-- Settles O28: each checked card whose own checks pass completes with what its own part computes. -/
theorem checkedCardsComplete : Obligations.CheckedCardsComplete := by
  unfold Obligations.CheckedCardsComplete
  intro s loom slot c card h
  dsimp only
  intro hx
  refine ⟨?mma, ?scan, ?conv, ?widen, ?gsample⟩
  case mma =>
    rintro hop hz
    have hround : roundOf card = fld card 14 13 := by rcases hop with h | h <;> simp [roundOf, h]
    have run := fun grouped => runMma_ok grouped ((issued s loom slot .execute c card).cardIn c) hz
    simp only [hround] at run
    rcases hop with hop | hop
    · rw [hop]
      exact leaves_executeDone h rfl (isOp_of_eq hop) hx (run false)
    · rw [hop]
      exact leaves_executeDone h rfl (isOp_of_eq hop) hx (run true)
  case scan =>
    intro hop hd hin hno
    obtain ⟨o, ho⟩ := runScan_ok (i := (issued s loom slot .execute c card).cardIn c) hd hin hno
    exact ⟨o, ho, leaves_executeDone h rfl (isOp_of_eq hop) hx ho⟩
  case conv =>
    intro hop hc
    obtain ⟨o, ho⟩ := runConv_ok (i := (issued s loom slot .execute c card).cardIn c) hc
    exact ⟨o, ho, leaves_executeDone h rfl (isOp_of_eq hop) hx ho⟩
  case widen =>
    exact fun hop hch hrows hfn hmode hf =>
      leaves_executeDone h rfl (isOp_of_eq hop) hx (runWiden_ok hop rfl hch hrows hfn hmode hf)
  case gsample => exact fun hop hr => leaves_executeDone h rfl (isOp_of_eq hop) hx (runGsample_ok hr)

end Sys2Proof.Machine
end


section
/-!
PROOF. What the end of a job leaves of jobs and contexts: the job's own contexts go and the others stay, every other job is found
as it was, and the job itself is Ready with its status, or in no table.
-/
namespace Sys2Proof.Machine

open Sys2Proof Sys2Proof.Safety

/-! ### Jobs and contexts kept -/

/-- Two states with the same jobs and contexts. -/
def JobsKept (s t : State) : Prop := t.sched.jobs = s.sched.jobs ∧ t.sched.ctxs = s.sched.ctxs

theorem JobsKept.job? {s t : State} (h : JobsKept s t) (id : Word) : t.job? id = s.job? id := by
  unfold State.job?
  rw [h.1]

theorem JobsKept.ctx? {s t : State} (h : JobsKept s t) (job : Word) (pos : Nat) : t.ctx? job pos = s.ctx? job pos := by
  unfold State.ctx?
  rw [h.2]

theorem JobsKept.trans {s t u : State} (h1 : JobsKept s t) (h2 : JobsKept t u) : JobsKept s u :=
  ⟨h2.1.trans h1.1, h2.2.trans h1.2⟩

/-- What leaves the device changes no job or context. -/
theorem JobsKept.of_output {s t : State} (h : OutputOnly s t) : JobsKept s t := by
  rw [h]
  exact ⟨rfl, rfl⟩

/-- Freed blocks change no job or context. -/
theorem JobsKept.freeBlocks (s : State) (bs : List (Nat × Nat)) : JobsKept s (s.freeBlocks bs) := by
  unfold State.freeBlocks
  induction bs generalizing s with
  | nil => exact ⟨rfl, rfl⟩
  | cons b bs ih => exact JobsKept.trans (t := s.freeBlock b) ⟨rfl, rfl⟩ (ih _)

/-- R313: leaving bindings changes no job or context. -/
theorem JobsKept.leaveBindings (s : State) (job : Word) : JobsKept s (s.leaveBindings job) := by
  unfold State.leaveBindings
  exact JobsKept.trans (t := { s with links := { s.links with bindings := s.links.bindings.map fun b => b.leftBy s.deviceNo job } })
    ⟨rfl, rfl⟩ (JobsKept.of_output (OutputOnly.foldl (fun s b => OutputOnly.tellLeft s b _) _ _))

/-- R269: tagging dents changes no job or context. -/
theorem JobsKept.tagDentsOf (s : State) (j : Job) : JobsKept s (if j.started then j.alt.elim s s.tagDents else s) := by
  split
  · cases j.alt <;> exact ⟨rfl, rfl⟩
  · exact ⟨rfl, rfl⟩

/-! ### Contexts dropped -/

/-- R112: the contexts after one is dropped. -/
theorem State.ctxs_dropCtx (s : State) (job : Word) (pos : Nat) :
    (s.dropCtx job pos).sched.ctxs = s.sched.ctxs.filter fun x => !(x.job == job && x.position == pos) := by
  unfold State.dropCtx
  split
  · next h =>
    refine (List.filter_eq_self.2 fun x hx => ?_).symm
    simpa [imp_iff_not_or] using List.find?_eq_none.1 h x hx
  · next c _ => exact congrArg (List.filter _) (JobsKept.freeBlocks s c.allBlocks).2

/-- R112: dropping a context leaves none of its job and position. -/
theorem State.ctx?_dropCtx (s : State) (job : Word) (pos : Nat) : (s.dropCtx job pos).ctx? job pos = none := by
  unfold State.ctx?
  rw [State.ctxs_dropCtx, List.find?_eq_none]
  intro x hx
  simpa [imp_iff_not_or] using (List.mem_filter.1 hx).2

/-- The contexts of a job gone, one after the other. -/
theorem State.ctxs_foldl_dropCtx (job : Word) (ps : List Nat) (s : State) :
    (ps.foldl (fun s p => s.dropCtx job p) s).sched.ctxs
      = s.sched.ctxs.filter fun x => !(x.job == job && ps.contains x.position) := by
  induction ps generalizing s with
  | nil => simp
  | cons p ps ih =>
    rw [List.foldl_cons, ih, State.ctxs_dropCtx, List.filter_filter]
    refine List.filter_congr fun x _ => ?_
    rw [List.contains_cons]
    cases x.job == job <;> cases x.position == p <;> simp

/-- R112: the contexts after those of a job are dropped. -/
theorem State.ctxs_dropCtxs (s : State) (job : Word) :
    (s.dropCtxs job).sched.ctxs = s.sched.ctxs.filter fun x => x.job != job := by
  unfold State.dropCtxs
  dsimp only
  rw [State.ctxs_foldl_dropCtx]
  refine List.filter_congr fun x hx => ?_
  by_cases hj : x.job = job
  · have hmem : x.position ∈ (s.sched.ctxs.filter fun c => c.job == job).map (·.position) :=
      List.mem_map_of_mem (List.mem_filter.2 ⟨hx, by simpa using hj⟩)
    simp only [List.contains_iff_mem.2 hmem, hj, BEq.rfl, Bool.and_true, Bool.not_true, bne_self_eq_false]
  · have hb : (x.job == job) = false := by simpa using hj
    simp [bne, hb]

/-- R112: a job that keeps the flags of a context that goes. -/
def Job.keepFlags (c : Ctx) (pos : Nat) (j : Job) : Job :=
  { j with positions := j.positions.modify pos fun p => { p with arith := mergeFlags p.arith c.arch.arithFlags } }

/-- R112: the jobs after a context is dropped. -/
theorem State.jobs_dropCtx {s : State} {job : Word} {pos : Nat} {c : Ctx} (h : s.ctx? job pos = some c) (id : Word) :
    (s.dropCtx job pos).job? id = ((s.freeBlocks c.allBlocks).mapJob job (Job.keepFlags c pos)).job? id := by
  unfold State.dropCtx
  rw [h]
  rfl

/-- R112: a dropped context keeps its job's flags alone. -/
theorem State.job?_dropCtx {s : State} {id : Word} {j : Job} (h : s.job? id = some j) (job : Word) (pos : Nat) :
    ∃ ps, (s.dropCtx job pos).job? id = some { j with positions := ps } := by
  cases hc : s.ctx? job pos with
  | none => exact ⟨j.positions, by simpa [State.dropCtx, hc] using h⟩
  | some c =>
    have hk : (s.freeBlocks c.allBlocks).job? id = some j := by rw [(JobsKept.freeBlocks s c.allBlocks).job?, h]
    rw [State.jobs_dropCtx hc]
    by_cases hid : id = job
    · subst hid
      rw [State.job?_mapJob (f := Job.keepFlags c pos) _ id fun _ => rfl, hk]
      exact ⟨_, rfl⟩
    · rw [State.job?_mapJob_of_ne (f := Job.keepFlags c pos) _ (fun _ => rfl) hid, hk]
      exact ⟨j.positions, rfl⟩

/-- R112: a dropped context leaves every other job. -/
theorem State.job?_dropCtx_of_ne (s : State) {id job : Word} (ne : id ≠ job) (pos : Nat) :
    (s.dropCtx job pos).job? id = s.job? id := by
  cases hc : s.ctx? job pos with
  | none => simp [State.dropCtx, hc]
  | some c =>
    rw [State.jobs_dropCtx hc, State.job?_mapJob_of_ne (f := Job.keepFlags c pos) _ (fun _ => rfl) ne,
      (JobsKept.freeBlocks s c.allBlocks).job?]

/-- R112: the contexts of a job dropped keep the job's flags alone. -/
theorem State.job?_dropCtxs {s : State} {id : Word} {j : Job} (h : s.job? id = some j) (job : Word) :
    ∃ ps, (s.dropCtxs job).job? id = some { j with positions := ps } := by
  unfold State.dropCtxs
  dsimp only
  generalize (s.sched.ctxs.filter fun c => c.job == job).map (·.position) = l
  suffices ∀ (l : List Nat) (s : State) (j : Job), s.job? id = some j →
      ∃ ps, (l.foldl (fun s p => s.dropCtx job p) s).job? id = some { j with positions := ps } from this l s j h
  intro l
  induction l with
  | nil => exact fun s j h => ⟨j.positions, h⟩
  | cons p l ih =>
    intro s j h
    obtain ⟨ps, hps⟩ := State.job?_dropCtx h job p
    exact ih (s.dropCtx job p) { j with positions := ps } hps

/-- R112: the contexts of a job dropped leave every other job. -/
theorem State.job?_dropCtxs_of_ne (s : State) {id job : Word} (ne : id ≠ job) : (s.dropCtxs job).job? id = s.job? id := by
  unfold State.dropCtxs
  dsimp only
  generalize (s.sched.ctxs.filter fun c => c.job == job).map (·.position) = l
  suffices ∀ (l : List Nat) (s : State), (l.foldl (fun s p => s.dropCtx job p) s).job? id = s.job? id from this l s
  intro l
  induction l with
  | nil => exact fun _ => rfl
  | cons p l ih => exact fun s => (ih _).trans (State.job?_dropCtx_of_ne s ne p)

/-! ### The end of one job -/

/-- R398: a job whose token port holds no record. -/
def Job.withoutRecords (j : Job) : Job := { j with tokenInbox := [] }

/-- R389: a job that ends with a status at its card boundaries. -/
def Job.stopsWith (st : Status) (j : Job) : Job := { j with endStatus := st }

/-- R366, R388: a job that has become Ready. -/
def Job.ended (st : Status) (result : List Byte) (now : Nat) (j : Job) : Job :=
  { j with
    ready := true, endStatus := st, result := result, readyMs := now, reserved := none
    stepRuns := false, rows := [], tokenHeld := [], tokenInbox := [] }

/-- R388: the state in which a job's own end is written: its records, contexts and bindings gone and its dents tagged. -/
def State.cleared (s : State) (j : Job) (id : Word) (st : Status) : State :=
  let s := ((s.dropPortTransfers id).dropCtxs id).leaveBindings id
  let s := if j.started then j.alt.elim s s.tagDents else s
  s.countEnd j.client st

/-- R388: the end of a job that is there and not Ready. -/
theorem State.endOne_eq {s : State} {id : Word} {j : Job} (h : s.job? id = some j) (hr : j.ready = false) (st : Status) :
    s.endOne id st = if j.phrase.isSome then (s.cleared j id st).dropPhraseJob j st else
      let t := (s.cleared j id st).mapJob id
        (Job.ended st (s.resultOf j st) (s.cleared j id st).recorder.windows)
      (t.job? id).elim t t.resultEvent := by
  unfold State.endOne
  simp only [h, hr]
  rfl

/-- R388: nothing ends where the job is gone or Ready. -/
theorem State.endOne_of_ready {s : State} {id : Word} (h : ∀ j, s.job? id = some j → j.ready = true) (st : Status) :
    s.endOne id st = s := by
  unfold State.endOne
  split
  · rfl
  · next j hj => rw [if_pos (h j hj)]

/-- R388: clearing keeps jobs and contexts as dropping the job's records and contexts left them. -/
theorem State.cleared_kept (s : State) (j : Job) (id : Word) (st : Status) :
    JobsKept ((s.dropPortTransfers id).dropCtxs id) (s.cleared j id st) :=
  ((JobsKept.leaveBindings _ id).trans (JobsKept.tagDentsOf _ j)).trans ⟨rfl, rfl⟩

/-- R388: the contexts of the job are gone, the others stay. -/
theorem State.cleared_ctxs (s : State) (j : Job) (id : Word) (st : Status) :
    (s.cleared j id st).sched.ctxs = s.sched.ctxs.filter fun x => x.job != id := by
  rw [(s.cleared_kept j id st).2, State.ctxs_dropCtxs]
  rfl

/-- R388: the job keeps all but its positions' flags and the records that wait at its token port. -/
theorem State.cleared_job? {s : State} {id : Word} {j : Job} (h : s.job? id = some j) (st : Status) :
    ∃ ps, (s.cleared j id st).job? id = some { j with positions := ps, tokenInbox := [] } := by
  have hd : (s.dropPortTransfers id).job? id = some { j with tokenInbox := [] } :=
    (State.job?_mapJob s id (f := Job.withoutRecords) fun _ => rfl).trans (congrArg (Option.map _) h)
  obtain ⟨ps, hps⟩ := State.job?_dropCtxs hd id
  exact ⟨ps, ((s.cleared_kept j id st).job? id).trans hps⟩

/-- R388: every other job is as it was. -/
theorem State.cleared_job?_of_ne (s : State) (j : Job) {id k : Word} (ne : k ≠ id) (st : Status) :
    (s.cleared j id st).job? k = s.job? k := by
  rw [(s.cleared_kept j id st).job?, State.job?_dropCtxs_of_ne _ ne]
  exact State.job?_mapJob_of_ne s (f := Job.withoutRecords) (fun _ => rfl) ne

/-- R405: the event of a job that has become Ready changes no job or context. -/
theorem JobsKept.resultEventOf (s : State) (id : Word) : JobsKept s ((s.job? id).elim s s.resultEvent) := by
  cases s.job? id with
  | none => exact ⟨rfl, rfl⟩
  | some j => exact JobsKept.of_output (OutputOnly.event s _ _ _ _ _)

/-- R397: a phrase job leaves the job table. -/
theorem State.dropPhraseJob_kept (s : State) (j : Job) (st : Status) :
    JobsKept { s with sched := { s.sched with jobs := s.sched.jobs.filter fun k => k.id != j.id } } (s.dropPhraseJob j st) := by
  unfold State.dropPhraseJob
  dsimp only
  generalize ({ s with sched := { s.sched with jobs := s.sched.jobs.filter fun k => k.id != j.id } } : State) = u
  have hm : JobsKept u (u.mapStream j.frameSink fun t => { t with runningPhrase := none }) := ⟨rfl, rfl⟩
  generalize (u.mapStream j.frameSink fun t => { t with runningPhrase := none }) = v at hm ⊢
  split
  · exact hm
  · exact hm.trans (JobsKept.of_output (OutputOnly.event v _ _ _ _ _))

/-- R388: the end of a job leaves every other job. -/
theorem State.job?_endOne_of_ne (s : State) {id k : Word} (ne : k ≠ id) (st : Status) : (s.endOne id st).job? k = s.job? k := by
  by_cases hready : ∀ j, s.job? id = some j → j.ready = true
  · rw [State.endOne_of_ready hready]
  · push Not at hready
    obtain ⟨j, hj, hr⟩ := hready
    rw [State.endOne_eq hj (by simpa using hr)]
    split
    · rw [(State.dropPhraseJob_kept _ j st).job?, ← State.cleared_job?_of_ne s j ne st]
      simp only [State.job?, List.find?_filter]
      refine List.find?_congr fun x _ => ?_
      by_cases hx : x.id = k
      · have : j.id ≠ k := fun e => ne (e.symm.trans (State.job?_id hj))
        simp [hx, this.symm]
      · simp [hx]
    · exact ((JobsKept.resultEventOf _ id).job? k).trans
        ((State.job?_mapJob_of_ne (s.cleared j id st) (f := Job.ended _ _ _) (fun _ => rfl) ne).trans (State.cleared_job?_of_ne s j ne st))

/-- R388: the contexts after the end of one job. -/
theorem State.ctxs_endOne {s : State} {id : Word} {j : Job} (h : s.job? id = some j) (hr : j.ready = false) (st : Status) :
    (s.endOne id st).sched.ctxs = s.sched.ctxs.filter fun x => x.job != id := by
  rw [State.endOne_eq h hr, ← State.cleared_ctxs s j id st]
  split
  · exact (State.dropPhraseJob_kept _ j st).2
  · exact (JobsKept.resultEventOf _ id).2

/-- R366, R388: a job that ends is Ready with its status and result, and keeps what its stop wrote. -/
theorem State.job?_endOne {s : State} {id : Word} {j : Job} (h : s.job? id = some j) (hr : j.ready = false)
    (hp : j.phrase = none) (st : Status) :
    ∃ k, (s.endOne id st).job? id = some k ∧ k.ready = true ∧ k.endStatus = st ∧ k.result = s.resultOf j st
      ∧ k.phrase = none ∧ k.faultPos = j.faultPos ∧ k.faultEngine = j.faultEngine ∧ k.faultCard = j.faultCard := by
  obtain ⟨ps, hk⟩ := State.cleared_job? h st
  rw [State.endOne_eq h hr, hp, if_neg (by decide), (JobsKept.resultEventOf _ id).job?,
    State.job?_mapJob (s.cleared j id st) id (f := Job.ended _ _ _) fun _ => rfl, hk]
  exact ⟨_, rfl, rfl, rfl, rfl, hp, rfl, rfl, rfl⟩

/-- R397: a phrase job that ends is in no table. -/
theorem State.job?_endOne_phrase {s : State} {id : Word} {j : Job} (h : s.job? id = some j) (hr : j.ready = false)
    (hp : j.phrase.isSome = true) (st : Status) : (s.endOne id st).job? id = none := by
  rw [State.endOne_eq h hr, if_pos hp, (State.dropPhraseJob_kept _ j st).job?]
  simp only [State.job?, List.find?_filter, List.find?_eq_none]
  intro x _
  rw [State.job?_id h]
  simp

/-! ### The end of a job with its members -/

/-- R388: the end of one job takes no context of another, and adds none. -/
theorem State.ctx?_endOne_of_none {s : State} {job : Word} {pos : Nat} (h : s.ctx? job pos = none) (id : Word) (st : Status) :
    (s.endOne id st).ctx? job pos = none := by
  by_cases hready : ∀ j, s.job? id = some j → j.ready = true
  · rw [State.endOne_of_ready hready, h]
  · push Not at hready
    obtain ⟨j, hj, hr⟩ := hready
    unfold State.ctx?
    rw [State.ctxs_endOne hj (by simpa using hr)]
    exact List.find?_eq_none.2 fun x hx => List.find?_eq_none.1 h x (List.mem_filter.1 hx).1

/-- R388: what every end of one job keeps, the end of a job with its members keeps. -/
theorem State.endJob_keeps {p : State → Prop} (h : ∀ (s : State) (m : Word) (st : Status), p s → p (s.endOne m st)) {s : State}
    (hs : p s) (id : Word) (st : Status) : p (s.endJob id st) := by
  unfold State.endJob
  dsimp only
  refine h _ id st ?_
  generalize ((s.sched.jobs.filter fun j => j.kind == .member && j.batch == id && !j.ready).map (·.id)) = l
  induction l generalizing s with
  | nil => exact hs
  | cons m l ih => exact ih (h s m _ hs)

/-- R112: a finished position leaves no context of its own. -/
theorem State.ctx?_finishPosition (s : State) (job : Word) (pos : Nat) : (s.finishPosition job pos).ctx? job pos = none := by
  have gone : ∀ (u : State) (m : Word) (st : Status), u.ctx? job pos = none → (u.endOne m st).ctx? job pos = none :=
    fun u m st h => State.ctx?_endOne_of_none h m st
  unfold State.finishPosition
  dsimp only
  have hd := State.ctx?_dropCtx s job pos
  generalize s.dropCtx job pos = t at hd ⊢
  split
  · exact hd
  · split
    · exact State.endJob_keeps gone hd job .ok
    · exact hd

/-! ### A job that stops -/

/-- Every job found under an id is ending. -/
def Stopped (id : Word) (s : State) : Prop := ∀ j, s.job? id = some j → j.stopping = true

/-- R388: a job that is ending goes on ending. -/
theorem Stopped.endOne {id : Word} {s : State} (h : Stopped id s) (m : Word) (st : Status) : Stopped id (s.endOne m st) := by
  by_cases hm : id = m
  · subst hm
    cases hj : s.job? id with
    | none => rwa [State.endOne_of_ready (fun j h => by simp [hj] at h)]
    | some j =>
      cases hr : j.ready with
      | true => rwa [State.endOne_of_ready (fun k h => by cases hj.symm.trans h; exact hr)]
      | false =>
        intro k hk
        cases hp : j.phrase with
        | some q => rw [State.job?_endOne_phrase hj hr (by simp [hp]) st] at hk; cases hk
        | none =>
          obtain ⟨k', hk', hready, _⟩ := State.job?_endOne hj hr hp st
          cases hk'.symm.trans hk
          simp [Job.stopping, hready]
  · unfold Stopped
    rwa [State.job?_endOne_of_ne s hm]

/-- R389: a job that is ending goes on ending while it settles. -/
theorem Stopped.settleJob {id : Word} {s : State} (h : Stopped id s) (m : Word) : Stopped id (s.settleJob m) := by
  unfold State.settleJob
  split
  · exact h
  · split
    · exact State.endJob_keeps (p := Stopped id) (fun s m st h => Stopped.endOne h m st) h _ _
    · exact h

/-- R98, R389: a job that was stopped with an error is ending. -/
theorem State.stopJob_stopped (s : State) (id : Word) {st : Status} (hst : st ≠ .ok) : Stopped id (s.stopJob id st) := by
  unfold State.stopJob
  split
  · next h => exact fun j hj => by simp [h] at hj
  · next j hj =>
    split
    · next hs => exact fun k hk => by cases hj.symm.trans hk; exact hs
    · refine Stopped.settleJob ?_ id
      intro k hk
      have hf : ((s.mapJob id (Job.stopsWith st)).dropPortTransfers id).job? id
          = some ((j.stopsWith st).withoutRecords) := by
        refine (State.job?_mapJob _ id (f := Job.withoutRecords) fun _ => rfl).trans ?_
        rw [State.job?_mapJob s id (f := Job.stopsWith st) fun _ => rfl, hj]
        rfl
      cases hf.symm.trans hk
      simp [Job.stopping, Job.withoutRecords, Job.stopsWith, hst]

/-- R98: a job that a card stopped with an error is ending. -/
theorem State.stopCard_stopped (s : State) (c : Ctx) (e : Engine) (card : Nat) {st : Status} (hst : st ≠ .ok) :
    Stopped c.job (s.stopCard c e card st) := by
  unfold State.stopCard
  split
  · next h => exact fun j hj => by simp [h] at hj
  · next j hj =>
    split
    · next hs => exact fun k hk => by cases hj.symm.trans hk; exact hs
    · exact State.stopJob_stopped _ c.job hst

/-- R98, R390: a plain job under an id that names this position, engine and card as its stop; once it is Ready, with this status,
no result and no context. -/
def StopsAt (id : Word) (st : Status) (at_ : Half × Byte × DWord) (s : State) : Prop :=
  ∃ j, s.job? id = some j ∧ j.phrase = none ∧ j.faultPos = at_.1 ∧ j.faultEngine = at_.2.1 ∧ j.faultCard = at_.2.2
    ∧ (j.ready = true → j.endStatus = st ∧ j.result = [] ∧ ∀ p, s.ctx? id p = none)

/-- R388: the end of the job itself makes it Ready with the status of its stop. -/
theorem StopsAt.endOne_self {id : Word} {st : Status} {at_ : Half × Byte × DWord} {s : State} (h : StopsAt id st at_ s)
    (hst : st ≠ .ok) : StopsAt id st at_ (s.endOne id st) ∧ ∀ j, (s.endOne id st).job? id = some j → j.ready = true := by
  obtain ⟨j, hj, hp, hpos, heng, hcard, hend⟩ := h
  cases hr : j.ready with
  | true =>
    rw [State.endOne_of_ready fun k hk => by cases hj.symm.trans hk; exact hr]
    exact ⟨⟨j, hj, hp, hpos, heng, hcard, hend⟩, fun k hk => by cases hj.symm.trans hk; exact hr⟩
  | false =>
    obtain ⟨k, hk, hready, hstatus, hresult, hphrase, kpos, keng, kcard⟩ := State.job?_endOne hj hr hp st
    refine ⟨⟨k, hk, hphrase, kpos.trans hpos, keng.trans heng, kcard.trans hcard, fun _ => ⟨hstatus, ?_, fun p => ?_⟩⟩,
      fun k' hk' => by cases hk.symm.trans hk'; exact hready⟩
    · rw [hresult]
      simp [State.resultOf, hst]
    · unfold State.ctx?
      rw [State.ctxs_endOne hj hr, List.find?_eq_none]
      intro x hx
      have hne : x.job ≠ id := by simpa using (List.mem_filter.1 hx).2
      simp [hne]

/-- R388: the end of any job with the status of the stop keeps what the stop wrote. -/
theorem StopsAt.endOne {id : Word} {st : Status} {at_ : Half × Byte × DWord} {s : State} (h : StopsAt id st at_ s)
    (hst : st ≠ .ok) (m : Word) : StopsAt id st at_ (s.endOne m st) := by
  by_cases hm : id = m
  · subst hm
    exact (h.endOne_self hst).1
  · obtain ⟨j, hj, hp, hpos, heng, hcard, hend⟩ := h
    refine ⟨j, (State.job?_endOne_of_ne s hm st).trans hj, hp, hpos, heng, hcard, fun hr => ?_⟩
    obtain ⟨hstatus, hresult, hctx⟩ := hend hr
    exact ⟨hstatus, hresult, fun p => State.ctx?_endOne_of_none (hctx p) m st⟩

/-- R388: a stopped job that ends with its members is Ready with the status of its stop. -/
theorem StopsAt.endJob {id : Word} {st : Status} {at_ : Half × Byte × DWord} {s : State} (h : StopsAt id st at_ s)
    (hst : st ≠ .ok) : StopsAt id st at_ (s.endJob id st) ∧ ∀ j, (s.endJob id st).job? id = some j → j.ready = true := by
  have hb : (st == .ok) = false := by simpa using hst
  unfold State.endJob
  rw [hb]
  dsimp only
  generalize ((s.sched.jobs.filter fun j => j.kind == .member && j.batch == id && !j.ready).map (·.id)) = l
  refine StopsAt.endOne_self ?_ hst
  induction l generalizing s with
  | nil => exact h
  | cons m l ih => exact ih (h.endOne hst m)

/-- R390: a job that keeps the place of its stop. -/
def Job.stoppedAt (at_ : Half × Byte × DWord) (j : Job) : Job :=
  { j with faultPos := at_.1, faultEngine := at_.2.1, faultCard := at_.2.2 }

/-- R390: the place that JOB_STATUS names of a card's stop. -/
def stopPlace (c : Ctx) (e : Engine) (card : Nat) : Half × Byte × DWord :=
  (BitVec.ofNat 16 c.position, match e with | .fetch => 0 | .execute => 1, BitVec.ofNat 64 card)

/-- R389: a job without outstanding transfers that stops ends at once. -/
theorem State.stopJob_ends {s : State} {id : Word} {j : Job} {st : Status} (hst : st ≠ .ok) (hj : s.job? id = some j)
    (hs : j.stopping = false) (hp : j.phrase = none) (hx : ∀ x ∈ s.sched.transfers, x.job = id → x.outstanding = false) :
    ∃ k, (s.stopJob id st).job? id = some k ∧ k.ready = true ∧ k.endStatus = st ∧ k.result = []
      ∧ k.faultPos = j.faultPos ∧ k.faultEngine = j.faultEngine ∧ k.faultCard = j.faultCard
      ∧ ∀ p, (s.stopJob id st).ctx? id p = none := by
  have hr : j.ready = false := by simp [Job.stopping] at hs; exact hs.1
  have hf : ((s.mapJob id (Job.stopsWith st)).dropPortTransfers id).job? id = some ((j.stopsWith st).withoutRecords) := by
    refine (State.job?_mapJob _ id (f := Job.withoutRecords) fun _ => rfl).trans ?_
    rw [State.job?_mapJob s id (f := Job.stopsWith st) fun _ => rfl, hj]
    rfl
  have hu : s.stopJob id st = State.settleJob
      { (s.mapJob id (Job.stopsWith st)).dropPortTransfers id with
        sched := { ((s.mapJob id (Job.stopsWith st)).dropPortTransfers id).sched with
          scale := s.sched.scale.filter fun q => q.2.1 != id } } id := by
    unfold State.stopJob
    rw [hj]
    simp only [hs]
    rfl
  rw [hu]
  have hno : ∀ x ∈ ((s.mapJob id (Job.stopsWith st)).dropPortTransfers id).sched.transfers,
      x.job = id → x.outstanding = false := fun x hm => hx x (List.mem_filter.1 hm).1
  generalize (s.mapJob id (Job.stopsWith st)).dropPortTransfers id = u at hf hno ⊢
  have hf' : State.job? { u with sched := { u.sched with scale := s.sched.scale.filter fun q => q.2.1 != id } } id
      = some ((j.stopsWith st).withoutRecords) := hf
  have starts : StopsAt id st (j.faultPos, j.faultEngine, j.faultCard)
      { u with sched := { u.sched with scale := s.sched.scale.filter fun q => q.2.1 != id } } :=
    ⟨_, hf', hp, rfl, rfl, rfl, fun h => absurd (hr.symm.trans h) (by decide)⟩
  have hno' : (State.sched { u with sched := { u.sched with scale := s.sched.scale.filter fun q => q.2.1 != id } }).transfers.any
      (fun t => t.outstanding && t.job == id) = false := by
    simp only [List.any_eq_false]
    intro x hm
    by_cases hid : x.job = id
    · simp [hno x hm hid]
    · simp [hid]
  generalize ({ u with sched := { u.sched with scale := s.sched.scale.filter fun q => q.2.1 != id } } : State) = v
    at hf' starts hno' ⊢
  have hv : v.settleJob id = v.endJob id st := by
    unfold State.settleJob
    rw [hf']
    dsimp only
    rw [hno', if_pos]
    · rfl
    · simp [Job.stopping, Job.withoutRecords, Job.stopsWith, hst, hr]
  obtain ⟨⟨k, hk, _, hpos, heng, hcard, hend⟩, hready⟩ := starts.endJob hst
  obtain ⟨hstatus, hresult, hctx⟩ := hend (hready k hk)
  rw [hv]
  exact ⟨k, hk, hready k hk, hstatus, hresult, hpos, heng, hcard, hctx⟩

/-- R98, R389, R390: a card that stops a job without outstanding transfers ends it at once, and its place is kept. -/
theorem State.stopCard_ends {s : State} {c : Ctx} {j : Job} (e : Engine) (card : Nat) {st : Status} (hst : st ≠ .ok)
    (hj : s.job? c.job = some j) (hs : j.stopping = false) (hp : j.phrase = none)
    (hx : ∀ x ∈ s.sched.transfers, x.job = c.job → x.outstanding = false) :
    ∃ k, (s.stopCard c e card st).job? c.job = some k ∧ k.ready = true ∧ k.endStatus = st ∧ k.result = []
      ∧ k.faultPos = (stopPlace c e card).1 ∧ k.faultEngine = (stopPlace c e card).2.1
      ∧ k.faultCard = (stopPlace c e card).2.2 ∧ ∀ p, (s.stopCard c e card st).ctx? c.job p = none := by
  have hu : s.stopCard c e card st = (s.mapJob c.job (Job.stoppedAt (stopPlace c e card))).stopJob c.job st := by
    unfold State.stopCard
    rw [hj]
    simp only [hs]
    rfl
  have hm : (s.mapJob c.job (Job.stoppedAt (stopPlace c e card))).job? c.job = some (j.stoppedAt (stopPlace c e card)) := by
    rw [State.job?_mapJob s c.job (f := Job.stoppedAt _) fun _ => rfl, hj]
    rfl
  rw [hu]
  exact State.stopJob_ends hst hm hs hp hx

/-! ### A chosen context -/

/-- R273: the context in the chosen slot is ready. -/
theorem State.ready_of_choose {s : State} {loom slot : Nat} {e : Engine} {c : Ctx} (h : s.choose loom e = some slot)
    (hc : s.resident? loom slot = some c) : s.ready c e = true := by
  unfold State.choose at h
  obtain ⟨low, _, h⟩ := Option.bind_eq_some_iff.1 h
  obtain ⟨p, hp, rfl⟩ := Option.map_eq_some_iff.1 h
  obtain ⟨hmem, hready⟩ := List.mem_filter.1 (List.mem_of_find?_eq_some hp)
  obtain ⟨k, _, hk⟩ := List.mem_filterMap.1 hmem
  obtain ⟨d, hd, rfl⟩ := Option.map_eq_some_iff.1 hk
  cases hd.symm.trans hc
  exact (Bool.and_eq_true_iff.1 hready).1

/-- R93: the job of a ready context goes on. -/
theorem State.job?_of_ready {s : State} {c : Ctx} {e : Engine} (h : s.ready c e = true) :
    ∃ j, s.job? c.job = some j ∧ j.stopping = false := by
  unfold State.ready at h
  split at h
  · next j _ _ hj _ =>
    simp only [Bool.and_eq_true, Bool.not_eq_true'] at h
    exact ⟨j, hj, h.1.1.1.2⟩
  · cases h

/-- A change of passes alone leaves the jobs. -/
theorem PassesOnly.job? {s t : State} (h : PassesOnly s t) (id : Word) : t.job? id = s.job? id := by
  obtain ⟨_, rfl, _⟩ := h
  rfl

/-- A change of passes alone finds no context more. -/
theorem PassesOnly.ctx?_none {s t : State} (h : PassesOnly s t) {job : Word} {pos : Nat} (hn : s.ctx? job pos = none) :
    t.ctx? job pos = none := (h.ctx? job pos).2 hn

/-- R93: the state that a card runs in has the jobs of the state before. -/
theorem issued_job? (s : State) (loom slot : Nat) (e : Engine) (c : Ctx) (card : Card) (id : Word) :
    (issued s loom slot e c card).job? id = s.job? id := by
  obtain ⟨m, b, h⟩ := issued_frame s loom slot e c card
  rw [h]
  exact (State.refresh_passes s loom).job? id

/-- R93: the state that a card runs in has the transfers of the state before. -/
theorem issued_transfers (s : State) (loom slot : Nat) (e : Engine) (c : Ctx) (card : Card) :
    (issued s loom slot e c card).sched.transfers = s.sched.transfers := by
  obtain ⟨m, b, h⟩ := issued_frame s loom slot e c card
  rw [h]
  exact (State.refresh_passes s loom).transfers

/-- R93: the job of a chosen context goes on. -/
theorem job_of_chooses {s : State} {loom slot : Nat} {e : Engine} {c : Ctx} {card : Card} (h : Chooses s loom slot e c card) :
    ∃ j, s.job? c.job = some j ∧ j.stopping = false := by
  obtain ⟨_, _, hres, _, _, hch⟩ := h
  obtain ⟨j, hj, hs⟩ := State.job?_of_ready (State.ready_of_choose hch hres)
  exact ⟨j, ((State.refresh_passes s loom).job? _).symm.trans hj, hs⟩

end Sys2Proof.Machine
end


section
/-!
PROOF. Transfer cards, control cards, KNOT and the GRAIN key load: each changes its context by one function and is charged,
so that what its context holds afterwards is read off that function.
-/
namespace Sys2Proof.Machine

open Sys2Proof Sys2Proof.Safety

/-! ### A card that changes its context and is charged -/

/-- A weaker condition holds too. -/
theorem leaves_mono {k : Instr} {s : State} {c : Ctx} {p q : State → Ctx → Prop} (h : Leaves k s c p)
    (hpq : ∀ t c', p t c' → q t c') : Leaves k s c q := by
  obtain ⟨t, c', he, hc, hp⟩ := h
  exact ⟨t, c', he, hc, hpq t c' hp⟩

/-- A charge leaves memory and links. -/
theorem State.charge_memory_links (s : State) (job : Word) (pos : Nat) (es : List Engine) (waves fixed : Nat) :
    (s.charge job pos es waves fixed).memory = s.memory ∧ (s.charge job pos es waves fixed).links = s.links := by
  obtain ⟨js, cs, h⟩ := State.charge_frame s job pos es waves fixed
  rw [h]
  exact ⟨rfl, rfl⟩

/-- R273: a card that changes its context and is charged leaves the changed context, charged. -/
theorem leaves_mapCtx_charge {s : State} {loom slot : Nat} {e : Engine} {c : Ctx} {card : Card}
    (h : Chooses s loom slot e c card) {k : Instr} {kind : Card → Bool} {run : State → Ctx → Card → State}
    (hexec : exec k s = .next (s.cardEvent loom slot e kind run)) (hk : kind card = true) {f : Ctx → Ctx} {es : List Engine}
    {waves fixed : Nat} (hf : ∀ c, (f c).job = c.job ∧ (f c).position = c.position)
    (hrun : run (issued s loom slot e c card) c card
      = ((issued s loom slot e c card).mapCtx c.job c.position f).charge c.job c.position es waves fixed) :
    Leaves k s c fun t c' => (f c).Charged c' waves ∧ t.memory = (issued s loom slot e c card).memory := by
  obtain ⟨d, hd, hc⟩ := State.ctx?_charge (State.ctx?_mapCtx_found (issued_ctx? h) hf) es waves fixed
  refine leaves_of_card h hexec hk (d := d) (by rw [hrun]; exact hd) fun t d' hp pd => ⟨hc.passed pd, ?_⟩
  rw [hp.memory, hrun, (State.charge_memory_links _ _ _ _ _ _).1]
  rfl

/-! ### Transfer cards (R98, R103, R130) -/

/-- R103, R130: the transfer that a card issues, with the data and flags that it carries. -/
def State.newTransfer (s : State) (kind : XferKind) (c : Ctx) (card : Card) (data : List Byte) (flags : Word) : Transfer :=
  let aix := lineOf c.arch.fetch.ix (fld card 90 87 * 65536)
  ⟨c.loomNo, c.job, c.position, c.arch.fetch.card, card, kind, lineOf c.arch.fetch.ix (fld card 111 92), card.getLsbD 91,
   rowAddr card aix 0, memRowBytes card, fld card 50 39 + 1, fld card 26 7, cardPieces card aix, Mem.write [] 0 data,
   c.arch.fetchStep, s.wavesOf c .fetch card, flags⟩

/-- R93, R233: a context past its transfer card. -/
def Ctx.pastTransfer (card : Card) (c : Ctx) : Ctx :=
  let arch := c.arch.next .fetch
  { c with arch := { arch with fetchStep := arch.fetchStep + if drawsFetch card then 1 else 0 } }

/-- R175: what a card of a kind carries: a STORE_C its encoded rows and their flags, the others nothing. -/
def sentData (kind : XferKind) (c : Ctx) (card : Card) : List Byte × List Fl :=
  if kind == .storeC then encodeRows c card (c.lines (card.getLsbD 91)) (lineOf c.arch.fetch.ix (fld card 111 92)) else ([], [])

/-- R98, R103: a transfer card in reach issues its transfer. -/
theorem State.runTransfer_ok {s : State} {kind : XferKind} {c : Ctx} {card : Card} {j : Job} {a : Alternative}
    (hj : s.job? c.job = some j) (ha : j.alt = some a) (hx : s.extentsOk c .fetch card = true)
    (hr : ∀ r < fld card 50 39 + 1, s.rowOk j a (opOf card) (kind == .store || kind == .storeC)
      (rowAddr card (lineOf c.arch.fetch.ix (fld card 90 87 * 65536)) r) (memRowBytes card) = true) :
    s.runTransfer kind c card =
      { s.mapCtx c.job c.position (Ctx.pastTransfer card) with
        sched := { (s.mapCtx c.job c.position (Ctx.pastTransfer card)).sched with
          transfers := s.sched.transfers
            ++ [s.newTransfer kind c card (sentData kind c card).1 (raiseAll 0 (sentData kind c card).2)] } } := by
  unfold State.runTransfer
  simp only [hj, Option.bind_some, ha]
  rw [if_neg]
  · rfl
  · simpa [hx] using hr

/-- R103: a transfer card in reach leaves its transfer outstanding and its context past it. -/
theorem leaves_transfer {s : State} {loom slot : Nat} {c : Ctx} {card : Card} {j : Job} {a : Alternative}
    (h : Chooses s loom slot .fetch c card) {k : Instr} {kind : Card → Bool} {xfer : XferKind}
    (hexec : exec k s = .next (s.cardEvent loom slot .fetch kind (State.runTransfer xfer))) (hk : kind card = true)
    (hj : (issued s loom slot .fetch c card).job? c.job = some j) (ha : j.alt = some a)
    (hx : (issued s loom slot .fetch c card).extentsOk c .fetch card = true)
    (hr : ∀ r < fld card 50 39 + 1, (issued s loom slot .fetch c card).rowOk j a (opOf card) (xfer == .store || xfer == .storeC)
      (rowAddr card (lineOf c.arch.fetch.ix (fld card 90 87 * 65536)) r) (memRowBytes card) = true) :
    Leaves k s c fun t c' =>
      t.sched.transfers = (issued s loom slot .fetch c card).sched.transfers
          ++ [(issued s loom slot .fetch c card).newTransfer xfer c card (sentData xfer c card).1
            (raiseAll 0 (sentData xfer c card).2)]
        ∧ c'.arch = { c.arch with
            fetch := { c.arch.fetch with card := c.arch.fetch.card + 1 }
            fetchStep := c.arch.fetchStep + (if drawsFetch card then 1 else 0) }
        ∧ c'.scratch = c.scratch ∧ c'.stripe = c.stripe ∧ t.memory = (issued s loom slot .fetch c card).memory := by
  have run := State.runTransfer_ok (kind := xfer) hj ha hx hr
  refine leaves_of_card h hexec hk (d := c.pastTransfer card) ?_ fun t d' hp pd => ?_
  · rw [run]
    exact State.ctx?_mapCtx_found (f := Ctx.pastTransfer card) (issued_ctx? h) fun _ => ⟨rfl, rfl⟩
  · obtain ⟨pf, pe, bf, be, rfl⟩ := pd
    refine ⟨?_, rfl, rfl, rfl, ?_⟩
    · rw [hp.transfers, run]
    · rw [hp.memory, run]
      rfl

/-- Settles O29: each transfer card in reach issues the transfer of its own kind. -/
theorem transferCardsComplete : Obligations.TransferCardsComplete := by
  unfold Obligations.TransferCardsComplete
  intro s loom slot c card j a h
  dsimp only
  intro hj ha hx
  refine ⟨?load, ?store, ?loadC, ?storeC⟩
  case load => exact fun hop hr => leaves_transfer h rfl (isOp_of_eq hop) hj ha hx hr
  case store => exact fun hop hr => leaves_transfer h rfl (isOp_of_eq hop) hj ha hx hr
  case loadC => exact fun hop hr => leaves_transfer h rfl (isOp_of_eq hop) hj ha hx hr
  case storeC => exact fun hop hr => leaves_transfer h rfl (isOp_of_eq hop) hj ha hx hr

/-! ### Control cards (R100 to R105) -/

/-- A context whose engine and bobbins change. -/
def Ctx.control (e : Engine) (g : EngineState → EngineState) (b : List (List Half) → List (List Half)) (c : Ctx) : Ctx :=
  { c with arch := ({ c.arch with bobbins := b c.arch.bobbins }).mapEng e g }

/-- What a control card that took `waves` waves leaves: its engine and the bobbins changed, the rest as it was. -/
theorem leaves_control {s : State} {loom slot : Nat} {e : Engine} {c : Ctx} {card : Card} (h : Chooses s loom slot e c card)
    {k : Instr} {kind : Card → Bool} {run : State → Ctx → Card → State} (hexec : exec k s = .next (s.cardEvent loom slot e kind run))
    (hk : kind card = true) {waves : Nat} {g : EngineState → EngineState} {b : List (List Half) → List (List Half)}
    (hrun : run (issued s loom slot e c card) c card
      = ((issued s loom slot e c card).mapCtx c.job c.position (Ctx.control e g b)).charge c.job c.position [e] waves 0) :
    Leaves k s c fun t c' => c'.arch.eng e = g (c.arch.eng e) ∧ c'.arch.eng (otherEngine e) = c.arch.eng (otherEngine e)
      ∧ c'.arch.bobbins = b c.arch.bobbins ∧ c'.arch.waves = c.arch.waves + BitVec.ofNat 64 waves
      ∧ c'.arch.arithFlags = c.arch.arithFlags ∧ c'.arch.key = c.arch.key ∧ c'.arch.execStep = c.arch.execStep
      ∧ c'.arch.fetchStep = c.arch.fetchStep ∧ c'.arch.knotCount = c.arch.knotCount ∧ c'.scratch = c.scratch
      ∧ c'.stripe = c.stripe ∧ t.memory = (issued s loom slot e c card).memory := by
  refine leaves_mono (leaves_mapCtx_charge h hexec hk (f := Ctx.control e g b) (fun _ => ⟨rfl, rfl⟩) hrun) fun t c' ⟨hc, hm⟩ => ?_
  obtain ⟨_, _, _, _, _, _, _, _, _, rfl⟩ := hc
  cases e <;> exact ⟨rfl, rfl, rfl, rfl, rfl, rfl, rfl, rfl, rfl, rfl, rfl, hm⟩

/-- R96: the index registers after one is written. -/
theorem EngineState.setIx_eq (g : EngineState) (n : Nat) (v : DWord) :
    g.setIx n v = { g with ix := if n = 0 then g.ix else g.ix.set n v } := by
  unfold EngineState.setIx
  by_cases hn : n = 0 <;> simp [hn]

/-- R101: taking the oldest token of a bobbin leaves the others. -/
theorem modify_bobbin_tail {l : List (List Half)} {b : Nat} {t0 : Half} {ts : List Half} (h : l[b]? = some (t0 :: ts)) :
    l.modify b (fun _ => ts) = l.set b ts := by
  rw [List.modify_eq_set_getElem?, h]
  rfl

/-- R100, R101: a WAIT with a token. -/
theorem State.runWait_eq {s : State} {e : Engine} {c : Ctx} {card : Card} {t0 : Half} {ts : List Half}
    (h : c.arch.bobbins[bobbinOf card]? = some (t0 :: ts)) :
    s.runWait e c card = (s.mapCtx c.job c.position (Ctx.control e
      (fun g => { g.setIx (fld card 111 108) (t0.setWidth 64) with
        card := (g.setIx (fld card 111 108) (t0.setWidth 64)).card + 1 })
      fun l => l.modify (bobbinOf card) fun _ => ts)).charge c.job c.position [e] 2 0 := by
  have ht : c.arch.tokens (bobbinOf card) = t0 :: ts := by simp [Arch.tokens, nth, h]
  unfold State.runWait
  rw [ht]
  cases e <;> rfl

/-- R105: an engine past an END whose opener is `opener`. -/
def EngineState.pastEnd (opener : Card) (first : Nat) (g : EngineState) : EngineState :=
  match g.loops with
  | (left, at_) :: outer =>
    if 1 < left then
      let h := g.setIx (fld opener 71 68) (nth g.ix (fld opener 71 68) 0 + (BitVec.ofNat 16 (fld opener 35 20)).signExtend 64)
      { h with card := first + 1, loops := (left - 1, at_) :: outer }
    else { g with card := g.card + 1, loops := outer }
  | [] => { g with card := g.card + 1 }

/-- R105: an END of a loop whose opener is there. -/
theorem State.runEnd_eq {s : State} {e : Engine} {c : Ctx} {card opener : Card} {p : Position} (hp : s.positionOf c = some p)
    (ho : (p.stream e)[(c.arch.eng e).card - fld card 95 72]? = some opener) :
    s.runEnd e c card = (s.mapCtx c.job c.position (Ctx.control e
      (EngineState.pastEnd opener ((c.arch.eng e).card - fld card 95 72)) id)).charge c.job c.position [e] 1 0 := by
  unfold State.runEnd
  simp only [hp, Option.bind_some, ho, Option.getD_some]
  rfl

/-- R93: the state that a card runs in has the positions of the refreshed one. -/
theorem issued_positionOf (s : State) (loom slot : Nat) (e : Engine) (c : Ctx) (card : Card) :
    (issued s loom slot e c card).positionOf c = (s.refresh loom).positionOf c := by
  obtain ⟨m, b, h⟩ := issued_frame s loom slot e c card
  rw [h]
  rfl

/-- R112: the state after a HALT has halted its engine, before the position may finish. -/
def State.halted (s : State) (e : Engine) (c : Ctx) (card : Card) : State :=
  (((s.charge c.job c.position [e] 1 0).mapCtx c.job c.position
    (Ctx.control e (fun g => { g with halted := true }) id)).mapJob c.job fun j =>
      { j with positions := j.positions.modify c.position fun p => match e with
        | .fetch => { p with fetchHalt := some (BitVec.ofNat 32 (fld card 111 80)) }
        | .execute => { p with execHalt := some (BitVec.ofNat 32 (fld card 111 80)) } })

/-- R112: a HALT halts its engine, and finishes the position where the other has halted. -/
theorem State.runHalt_eq (s : State) (e : Engine) (c : Ctx) (card : Card) :
    s.runHalt e c card = if (c.arch.eng (otherEngine e)).halted then (s.halted e c card).finishPosition c.job c.position
      else s.halted e c card := rfl

/-- R112: what a HALT leaves of its context before the position may finish. -/
theorem State.ctx?_halted {s : State} {c : Ctx} (h : s.ctx? c.job c.position = some c) (e : Engine) (card : Card) :
    ∃ d, (s.halted e c card).ctx? c.job c.position = some d
      ∧ (c.control e (fun g => { g with halted := true }) id).Charged d 1 := by
  obtain ⟨d, hd, hc⟩ := State.ctx?_charge h [e] 1 0
  refine ⟨_, State.ctx?_mapCtx_found (f := Ctx.control e (fun g => { g with halted := true }) id) hd fun _ => ⟨rfl, rfl⟩, ?_⟩
  obtain ⟨pf, pe, bf, be, sl, rw, rt, sk, ov, rfl⟩ := hc
  cases e <;> exact ⟨pf, pe, bf, be, sl, rw, rt, sk, ov, rfl⟩

/-- Settles O30: each control card changes its engine and the bobbins by one function; a second HALT drops the context. -/
theorem controlCardsComplete : Obligations.ControlCardsComplete := by
  unfold Obligations.ControlCardsComplete
  intro s loom slot e c card h
  dsimp only
  refine ⟨?wait, ?signal, ?loop, ?endLoop, ?halt, ?haltSecond⟩
  case wait =>
    intro t0 ts hop htok
    refine leaves_mono (leaves_control h (k := .wait loom slot e) rfl (isOp_of_eq hop) (State.runWait_eq htok)) fun t c' hc => ?_
    simpa only [EngineState.setIx_eq, modify_bobbin_tail htok] using hc
  case signal =>
    intro hop
    exact leaves_control h (g := fun g => { g with card := g.card + 1 })
      (b := fun l => l.modify (bobbinOf card) (· ++ [BitVec.ofNat 16
        ((lineOf (c.arch.eng e).ix (fld card 111 108 * 65536) + fld card 107 92) % 65536)])) rfl (isOp_of_eq hop) rfl
  case loop =>
    intro hop
    refine ⟨fun h0 => ?skip, fun h0 => ?enter⟩
    case skip =>
      refine leaves_control h (g := fun g => { g with card := g.card + fld card 95 72 + 1 }) (b := id) rfl
        (isOp_of_eq hop) ?_
      simp only [State.runLoop, h0]
      rfl
    case enter =>
      have hb : (fld card 111 96 == 0) = false := by simpa using h0
      refine leaves_mono (leaves_control h (k := .loop loom slot e) (waves := 1) (g := fun g =>
        { g.setIx (fld card 71 68) ((BitVec.ofNat 32 (fld card 67 36)).signExtend 64) with
          card := g.card + 1, loops := (fld card 111 96, g.card) :: g.loops }) (b := id) rfl (isOp_of_eq hop) ?_)
        fun t c' hc => ?_
      · simp only [State.runLoop, hb]
        rfl
      · simpa only [EngineState.setIx_eq, id_eq] using hc
  case endLoop =>
    intro opener p left at_ outer hop hp ho hl
    have run := leaves_control h (k := .endLoop loom slot e) rfl (isOp_of_eq hop)
      (State.runEnd_eq ((issued_positionOf s loom slot e c card).trans hp) ho)
    refine ⟨fun h1 => leaves_mono run fun t c' hc => ?again, fun h1 => leaves_mono run fun t c' hc => ?last⟩
    case again => simpa only [EngineState.pastEnd, hl, if_pos h1, EngineState.setIx_eq, id_eq] using hc
    case last => simpa only [EngineState.pastEnd, hl, if_neg (Nat.not_lt.2 h1), id_eq] using hc
  case halt =>
    intro hop ho
    obtain ⟨d, hd, hc⟩ := State.ctx?_halted (issued_ctx? h) e card
    have run : State.runHalt e (issued s loom slot e c card) c card = (issued s loom slot e c card).halted e c card := by
      rw [State.runHalt_eq, ho]
      rfl
    refine leaves_of_card h (k := .halt loom slot e) rfl (isOp_of_eq hop) (by rw [run]; exact hd) fun t d' hp pd => ?_
    have hm : t.memory = (issued s loom slot e c card).memory := by
      rw [hp.memory, run]
      exact (State.charge_memory_links _ _ _ _ _ _).1
    obtain ⟨_, _, _, _, _, _, _, _, _, rfl⟩ := hc.passed pd
    cases e <;> exact ⟨rfl, rfl, rfl, rfl, rfl, rfl, rfl, rfl, rfl, rfl, rfl, hm⟩
  case haltSecond =>
    intro hop ho
    refine ⟨_, congrArg Host.Outcome.next (State.cardEvent_of_chooses h (isOp_of_eq hop) _), ?_⟩
    refine (State.refresh_passes _ loom).ctx?_none ?_
    rw [State.runHalt_eq, if_pos ho]
    exact State.ctx?_finishPosition _ _ _

/-! ### KNOT and the GRAIN key load -/

/-- R107: blocks rewritten change no job or context. -/
theorem JobsKept.rewrote (s : State) (bs : List (Nat × Nat)) (off len : Nat) : JobsKept s (s.rewrote bs off len) := by
  unfold State.rewrote
  split
  · exact ⟨rfl, rfl⟩
  · exact ⟨rfl, rfl⟩

/-- R537: the log of a binding's end at a knot. -/
def EndLog.cleared (l : EndLog) : EndLog := { l with since := 0, entered := 0, log := [], logOn := true, blocks := [] }

/-- R107 to R110: a context past its KNOT. -/
def Ctx.pastKnot (card : Card) (k : KnotEntry) (c : Ctx) : Ctx :=
  let arch := (c.arch.next .fetch).next .execute
  let arch := { arch with knotCount := arch.knotCount + 1, sinceKnot := 0, fetchKey := arch.key }
  { c with
    arch := arch
    knot := some { entry := fld card 111 96, arch := arch, scratch := liveLines c.scratch false k,
                   stripe := liveLines c.stripe true k }
    sends := c.sends.map EndLog.cleared, recvs := c.recvs.map EndLog.cleared }

/-- R107: a KNOT with an entry charges its waves, frees its logs' blocks, takes its slot and passes. -/
theorem State.runKnot_eq {s : State} {c : Ctx} {card : Card} {k : KnotEntry} (h : s.knotEntry? c card = some k) :
    s.runKnot c card = (((s.charge c.job c.position [.fetch, .execute] (knotWaves k.liveBytes) (knotWaves k.liveBytes)).freeBlocks
      (c.recvs.flatMap (·.blocks))).rewrote c.knotBlocks ((c.arch.knotCount.toNat + 1) % 2 * (c.knotBytes / 2))
        (c.knotBytes / 2)).mapCtx c.job c.position (Ctx.pastKnot card k) := by
  unfold State.runKnot
  rw [h]
  rfl

/-- R107: the knot entry of a chosen KNOT is that of the refreshed state. -/
theorem issued_knotEntry? (s : State) (loom slot : Nat) (e : Engine) (c : Ctx) (card : Card) :
    (issued s loom slot e c card).knotEntry? c card = (s.refresh loom).knotEntry? c card := by
  unfold State.knotEntry?
  rw [issued_positionOf]

/-- R107 to R110, R537: what a KNOT leaves of its context. -/
theorem leaves_knot {s : State} {loom slot : Nat} {c : Ctx} {card : Card} {k : KnotEntry}
    (h : Chooses s loom slot .fetch c card) (hop : opOf card = 0x0A) (hk : (s.refresh loom).knotEntry? c card = some k) :
    Leaves (.knot loom slot) s c fun _ c' => ∃ d, c.Charged d (knotWaves k.liveBytes) ∧ (d.pastKnot card k).Passed c' := by
  have run := State.runKnot_eq ((issued_knotEntry? s loom slot .fetch c card).trans hk)
  obtain ⟨d, hd, hc⟩ := State.ctx?_charge (issued_ctx? h) [.fetch, .execute] (knotWaves k.liveBytes) (knotWaves k.liveBytes)
  refine leaves_of_card h (k := .knot loom slot) rfl (isOp_of_eq hop) (d := d.pastKnot card k) ?_ fun t d' _ pd => ⟨d, hc, pd⟩
  rw [run]
  refine State.ctx?_mapCtx_found (f := Ctx.pastKnot card k) ?_ fun _ => ⟨rfl, rfl⟩
  rw [(JobsKept.rewrote _ _ _ _).ctx?, (JobsKept.freeBlocks _ _).ctx?, hd]

/-- R235: a context past its GRAIN key load. -/
def Ctx.pastKeyLoad (card : Card) (key : List Byte) (step : DWord) (c : Ctx) : Ctx :=
  { c with arch := { (c.arch.next .execute).signalled card with key := key, execStep := step } }

/-- R235: a GRAIN key load whose key record is legal. -/
theorem State.runKeyLoad_ok {s : State} {c : Ctx} {card : Card} (hx : s.extentsOk c .execute card = true)
    (hz : zeroAt (c.scratch.read (64 * lineOf c.arch.execute.ix (fld card 111 92)) 64) 40 24 = true) :
    s.runKeyLoad c card = (s.mapCtx c.job c.position (Ctx.pastKeyLoad card
      (slice (c.scratch.read (64 * lineOf c.arch.execute.ix (fld card 111 92)) 64) 0 32)
      (BitVec.ofNat 64 (le (c.scratch.read (64 * lineOf c.arch.execute.ix (fld card 111 92)) 64) 32 8)))).charge
        c.job c.position [.execute] 40 40 := by
  unfold State.runKeyLoad grainKey
  simp only [hx, hz]
  rfl

/-- Settles O31: a KNOT and a GRAIN key load leave what their functions make of the context. -/
theorem knotAndKeyLoadComplete : Obligations.KnotAndKeyLoadComplete := by
  unfold Obligations.KnotAndKeyLoadComplete
  intro s loom slot c card
  refine ⟨?knot, ?keyLoad⟩
  case knot =>
    intro k h hop hk
    refine leaves_mono (leaves_knot h hop hk) fun t c' ⟨d, hc, hp⟩ => ?_
    obtain ⟨_, _, _, _, _, _, _, _, _, rfl⟩ := hc
    obtain ⟨_, _, _, _, rfl⟩ := hp
    refine ⟨rfl, rfl, rfl, rfl, rfl, rfl, rfl, rfl, rfl, rfl, rfl, ?_, rfl⟩
    intro l hl
    simp only [Ctx.pastKnot, ← List.map_append, List.mem_map] at hl
    obtain ⟨_, _, rfl⟩ := hl
    exact ⟨rfl, rfl, rfl⟩
  case keyLoad =>
    intro key step h hop hm hx
    dsimp only
    intro hz hkey hstep
    subst hkey hstep
    refine leaves_mono (leaves_mapCtx_charge h (k := .grainKeyLoad loom slot) rfl (by simp [isOp_of_eq hop, hm])
      (f := Ctx.pastKeyLoad card _ _) (fun _ => ⟨rfl, rfl⟩) (State.runKeyLoad_ok hx hz)) fun t c' ⟨hc, hmem⟩ => ?_
    obtain ⟨_, _, _, _, _, _, _, _, _, rfl⟩ := hc
    unfold Ctx.pastKeyLoad Arch.signalled
    by_cases hs : sigOf card = true <;> simp [hs, hmem, Arch.next, Arch.mapEng, Arch.mapTokens]

/-! ### An execute card with an illegal extent (R98, R124) -/

/-- R98, R124, R390: an execute card with an illegal extent ends its job at once where no transfer is outstanding. -/
theorem execute_stops {s : State} {loom slot : Nat} {c : Ctx} {card : Card} {j : Job} (h : Chooses s loom slot .execute c card)
    {i : Instr} {kind : Card → Bool} {run : State → Ctx → Card → State}
    (hexec : exec i s = .next (s.cardEvent loom slot .execute kind run)) (hk : kind card = true)
    (hrun : run (issued s loom slot .execute c card) c card
      = (issued s loom slot .execute c card).stopCard c .execute c.arch.execute.card .badParam)
    (hj : s.job? c.job = some j) (hp : j.phrase = none)
    (hx : ∀ x ∈ s.sched.transfers, x.job = c.job → x.outstanding = false) :
    ∃ t j', exec i s = .next t ∧ t.job? c.job = some j' ∧ j'.ready = true ∧ j'.endStatus = .badParam ∧ j'.result = []
      ∧ j'.faultPos = BitVec.ofNat 16 c.position ∧ j'.faultEngine = 1
      ∧ j'.faultCard = BitVec.ofNat 64 c.arch.execute.card ∧ ∀ p, t.ctx? c.job p = none := by
  obtain ⟨j', hj', hs⟩ := job_of_chooses h
  cases hj'.symm.trans hj
  obtain ⟨k, hk', hready, hstatus, hresult, hpos, heng, hcard, hctx⟩ := State.stopCard_ends (s := issued s loom slot .execute c card)
    (c := c) (st := .badParam) .execute c.arch.execute.card (by decide) ((issued_job? s loom slot .execute c card c.job).trans hj) hs hp
    (by rw [issued_transfers]; exact hx)
  have hpass := State.refresh_passes (run (issued s loom slot .execute c card) c card) loom
  refine ⟨_, k, hexec.trans (congrArg Host.Outcome.next (State.cardEvent_of_chooses h hk run)), ?_, hready, hstatus, hresult, hpos,
    heng, hcard, fun p => hpass.ctx?_none ?_⟩
  · rw [hpass.job?, hrun, hk']
  · rw [hrun, hctx p]

/-- R98, R124: a GRAIN key load with an illegal extent stops its context. -/
theorem State.runKeyLoad_bad {s : State} {c : Ctx} {card : Card} (h : s.extentsOk c .execute card = false) :
    s.runKeyLoad c card = s.stopCard c .execute c.arch.execute.card .badParam := by
  simp [State.runKeyLoad, h]

/-- Settles O57: each execute card with an illegal extent stops its context, and the job ends at once. -/
theorem executeCardStops : Obligations.ExecuteCardStops := by
  unfold Obligations.ExecuteCardStops
  intro s loom slot c card j i h hi hx hj _ hp ht
  have stops : ∀ {k : Instr} {kind : Card → Bool} {run : Card → CardIn → Except Status CardOut},
      exec k s = .next (s.cardEvent loom slot .execute kind (State.runExec run)) → kind card = true → _ :=
    fun {k kind run} hexec hk => execute_stops h (i := k) hexec hk (State.runExec_bad hx run) hj hp ht
  simp only [List.mem_cons, Prod.mk.injEq, List.not_mem_nil, or_false] at hi
  rcases hi with ⟨rfl, hop⟩ | ⟨rfl, hop⟩ | ⟨rfl, hop⟩ | ⟨rfl, hop⟩ | ⟨rfl, hop⟩ | ⟨rfl, hop⟩ | ⟨rfl, hop⟩ | ⟨rfl, hop⟩ | ⟨rfl, hop⟩
    | ⟨rfl, hop⟩ | ⟨rfl, hop⟩
  case inr.inr.inr.inr.inr.inr.inr.inr.inr.inl =>
    by_cases hm : fld card 65 63 = 0
    · rw [if_pos hm]
      exact execute_stops h rfl (by simp [isOp_of_eq hop, hm]) (State.runKeyLoad_bad hx) hj hp ht
    · rw [if_neg hm]
      exact stops rfl (by simp [isOp_of_eq hop, hm])
  all_goals exact stops rfl (isOp_of_eq hop)

end Sys2Proof.Machine
end


section
/-!
PROOF. A card changes no context but its own: each card's own part either stops the job or changes the context and the charge of its
job alone.
-/
namespace Sys2Proof.Machine

open Sys2Proof Sys2Proof.Safety

/-- Two states that differ in one context, its job and new transfers alone. -/
def OwnOnly (c : Ctx) (s t : State) : Prop :=
  (∃ js cs more, t = { s with sched := { s.sched with jobs := js, ctxs := cs, transfers := s.sched.transfers ++ more } })
    ∧ (∀ id, id ≠ c.job → t.job? id = s.job? id)
    ∧ ∀ job p, (job, p) ≠ (c.job, c.position) → t.ctx? job p = s.ctx? job p

theorem OwnOnly.refl (c : Ctx) (s : State) : OwnOnly c s s :=
  ⟨⟨s.sched.jobs, s.sched.ctxs, [], by rw [List.append_nil]⟩, fun _ _ => rfl, fun _ _ _ => rfl⟩

theorem OwnOnly.trans {c : Ctx} {s t u : State} (h1 : OwnOnly c s t) (h2 : OwnOnly c t u) : OwnOnly c s u := by
  obtain ⟨⟨js, cs, more, rfl⟩, hj, hc⟩ := h1
  obtain ⟨⟨js', cs', more', rfl⟩, hj', hc'⟩ := h2
  refine ⟨⟨js', cs', more ++ more', ?_⟩, fun id hid => (hj' id hid).trans (hj id hid),
    fun job p hp => (hc' job p hp).trans (hc job p hp)⟩
  rw [← List.append_assoc]

/-- A change of the context itself. -/
theorem OwnOnly.mapCtx {c : Ctx} (s : State) {f : Ctx → Ctx} (hf : ∀ c, (f c).job = c.job ∧ (f c).position = c.position) :
    OwnOnly c s (s.mapCtx c.job c.position f) :=
  ⟨⟨s.sched.jobs, _, [], by rw [List.append_nil]; rfl⟩, fun _ _ => rfl, fun _ _ hp => State.ctx?_mapCtx_of_ne s hf hp⟩

/-- A change of its job. -/
theorem OwnOnly.mapJob {c : Ctx} (s : State) {f : Job → Job} (hf : ∀ j, (f j).id = j.id) : OwnOnly c s (s.mapJob c.job f) :=
  ⟨⟨_, s.sched.ctxs, [], by rw [List.append_nil]; rfl⟩, fun _ hid => State.job?_mapJob_of_ne s hf hid, fun _ _ _ => rfl⟩

/-- R273: a charge of the context. -/
theorem OwnOnly.charge (c : Ctx) (s : State) (es : List Engine) (waves fixed : Nat) :
    OwnOnly c s (s.charge c.job c.position es waves fixed) := by
  unfold State.charge
  dsimp only
  refine OwnOnly.trans (OwnOnly.mapJob s (f := fun j => { j with
    positions := j.positions.modify c.position fun p => { p with waves := p.waves + waves } }) fun _ => rfl) ?_
  generalize (s.mapJob c.job fun j => { j with
    positions := j.positions.modify c.position fun p => { p with waves := p.waves + waves } }) = t
  split
  · exact OwnOnly.refl c t
  · next d _ =>
    refine OwnOnly.mapCtx t fun x => ?_
    obtain ⟨_, _, _, _, hp⟩ := Ctx.foldl_setPass_passed es (fun x e => x.passOf e + waves * stride (t.ctxShare d))
      (fun x e => x.blockedOf e) x
    dsimp only
    rw [hp]
    exact ⟨rfl, rfl⟩

/-- A card that changes its context and is charged. -/
theorem OwnOnly.mapCtx_charge {c : Ctx} (s : State) {f : Ctx → Ctx} (hf : ∀ c, (f c).job = c.job ∧ (f c).position = c.position)
    (es : List Engine) (waves fixed : Nat) :
    OwnOnly c s ((s.mapCtx c.job c.position f).charge c.job c.position es waves fixed) :=
  (OwnOnly.mapCtx s hf).trans (OwnOnly.charge c _ es waves fixed)

/-! ### Each card's own part -/

/-- A card's own part stops its job, or changes its own context, its job's counts and the transfers that it issues alone. -/
def StopsOrOwn (c : Ctx) (s t : State) : Prop := Stopped c.job t ∨ OwnOnly c s t

/-- R98: a card that stops. -/
theorem StopsOrOwn.stopCard (c : Ctx) (s : State) (e : Engine) (card : Nat) : StopsOrOwn c s (s.stopCard c e card .badParam) :=
  .inl (State.stopCard_stopped s c e card (by decide))

/-- R98, R103: a transfer card. -/
theorem StopsOrOwn.runTransfer (kind : XferKind) (s : State) (c : Ctx) (card : Card) :
    StopsOrOwn c s (s.runTransfer kind c card) := by
  unfold State.runTransfer
  dsimp only
  split
  · split
    · exact StopsOrOwn.stopCard c s .fetch _
    · refine .inr (OwnOnly.trans (OwnOnly.mapCtx s (f := Ctx.pastTransfer card) fun _ => ⟨rfl, rfl⟩) ?_)
      exact ⟨⟨_, _, _, rfl⟩, fun _ _ => rfl, fun _ _ _ => rfl⟩
  · exact .inr (OwnOnly.refl c s)

/-- R100: a WAIT. -/
theorem StopsOrOwn.runWait (e : Engine) (s : State) (c : Ctx) (card : Card) : StopsOrOwn c s (s.runWait e c card) := by
  unfold State.runWait
  split
  · exact .inr (OwnOnly.refl c s)
  · refine .inr (OwnOnly.mapCtx_charge s ?_ _ _ _)
    exact fun _ => ⟨rfl, rfl⟩

/-- R100: a SIGNAL. -/
theorem StopsOrOwn.runSignal (e : Engine) (s : State) (c : Ctx) (card : Card) : StopsOrOwn c s (s.runSignal e c card) := by
  unfold State.runSignal
  refine .inr (OwnOnly.mapCtx_charge s ?_ _ _ _)
  exact fun _ => ⟨rfl, rfl⟩

/-- R105: a LOOP. -/
theorem StopsOrOwn.runLoop (e : Engine) (s : State) (c : Ctx) (card : Card) : StopsOrOwn c s (s.runLoop e c card) := by
  unfold State.runLoop
  refine .inr (OwnOnly.mapCtx_charge s ?_ _ _ _)
  exact fun _ => ⟨rfl, rfl⟩

/-- R105: an END. -/
theorem StopsOrOwn.runEnd (e : Engine) (s : State) (c : Ctx) (card : Card) : StopsOrOwn c s (s.runEnd e c card) := by
  unfold State.runEnd
  refine .inr (OwnOnly.mapCtx_charge s ?_ _ _ _)
  exact fun _ => ⟨rfl, rfl⟩

/-- R101: a completed execute card. -/
theorem OwnOnly.finishExec (s : State) (c : Ctx) (card : Card) (o : CardOut) : OwnOnly c s (s.finishExec c card o) :=
  OwnOnly.mapCtx_charge s (f := Ctx.takeResults card o _) (fun _ => ⟨rfl, rfl⟩) _ _ _

/-- R98, R124: an execute card whose own checks stop it with an error, if at all. -/
theorem StopsOrOwn.runExec {run : Card → CardIn → Except Status CardOut} (hrun : ∀ card i, run card i ≠ .error .ok) (s : State)
    (c : Ctx) (card : Card) : StopsOrOwn c s (s.runExec run c card) := by
  unfold State.runExec
  split
  · exact StopsOrOwn.stopCard c s .execute _
  · split
    · next st h => exact .inl (State.stopCard_stopped s c .execute _ fun e => hrun card (s.cardIn c) (e ▸ h))
    · exact .inr (OwnOnly.finishExec s c card _)

/-- R235: a GRAIN key load. -/
theorem StopsOrOwn.runKeyLoad (s : State) (c : Ctx) (card : Card) : StopsOrOwn c s (s.runKeyLoad c card) := by
  unfold State.runKeyLoad
  split
  · exact StopsOrOwn.stopCard c s .execute _
  · split
    · exact StopsOrOwn.stopCard c s .execute _
    · exact .inr (OwnOnly.mapCtx_charge s (f := Ctx.pastKeyLoad card _ _) (fun _ => ⟨rfl, rfl⟩) _ _ _)

/-! ### The checks of the execute cards answer no OK -/

theorem runMma_error (grouped : Bool) (card : Card) (i : CardIn) : runMma grouped card i ≠ .error .ok := by
  unfold runMma
  dsimp only
  split <;> simp

theorem runScan_error (card : Card) (i : CardIn) : runScan card i ≠ .error .ok := by
  unfold runScan
  dsimp only
  split <;> simp

theorem runConv_error (card : Card) (i : CardIn) : runConv card i ≠ .error .ok := by
  unfold runConv
  dsimp only
  split
  · simp
  · split <;> simp

theorem runWiden_error (card : Card) (i : CardIn) : runWiden card i ≠ .error .ok := by
  unfold runWiden
  dsimp only
  split <;> simp

theorem runGsample_error (card : Card) (i : CardIn) : runGsample card i ≠ .error .ok := by
  unfold runGsample
  dsimp only
  split <;> simp

/-! ### The whole card -/

/-- A card of the list, by the part that it runs. -/
theorem own_of_card {s t : State} {loom slot : Nat} {e : Engine} {c : Ctx} {card : Card} (h : Chooses s loom slot e c card)
    {i : Instr} {kind : Card → Bool} {run : State → Ctx → Card → State} (hexec : exec i s = .next (s.cardEvent loom slot e kind run))
    (hk : kind card = true) (hrun : StopsOrOwn c (issued s loom slot e c card) (run (issued s loom slot e c card) c card))
    (ht : exec i s = .next t) (hgo : ∃ j, t.job? c.job = some j ∧ j.stopping = false) :
    ∃ u, OwnOnly c (issued s loom slot e c card) u ∧ PassesOnly u t := by
  have hu : t = (run (issued s loom slot e c card) c card).refresh loom := by
    rw [hexec, State.cardEvent_of_chooses h hk] at ht
    cases ht
    rfl
  have hp := State.refresh_passes (run (issued s loom slot e c card) c card) loom
  rw [← hu] at hp
  rcases hrun with hstop | hown
  · obtain ⟨j, hj, hs⟩ := hgo
    exact absurd ((hstop j ((hp.job? _).symm.trans hj)).symm.trans hs) (by decide)
  · exact ⟨_, hown, hp⟩

/-- Settles O56: what a card's own part leaves of the others, the card leaves, but for the passes of R274. -/
theorem cardsChangeOnlyTheirContext : Obligations.CardsChangeOnlyTheirContext := by
  unfold Obligations.CardsChangeOnlyTheirContext
  intro s loom slot e c card i t h hi ht hgo
  have own : ∃ u, OwnOnly c (issued s loom slot e c card) u ∧ PassesOnly u t := by
    have execute : ∀ {k : Instr} {kind : Card → Bool} {run : Card → CardIn → Except Status CardOut},
        (∀ card i, run card i ≠ .error .ok) → exec k s = .next (s.cardEvent loom slot e kind (State.runExec run)) →
        kind card = true → exec k s = .next t → ∃ u, OwnOnly c (issued s loom slot e c card) u ∧ PassesOnly u t :=
      fun hrun hexec hk hx => own_of_card h hexec hk (StopsOrOwn.runExec hrun _ c card) hx hgo
    simp only [List.mem_cons, Prod.mk.injEq, List.not_mem_nil, or_false] at hi
    rcases hi with ⟨rfl, rfl, hop⟩ | ⟨rfl, rfl, hop⟩ | ⟨rfl, rfl, hop⟩ | ⟨rfl, rfl, hop⟩ | ⟨rfl, -, hop⟩ | ⟨rfl, -, hop⟩
      | ⟨rfl, -, hop⟩ | ⟨rfl, -, hop⟩ | ⟨rfl, rfl, hop⟩ | ⟨rfl, rfl, hop⟩ | ⟨rfl, rfl, hop⟩ | ⟨rfl, rfl, hop⟩ | ⟨rfl, rfl, hop⟩
      | ⟨rfl, rfl, hop⟩ | ⟨rfl, rfl, hop⟩ | ⟨rfl, rfl, hop⟩ | ⟨rfl, rfl, hop⟩ | ⟨rfl, rfl, hop⟩ | ⟨rfl, rfl, hop⟩
    · exact own_of_card h rfl (isOp_of_eq hop) (StopsOrOwn.runTransfer _ _ c card) ht hgo
    · exact own_of_card h rfl (isOp_of_eq hop) (StopsOrOwn.runTransfer _ _ c card) ht hgo
    · exact own_of_card h rfl (isOp_of_eq hop) (StopsOrOwn.runTransfer _ _ c card) ht hgo
    · exact own_of_card h rfl (isOp_of_eq hop) (StopsOrOwn.runTransfer _ _ c card) ht hgo
    · exact own_of_card h rfl (isOp_of_eq hop) (StopsOrOwn.runWait e _ c card) ht hgo
    · exact own_of_card h rfl (isOp_of_eq hop) (StopsOrOwn.runSignal e _ c card) ht hgo
    · exact own_of_card h rfl (isOp_of_eq hop) (StopsOrOwn.runLoop e _ c card) ht hgo
    · exact own_of_card h rfl (isOp_of_eq hop) (StopsOrOwn.runEnd e _ c card) ht hgo
    · exact execute (runMma_error false) rfl (isOp_of_eq hop) ht
    · exact execute (runMma_error true) rfl (isOp_of_eq hop) ht
    · exact execute (run := runVop) (fun _ _ h => by cases h) rfl (isOp_of_eq hop) ht
    · exact execute (run := runCurve) (fun _ _ h => by cases h) rfl (isOp_of_eq hop) ht
    · exact execute (run := runReduce) (fun _ _ h => by cases h) rfl (isOp_of_eq hop) ht
    · exact execute (run := runNorm) (fun _ _ h => by cases h) rfl (isOp_of_eq hop) ht
    · exact execute runScan_error rfl (isOp_of_eq hop) ht
    · exact execute runConv_error rfl (isOp_of_eq hop) ht
    · exact execute runWiden_error rfl (isOp_of_eq hop) ht
    · by_cases hm : fld card 65 63 = 0
      · rw [if_pos hm] at ht
        exact own_of_card h rfl (by simp [isOp_of_eq hop, hm]) (StopsOrOwn.runKeyLoad _ c card) ht hgo
      · rw [if_neg hm] at ht
        exact execute (run := runGrainFill) (fun _ _ h => by cases h) rfl (by simp [isOp_of_eq hop, hm]) ht
    · exact execute runGsample_error rfl (isOp_of_eq hop) ht
  obtain ⟨u, ⟨⟨js, cs, more, hu⟩, hjobs, hctxs⟩, hpass⟩ := own
  obtain ⟨m, b, hissued⟩ := issued_frame s loom slot e c card
  refine ⟨fun job p c2 hne hc2 => ?ctxs, fun id hid => ?jobs, fun x hx => ?transfers, ?rest⟩
  case ctxs =>
    obtain ⟨d, hd, _, _, _, _, rfl⟩ := (State.refresh_passes s loom).ctx?_passed hc2
    have hsame : (issued s loom slot e c card).ctx? job p = (s.refresh loom).ctx? job p := by rw [hissued]; rfl
    obtain ⟨d', hd', _, _, _, _, rfl⟩ := hpass.ctx?_passed ((hctxs job p hne).trans (hsame.trans hd))
    exact ⟨_, hd', rfl, rfl, rfl, rfl, rfl, rfl, rfl⟩
  case jobs => rw [hpass.job?, hjobs id hid, issued_job?]
  case transfers =>
    rw [hpass.transfers, hu]
    exact List.mem_append_left _ (by rwa [issued_transfers])
  case rest =>
    obtain ⟨cs', rfl, _⟩ := hpass
    obtain ⟨cs'', hr, _⟩ := State.refresh_passes s loom
    subst hu
    refine ⟨rfl, rfl, ?_⟩
    rw [hissued, hr]
    exact ⟨rfl, rfl, rfl, rfl, rfl, rfl, rfl, rfl, rfl, rfl, rfl, rfl⟩

end Sys2Proof.Machine
end


section
/-!
PROOF. A record that reaches a frame port whose stream shares its number with an earlier stream is not appended to the earlier one's
inbox, where that holds a record of the same piece already. The statement speaks of the inbox of the stream at the port alone, but
changes the first stream of its number.
-/
namespace Sys2Proof.Machine

open Sys2Proof Sys2Proof.Safety

/-- A stream of number 3 at a frame port. -/
def streamAtPort (port : Nat) (inbox : List PortRecord) : Stream :=
  { Stream.opened 3 (ShuttleCtx.opened 77 (zeros 32) []) with port := port, inbox := inbox }

/-- A store of one record of 64 bytes to frame port 0, whose piece is on its way with tag 0. -/
def portStore : Transfer :=
  { loom := 0, job := 5, position := 0, cardIdx := 0, card := 0, kind := .store, line := 0, isStripe := false
    addr := 0x03000000000, rowBytes := 64, rows := 1, stride := 1, pieces := [⟨0, 0, 64, some 0⟩], data := [], step := 0, waves := 4
    flags := 0 }

/-- A placement alternative that names nothing. -/
def bareAlternative : Alternative := { vaultDents := 0, channels := 0, affinity := 0, dents := [] }

/-- A job whose image has that alternative alone, and runs it. -/
def portJob : Job :=
  { Job.entering 5 0 .plain with
    image := { DeckImage.none with alts := [bareAlternative] }, started := true, alternative := some 0 }

/-- The context that the store belongs to. -/
def portCtx : Ctx := Ctx.fresh 5 0 0 (Arch.initial 0 0)

/-- Two streams of number 3: the one at port 1, which comes first, holds a record of the piece; the one at port 0 holds none. -/
def sharedNumber : State :=
  { State.reset with
    sched := { Sched.fresh with jobs := [portJob], ctxs := [portCtx], transfers := [portStore] }
    audio := { Audio.fresh with streams := [streamAtPort 1 [⟨0, 0, []⟩], streamAtPort 0 []] } }

/-- Records in the inboxes of a state's streams. -/
def State.inboxLengths (s : State) : List Nat := s.audio.streams.map (·.inbox.length)

/-- The piece changes no inbox: that of the first stream of number 3 holds its record already. -/
theorem sharedNumber_keeps :
    ∃ t, exec (.pieceComplete 0 ⟨0, 0⟩) sharedNumber = .next t ∧ t.inboxLengths = [1, 0] :=
  ⟨_, rfl, by decide +kernel⟩

/-- Refutes O33: of two streams that share a number the record is taken to the first, which holds one of the piece, and so it is not
appended, while the inbox at the port itself is empty. -/
theorem not_piecesComplete : ¬ Obligations.PiecesComplete := by
  unfold Obligations.PiecesComplete
  intro h
  have hpieces := (h sharedNumber 0 0 (by decide +kernel)).2
  have hport := (hpieces portStore ⟨0, 0, 64, some 0⟩ bareAlternative portCtx (.frame 0 0) 0 (by decide +kernel) (by decide +kernel)
    (by decide +kernel) (by decide +kernel) (by decide +kernel)).2.2 (.inl rfl)
  have happended := hport.2.1 0 0 (streamAtPort 0 []) rfl (by decide +kernel) (fun q hq => by cases hq)
  obtain ⟨t, ht, hlengths⟩ := sharedNumber_keeps
  cases happended.symm.trans ht
  exact absurd hlengths (by decide +kernel)

end Sys2Proof.Machine
end


section
/-!
PROOF. What blocks and messages of the links change: the links and the output alone, whatever the scheduler holds, and never the
link streams of a port.
-/
namespace Sys2Proof.Machine

open Sys2Proof Sys2Proof.Safety

/-! ### Blocks change the links and the output alone -/

theorem OutputOnly.messageBy (s : State) (n device mtype dport : Nat) (lsid tag : Byte) (seq : Word) (body : List Byte) :
    OutputOnly s (s.messageBy n device mtype dport lsid tag seq body) :=
  (OutputOnly.mapPort s n _).trans (OutputOnly.pump _ _ _)

theorem OutputOnly.mapBinding (s : State) (n : Nat) (f : Binding → Binding) : OutputOnly s (s.mapBinding n f) := rfl

theorem OutputOnly.mapLinkStream (s : State) (n : Nat) (lsid : Byte) (f : LinkStream → LinkStream) :
    OutputOnly s (s.mapLinkStream n lsid f) := rfl

/-- R314: one block for one end. -/
theorem OutputOnly.sendBlock (s : State) (b : Binding) (e : BindEnd) (blk : Word × Byte × List Byte × List Byte) :
    OutputOnly s (s.sendBlock b e blk) := by
  unfold State.sendBlock
  dsimp only
  split
  · exact (OutputOnly.sendMessage s _ _ _ _ _ _ _ _ _).trans (OutputOnly.sendMessage _ _ _ _ _ _ _ _ _ _)
  · exact OutputOnly.sendMessage s _ _ _ _ _ _ _ _ _

/-- R319: one block for the ends behind a port. -/
theorem OutputOnly.sendGroup (s : State) (b : Binding) (n : Nat) (blk : Word × Byte × List Byte × List Byte) :
    OutputOnly s (s.sendGroup b n blk) := by
  unfold State.sendGroup
  dsimp only
  split
  · exact (OutputOnly.messageBy s _ _ _ _ _ _ _ _).trans (OutputOnly.messageBy _ _ _ _ _ _ _ _ _)
  · exact OutputOnly.messageBy s _ _ _ _ _ _ _ _

/-- R319: how a block leaves by one port. -/
def State.sendVia (far : List BindEnd) (b : Binding) (blk : Word × Byte × List Byte × List Byte) (s : State) (n : Nat) : State :=
  match far.filter fun e => e.via == some n with
  | [e] => s.sendBlock b e blk
  | _ => s.sendGroup b n blk

theorem OutputOnly.sendVia (far : List BindEnd) (b : Binding) (blk : Word × Byte × List Byte × List Byte) (s : State) (n : Nat) :
    OutputOnly s (State.sendVia far b blk s n) := by
  unfold State.sendVia
  split
  · exact OutputOnly.sendBlock s _ _ _
  · exact OutputOnly.sendGroup s _ _ _

/-- R319: the copies of a block. -/
theorem State.sendCopies_eq (s : State) (b : Binding) (ends : List BindEnd) (blk : Word × Byte × List Byte × List Byte) :
    s.sendCopies b ends blk = (((ends.filter fun e => e.device != s.deviceNo).filterMap (·.via)).eraseDups).foldl
      (State.sendVia (ends.filter fun e => e.device != s.deviceNo) b blk)
      ((ends.filter fun e => e.device == s.deviceNo).foldl (fun s e => s.sendBlock b e blk) s) := rfl

theorem OutputOnly.sendCopies (s : State) (b : Binding) (ends : List BindEnd) (blk : Word × Byte × List Byte × List Byte) :
    OutputOnly s (s.sendCopies b ends blk) := by
  rw [State.sendCopies_eq]
  exact (OutputOnly.foldl (fun s e => OutputOnly.sendBlock s b e blk) _ s).trans
    (OutputOnly.foldl (OutputOnly.sendVia _ b blk) _ _)

/-- R189: a block that enters the store. -/
theorem OutputOnly.enterBlock (s : State) (b : Binding) (body record : List Byte) : OutputOnly s (s.enterBlock b body record) := by
  unfold State.enterBlock
  dsimp only
  exact ((OutputOnly.mapBinding s _ _).trans (OutputOnly.mapPort _ _ _)).trans (OutputOnly.sendCopies _ _ _ _)

/-- R321: what is told of the ends that are attached. -/
theorem OutputOnly.tellAttached (s : State) (b b' : Binding) : OutputOnly s (s.tellAttached b b') :=
  OutputOnly.foldl (fun s _ => OutputOnly.tellAll s _) _ s

/-- R321: the room made in a store. -/
theorem OutputOnly.makeRoom (fuel port bytes : Nat) (left : List BindEnd) (s : State) {r : State × List BindEnd}
    (h : State.makeRoom fuel port bytes left s = some r) : OutputOnly s r.1 := by
  induction fuel generalizing left s with
  | zero => cases h
  | succ n ih =>
    unfold State.makeRoom at h
    split at h
    · cases h
      exact OutputOnly.refl s
    · obtain ⟨x, _, h⟩ := Option.bind_eq_some_iff.1 h
      obtain ⟨y, _, h⟩ := Option.bind_eq_some_iff.1 h
      exact ((OutputOnly.mapBinding s _ _).trans (OutputOnly.tellLeft _ _ _)).trans (ih _ _ h)

/-- R189, R321: the state in which a block can enter. -/
theorem OutputOnly.enterPlan {s t : State} {b b' : Binding} {bytes : Nat} {left : List BindEnd}
    (h : s.enterPlan b bytes = some (t, b', left)) : OutputOnly s t := by
  unfold State.enterPlan at h
  obtain ⟨k, _, h⟩ := Option.bind_eq_some_iff.1 h
  obtain ⟨r, hr, h⟩ := Option.bind_eq_some_iff.1 h
  obtain ⟨_, _, h⟩ := Option.map_eq_some_iff.1 h
  cases h
  exact ((OutputOnly.mapBinding s _ _).trans (OutputOnly.tellAttached _ _ _)).trans (OutputOnly.makeRoom _ _ _ _ _ hr)

/-- R184: a loaded window. -/
theorem OutputOnly.loadWindow (s : State) (card : Card) (regs : List ScaleReg) : OutputOnly s (s.loadWindow card regs) := by
  unfold State.loadWindow
  split
  · next h =>
    split
    · exact OutputOnly.refl s
    · exact (OutputOnly.mapPort s _ _).trans (OutputOnly.mapLinkStream _ _ _ _)

/-! ### The scheduler is not looked at -/

/-- The state with another scheduler. -/
def State.withSched (s : State) (x : Sched) : State := { s with sched := x }

theorem State.pump_withSched (x : Sched) (fuel n : Nat) (s : State) :
    State.pump fuel n (s.withSched x) = (State.pump fuel n s).withSched x := by
  induction fuel generalizing s with
  | zero => rfl
  | succ k ih =>
    unfold State.pump
    have hport : (s.withSched x).port n = s.port n := rfl
    have hsends : (s.withSched x).portSends n = s.portSends n := rfl
    dsimp only
    rw [hport, hsends]
    split
    · rfl
    · split
      · rfl
      · next f _ => exact ih ((s.emitFlit n ((s.port n).dataFlit (s.port n).txSeq f)).mapPort n fun p => p.sent f)

theorem State.queueFlits_withSched (x : Sched) (s : State) (n : Nat) (fs : List TxFlit) :
    (s.withSched x).queueFlits n fs = (s.queueFlits n fs).withSched x :=
  State.pump_withSched x _ n (s.mapPort n fun p => { p with queue := p.queue ++ fs })

theorem State.messageBy_withSched (x : Sched) (s : State) (n device mtype dport : Nat) (lsid tag : Byte) (seq : Word)
    (body : List Byte) : (s.withSched x).messageBy n device mtype dport lsid tag seq body
      = (s.messageBy n device mtype dport lsid tag seq body).withSched x :=
  State.queueFlits_withSched x s n _

theorem State.sendMessage_withSched (x : Sched) (s : State) (via : Option Nat) (odd : Bool) (device mtype dport : Nat)
    (lsid tag : Byte) (seq : Word) (body : List Byte) :
    (s.withSched x).sendMessage via odd device mtype dport lsid tag seq body
      = (s.sendMessage via odd device mtype dport lsid tag seq body).withSched x := by
  unfold State.sendMessage
  have hroute : (s.withSched x).routePort device odd = s.routePort device odd := rfl
  have hown : (s.withSched x).ownNumber = s.ownNumber := rfl
  rw [hroute, hown]
  split
  · rfl
  · split
    · exact State.messageBy_withSched x s _ _ _ _ _ _ _ _
    · rfl

theorem State.sendBlock_withSched (x : Sched) (b : Binding) (blk : Word × Byte × List Byte × List Byte) (s : State) (e : BindEnd) :
    (s.withSched x).sendBlock b e blk = (s.sendBlock b e blk).withSched x := by
  unfold State.sendBlock
  dsimp only
  split
  · rw [State.sendMessage_withSched, State.sendMessage_withSched]
  · rw [State.sendMessage_withSched]

theorem State.sendGroup_withSched (x : Sched) (s : State) (b : Binding) (n : Nat) (blk : Word × Byte × List Byte × List Byte) :
    (s.withSched x).sendGroup b n blk = (s.sendGroup b n blk).withSched x := by
  unfold State.sendGroup
  dsimp only
  have hfar : farEnd (s.withSched x).links.devices (s.withSched x).deviceNo n = farEnd s.links.devices s.deviceNo n := rfl
  rw [hfar]
  split
  · rw [State.messageBy_withSched, State.messageBy_withSched]
  · rw [State.messageBy_withSched]

theorem State.sendVia_withSched (x : Sched) (far : List BindEnd) (b : Binding) (blk : Word × Byte × List Byte × List Byte) (s : State)
    (n : Nat) : State.sendVia far b blk (s.withSched x) n = (State.sendVia far b blk s n).withSched x := by
  unfold State.sendVia
  split
  · exact State.sendBlock_withSched x b blk s _
  · exact State.sendGroup_withSched x s b n blk

/-- What each step leaves of the scheduler, their fold leaves. -/
theorem State.foldl_withSched {α : Type} (x : Sched) {f : State → α → State}
    (h : ∀ s a, f (s.withSched x) a = (f s a).withSched x) (l : List α) (s : State) :
    l.foldl f (s.withSched x) = (l.foldl f s).withSched x := by
  induction l generalizing s with
  | nil => rfl
  | cons a l ih => rw [List.foldl_cons, List.foldl_cons, h, ih]

theorem State.sendCopies_withSched (x : Sched) (s : State) (b : Binding) (ends : List BindEnd)
    (blk : Word × Byte × List Byte × List Byte) :
    (s.withSched x).sendCopies b ends blk = (s.sendCopies b ends blk).withSched x := by
  have hdev : (s.withSched x).deviceNo = s.deviceNo := rfl
  rw [State.sendCopies_eq, State.sendCopies_eq, hdev, State.foldl_withSched x (State.sendBlock_withSched x b blk),
    State.foldl_withSched x (State.sendVia_withSched x _ b blk)]

/-- R189: the state in which a block is in the store, and has not left. -/
def State.stored (s : State) (b : Binding) (body record : List Byte) : State :=
  let blk := (b.nextSeq, if b.narrowed then b.tag else 0, body, record)
  let b' := { b with
    store := b.store ++ [blk], nextSeq := b.nextSeq + 1, tag := b.tag + 1, recvs := b.recvs.map (s.rerouted b) }
  let s := s.mapBinding b.number fun _ => b'.settle
  let kept := fun (x : Nat × Word) => (s.binding? x.1).any fun o => o.store.any fun e => e.1 == x.2
  s.mapPort b.send.port fun p => { p with entered := p.entered.filter kept ++ [(b.number, b.nextSeq)] }

/-- R189: a block enters the store, and its copies leave. -/
theorem State.enterBlock_eq (s : State) (b : Binding) (body record : List Byte) :
    s.enterBlock b body record = (s.stored b body record).sendCopies b
      ((b.recvs.map (s.rerouted b)).filter fun e => e.live && e.attached)
      (b.nextSeq, if b.narrowed then b.tag else 0, body, record) := rfl

/-- R189: a block enters the store whatever the scheduler holds. -/
theorem State.enterBlock_withSched (x : Sched) (s : State) (b : Binding) (body record : List Byte) :
    (s.withSched x).enterBlock b body record = (s.enterBlock b body record).withSched x := by
  have hstored : (s.withSched x).stored b body record = (s.stored b body record).withSched x := rfl
  have hends : (s.withSched x).rerouted b = s.rerouted b := rfl
  rw [State.enterBlock_eq, State.enterBlock_eq, hstored, hends, State.sendCopies_withSched]

/-- R184: a window is loaded whatever the scheduler holds. -/
theorem State.loadWindow_withSched (x : Sched) (s : State) (card : Card) (regs : List ScaleReg) :
    (s.withSched x).loadWindow card regs = (s.loadWindow card regs).withSched x := by
  unfold State.loadWindow
  split
  · next port lsid h =>
    have hstream : (s.withSched x).linkStream? port lsid = s.linkStream? port lsid := rfl
    rw [hstream]
    split <;> rfl

/-! ### Messages leave the link streams -/

/-- Two states whose ports have the same link streams. -/
def StreamsKept (s t : State) : Prop := ∀ n, (t.port n).streams = (s.port n).streams

theorem StreamsKept.trans {s t u : State} (h1 : StreamsKept s t) (h2 : StreamsKept t u) : StreamsKept s u :=
  fun n => (h2 n).trans (h1 n)

theorem StreamsKept.linkStream? {s t : State} (h : StreamsKept s t) (n : Nat) (lsid : Byte) :
    t.linkStream? n lsid = s.linkStream? n lsid := by
  unfold State.linkStream?
  rw [h n]

/-- A port after a change of a port. -/
theorem State.port_mapPort (s : State) (n k : Nat) (f : Selvage → Selvage) :
    (s.mapPort n f).port k = if n = k ∧ k < s.links.ports.length then f (s.port k) else s.port k := by
  unfold State.port State.mapPort
  by_cases hk : k < s.links.ports.length
  · by_cases hn : n = k <;> simp [hn, hk]
  · simp [hk]

/-- A change of a port that leaves its link streams. -/
theorem StreamsKept.mapPort (s : State) (n : Nat) {f : Selvage → Selvage} (hf : ∀ p, (f p).streams = p.streams) :
    StreamsKept s (s.mapPort n f) := fun k => by
  rw [State.port_mapPort]
  split
  · rw [hf]
  · rfl

theorem StreamsKept.pump (fuel n : Nat) (s : State) : StreamsKept s (State.pump fuel n s) := by
  induction fuel generalizing s with
  | zero => exact fun _ => rfl
  | succ k ih =>
    unfold State.pump
    dsimp only
    split
    · exact fun _ => rfl
    · split
      · exact fun _ => rfl
      · next f _ =>
        exact (StreamsKept.mapPort (s.emitFlit n _) n (f := fun p => p.sent f) fun _ => rfl).trans (ih _)

theorem StreamsKept.queueFlits (s : State) (n : Nat) (fs : List TxFlit) : StreamsKept s (s.queueFlits n fs) :=
  (StreamsKept.mapPort s n (f := fun p => { p with queue := p.queue ++ fs }) fun _ => rfl).trans (StreamsKept.pump _ n _)

theorem StreamsKept.sendMessage (s : State) (via : Option Nat) (odd : Bool) (device mtype dport : Nat) (lsid tag : Byte)
    (seq : Word) (body : List Byte) : StreamsKept s (s.sendMessage via odd device mtype dport lsid tag seq body) := by
  unfold State.sendMessage
  split
  · refine StreamsKept.mapPort s _ ?_
    exact fun _ => rfl
  · split
    · next n _ => exact StreamsKept.queueFlits s n _
    · exact fun _ => rfl

/-- A link stream after its change; a port that is not there has none. -/
theorem State.linkStream?_mapLinkStream {s : State} {n : Nat} {lsid : Byte} {t : LinkStream} (h : s.linkStream? n lsid = some t)
    {f : LinkStream → LinkStream} (hf : ∀ t, (f t).lsid = t.lsid) : (s.mapLinkStream n lsid f).linkStream? n lsid = some (f t) := by
  have hn : n < s.links.ports.length := by
    by_contra hn
    rw [State.linkStream?, State.port, List.getElem?_eq_none (Nat.not_lt.1 hn)] at h
    cases h
  unfold State.linkStream? State.mapLinkStream
  rw [State.port_mapPort, if_pos ⟨rfl, hn⟩]
  dsimp only
  rw [find?_modifyFirst_same fun t => by rw [hf]]
  exact congrArg (Option.map f) h

end Sys2Proof.Machine
end


section
/-!
PROOF. PEER, QSTAT and NARROW: each notes the block in the log of its end, and completes as its other cards do; what it changes of the
links is what its block, its window or its acknowledgement changes.
-/
namespace Sys2Proof.Machine

open Sys2Proof Sys2Proof.Safety

/-! ### Logs of a binding's ends -/

/-- R536: a context with a new log of a send end. -/
def Ctx.noteSend (n : Nat) (log : EndLog) (c : Ctx) : Ctx := { c with sends := c.sends.filter (fun l => l.binding != n) ++ [log] }

/-- R537: a context with a new log of a receive end. -/
def Ctx.noteRecv (n i : Nat) (log : EndLog) (c : Ctx) : Ctx :=
  { c with recvs := c.recvs.filter (fun l => !(l.binding == n && l.recvEnd == i)) ++ [log] }

/-- R536: the noted log is the end's. -/
theorem Ctx.sendLog_noteSend (c : Ctx) {n : Nat} {log : EndLog} (h : log.binding = n) : (c.noteSend n log).sendLog n = log := by
  unfold Ctx.sendLog Ctx.noteSend
  have hnone : (c.sends.filter fun l => l.binding != n).find? (fun l => l.binding == n) = none :=
    List.find?_eq_none.2 fun l hl => by simpa using (List.mem_filter.1 hl).2
  simp [List.find?_append, hnone, h]

/-- R537: the noted log is the end's. -/
theorem Ctx.recvLog_noteRecv (c : Ctx) {n i : Nat} {log : EndLog} (h : log.binding = n) (hi : log.recvEnd = i) :
    (c.noteRecv n i log).recvLog n i = log := by
  unfold Ctx.recvLog Ctx.noteRecv
  have hnone : (c.recvs.filter fun l => !(l.binding == n && l.recvEnd == i)).find?
      (fun l => l.binding == n && l.recvEnd == i) = none :=
    List.find?_eq_none.2 fun l hl => by
      have := (List.mem_filter.1 hl).2
      revert this
      cases (l.binding == n && l.recvEnd == i) <;> simp
  rw [List.find?_append, hnone]
  simp [h, hi]

/-- R536: a send end's log names its binding. -/
theorem Ctx.sendLog_binding (c : Ctx) (n : Nat) : (c.sendLog n).binding = n := by
  unfold Ctx.sendLog
  cases h : c.sends.find? fun l => l.binding == n with
  | none => rfl
  | some l => simpa using List.find?_some h

/-- R537: a receive end's log names its binding and its end. -/
theorem Ctx.recvLog_key (c : Ctx) (n i : Nat) : (c.recvLog n i).binding = n ∧ (c.recvLog n i).recvEnd = i := by
  unfold Ctx.recvLog
  cases h : c.recvs.find? fun l => l.binding == n && l.recvEnd == i with
  | none => exact ⟨rfl, rfl⟩
  | some l => simpa using List.find?_some h

/-- R536: a send end's log with one block more. -/
def EndLog.sent (log : EndLog) : EndLog := { log with since := log.since + 1, entered := max log.entered (log.since + 1) }

/-! ### PEER (R315 to R318) -/

/-- R101: a context past its PEER. -/
def Ctx.pastPeer (card : Card) (c : Ctx) : Ctx := { c with arch := (c.arch.next .fetch).signalled card }

/-- R101, R318: a PEER that completes. -/
theorem State.finishPeer_eq (s : State) (c : Ctx) (card : Card) :
    s.finishPeer c card = (s.mapCtx c.job c.position (Ctx.pastPeer card)).charge c.job c.position [.fetch]
      (peerWaves (peerBytes card)) (peerWaves (peerBytes card)) := rfl

/-- R101, R318: what a completed PEER leaves of its context. -/
theorem State.ctx?_finishPeer {s : State} {c x : Ctx} (h : s.ctx? c.job c.position = some x) (card : Card) :
    ∃ d, (s.finishPeer c card).ctx? c.job c.position = some d ∧ (x.pastPeer card).Charged d (peerWaves (peerBytes card)) := by
  rw [State.finishPeer_eq]
  exact State.ctx?_charge (State.ctx?_mapCtx_found h (f := Ctx.pastPeer card) fun _ => ⟨rfl, rfl⟩) _ _ _

/-- R101, R318: a completed PEER leaves memory and links. -/
theorem State.finishPeer_memory_links (s : State) (c : Ctx) (card : Card) :
    (s.finishPeer c card).memory = s.memory ∧ (s.finishPeer c card).links = s.links := by
  rw [State.finishPeer_eq]
  exact State.charge_memory_links _ _ _ _ _ _

/-- R101, R318: what a context that completed its PEER holds of the card. -/
def PastPeer (c : Ctx) (card : Card) (c' : Ctx) : Prop :=
  c'.arch.fetch = { c.arch.fetch with card := c.arch.fetch.card + 1 } ∧ c'.arch.execute = c.arch.execute
    ∧ c'.arch.bobbins = (if sigOf card then c.arch.bobbins.modify (bobbinOf card) (· ++ [0]) else c.arch.bobbins)
    ∧ c'.arch.waves = c.arch.waves + BitVec.ofNat 64 (16 + (max (peerBytes card) 4096 + 415) / 416)

/-- R101, R318: a context that was past its PEER and charged. -/
theorem pastPeer_of_charged {c x d : Ctx} {card : Card} (hx : x.arch = c.arch)
    (h : (x.pastPeer card).Charged d (peerWaves (peerBytes card))) : PastPeer c card d := by
  obtain ⟨_, _, _, _, _, _, _, _, _, rfl⟩ := h
  unfold PastPeer Ctx.pastPeer Arch.signalled
  rw [hx]
  by_cases hs : sigOf card = true <;>
    simp [hs, Arch.next, Arch.mapEng, Arch.mapTokens, peerWaves, ceilDiv]

/-- What a PEER whose state before its completion is `u` leaves, when the context stands in `u` as `x`. -/
theorem leaves_peer {s : State} {loom slot : Nat} {c x : Ctx} {card : Card} (h : Chooses s loom slot .fetch c card) {k : Instr}
    {kind : Card → Bool} {run : State → Ctx → Card → State} (hexec : exec k s = .next (s.cardEvent loom slot .fetch kind run))
    (hk : kind card = true) {u : State} (hrun : run (issued s loom slot .fetch c card) c card = u.finishPeer c card)
    (hu : u.ctx? c.job c.position = some x) (hx : x.arch = c.arch) :
    Leaves k s c fun t c' => PastPeer c card c' ∧ t.links = u.links ∧ t.memory = u.memory
      ∧ c'.sends = x.sends ∧ c'.recvs = x.recvs ∧ c'.scratch = x.scratch ∧ c'.stripe = x.stripe := by
  obtain ⟨d, hd, hc⟩ := State.ctx?_finishPeer hu card
  refine leaves_of_card h hexec hk (d := d) (by rw [hrun]; exact hd) fun t d' hp pd => ?_
  have hpast := pastPeer_of_charged hx (hc.passed pd)
  obtain ⟨_, _, _, _, _, _, _, _, _, rfl⟩ := hc.passed pd
  refine ⟨hpast, ?_, ?_, rfl, rfl, rfl, rfl⟩
  · rw [hp.links, hrun, (State.finishPeer_memory_links u c card).2]
  · rw [hp.memory, hrun, (State.finishPeer_memory_links u c card).1]

/-- R315, R536: a PEER send that a replay finds entered. -/
theorem State.runPeerSend_replay {s : State} {c : Ctx} {card : Card} {b : Binding}
    (hb : s.sendBinding c.job c.position (fld card 87 85) (peerLsid card) = some b) (hn : b.narrowed = false)
    (hsize : peerBytes card ≤ b.maxBlock * 64) (hreach : s.peerReach c card = true)
    (hlog : (c.sendLog b.number).since < (c.sendLog b.number).entered) :
    s.runPeerSend c card
      = (s.mapCtx c.job c.position (Ctx.noteSend b.number (c.sendLog b.number).sent)).finishPeer c card := by
  unfold State.runPeerSend
  rw [hb]
  dsimp only
  rw [if_neg (by simp [hn, hreach, Nat.not_lt.2 hsize]), if_pos hlog]
  rfl

/-- R315, R316: a PEER send whose block enters the store. -/
theorem State.runPeerSend_enter {s s2 : State} {c : Ctx} {card : Card} {b b' : Binding}
    (hb : s.sendBinding c.job c.position (fld card 87 85) (peerLsid card) = some b) (hn : b.narrowed = false)
    (hsize : peerBytes card ≤ b.maxBlock * 64) (hreach : s.peerReach c card = true)
    (hlog : (c.sendLog b.number).entered ≤ (c.sendLog b.number).since) (hend : b.ended = false)
    (hplan : s.enterPlan b (4 + peerBytes card) = some (s2, b', [])) :
    s.runPeerSend c card
      = ((s2.enterBlock b' (rawBody (fld card 36 25 + 1) (fld card 24 13 + 1) (s.peerRead c card)) []).mapCtx c.job c.position
        (Ctx.noteSend b.number (c.sendLog b.number).sent)).finishPeer c card := by
  unfold State.runPeerSend
  rw [hb]
  dsimp only
  rw [if_neg (by simp [hn, hreach, Nat.not_lt.2 hsize]), if_neg (Nat.not_lt.2 hlog), if_neg (by simp [hend]), hplan]
  rfl

/-- What leaves the device changes no context. -/
theorem OutputOnly.ctx? {s t : State} (h : OutputOnly s t) (job : Word) (pos : Nat) : t.ctx? job pos = s.ctx? job pos := by
  unfold State.ctx?
  rw [h.sched]

/-! ### Memory that a receive takes -/

/-- R261: blocks taken change the blocks in use and what was altered, alone. -/
theorem State.allocBlocks_frame (n owner : Nat) (s : State) {bs : List (Nat × Nat)} {t : State}
    (h : State.allocBlocks n owner s = some (bs, t)) :
    ∃ more al, t = { s with memory := { s.memory with blocks := s.memory.blocks ++ more, altered := al } } := by
  induction n generalizing s bs with
  | zero =>
    cases h
    exact ⟨[], t.memory.altered, by rw [List.append_nil]⟩
  | succ n ih =>
    unfold State.allocBlocks at h
    split at h
    · cases h
    · next b u hu =>
      obtain ⟨r, hr, h⟩ := Option.map_eq_some_iff.1 h
      cases h
      obtain ⟨p, _, hp⟩ := Option.map_eq_some_iff.1 hu
      obtain ⟨more, al, ht⟩ := ih u hr
      have hu' : u = (s.takeBlock p.1 owner).2 := (congrArg Prod.snd hp).symm
      refine ⟨(p.1, s.lowestFree p.1, owner) :: more, al, ?_⟩
      rw [ht, hu']
      simp [State.takeBlock]

/-- R537: a log with a block more changes the blocks in use alone, and counts the block. -/
theorem State.logBlock_frame (s : State) (log : EndLog) (block : List Byte × List Byte) :
    (∃ more al, (s.logBlock log block).2
        = { s with memory := { s.memory with blocks := s.memory.blocks ++ more, altered := al } })
      ∧ (s.logBlock log block).1.binding = log.binding ∧ (s.logBlock log block).1.recvEnd = log.recvEnd
      ∧ (s.logBlock log block).1.since = log.since + 1 ∧ (s.logBlock log block).1.entered = log.entered + 1 := by
  have same : ∃ more al, s = { s with memory := { s.memory with blocks := s.memory.blocks ++ more, altered := al } } :=
    ⟨[], s.memory.altered, by rw [List.append_nil]⟩
  unfold State.logBlock
  dsimp only
  split
  · exact ⟨same, rfl, rfl, rfl, rfl⟩
  · split
    · exact ⟨same, rfl, rfl, rfl, rfl⟩
    · next h => exact ⟨State.allocBlocks_frame _ 0 s h, rfl, rfl, rfl, rfl⟩

/-- R383: bytes written at a location change the vaults and the channels alone. -/
theorem State.writeLoc_frame (s : State) (l : Loc) (bs : List Byte) :
    ∃ v e, s.writeLoc l bs = { s with memory := { s.memory with vault := v, ext := e } } := by
  cases l <;> exact ⟨_, _, rfl⟩

/-- R315: bytes that a job writes change the vaults and the channels alone. -/
theorem State.writeDevice_frame (s : State) (a : Alternative) (addr : Nat) (bs : List Byte) :
    ∃ v e, s.writeDevice a addr bs = { s with memory := { s.memory with vault := v, ext := e } } := by
  unfold State.writeDevice
  generalize piecesOfRow addr bs.length = l
  induction l generalizing s with
  | nil => exact ⟨s.memory.vault, s.memory.ext, rfl⟩
  | cons p l ih =>
    rw [List.foldl_cons]
    cases s.locate a none (addr + p.1) with
    | none => exact ih s
    | some loc =>
      obtain ⟨v, e, h⟩ := s.writeLoc_frame loc (slice bs p.1 p.2)
      obtain ⟨v', e', h'⟩ := ih (s.writeLoc loc (slice bs p.1 p.2))
      exact ⟨v', e', by rw [h', h]⟩

/-- R315: a received block changes the vaults, the channels or the lines of its context alone. -/
theorem State.peerWrite_frame {s : State} {c : Ctx} (h : s.ctx? c.job c.position = some c) (card : Card) (bs : List Byte) :
    (∃ v e cs, s.peerWrite c card bs
        = { s with memory := { s.memory with vault := v, ext := e }, sched := { s.sched with ctxs := cs } })
      ∧ ∃ x, (s.peerWrite c card bs).ctx? c.job c.position = some x ∧ x.arch = c.arch ∧ x.recvs = c.recvs := by
  unfold State.peerWrite
  dsimp only
  split
  · cases (s.job? c.job).bind Job.alt with
    | none => exact ⟨⟨_, _, _, rfl⟩, c, h, rfl, rfl⟩
    | some a =>
      obtain ⟨v, e, hw⟩ := s.writeDevice_frame a (peerAddr c card) bs
      simp only [Option.elim_some]
      rw [hw]
      exact ⟨⟨v, e, s.sched.ctxs, rfl⟩, c, h, rfl, rfl⟩
  · refine ⟨⟨_, _, _, rfl⟩, _, State.ctx?_mapCtx_found h ?_, ?_, ?_⟩
    · intro c
      unfold Ctx.mapLines
      split <;> exact ⟨rfl, rfl⟩
    · unfold Ctx.mapLines
      split <;> rfl
    · unfold Ctx.mapLines
      split <;> rfl

/-- R316: an acknowledgement, where the binding is not narrowed. -/
def State.acked (s : State) (b : Binding) (k : Nat) (seq : Word) : State :=
  if b.narrowed then s else (b.recvs[k]?).elim s fun e => s.sendAck b e seq

theorem OutputOnly.acked (s : State) (b : Binding) (k : Nat) (seq : Word) : OutputOnly s (s.acked b k seq) := by
  unfold State.acked
  split
  · exact OutputOnly.refl s
  · cases b.recvs[k]? with
    | none => exact OutputOnly.refl s
    | some e => exact OutputOnly.sendMessage s _ _ _ _ _ _ _ _ _

theorem StreamsKept.acked (s : State) (b : Binding) (k : Nat) (seq : Word) : StreamsKept s (s.acked b k seq) := by
  unfold State.acked
  split
  · exact fun _ => rfl
  · cases b.recvs[k]? with
    | none => exact fun _ => rfl
    | some e => exact StreamsKept.sendMessage s _ _ _ _ _ _ _ _ _

/-- R191: the oldest block of a link stream gone. -/
def LinkStream.taken (t : LinkStream) : LinkStream := { t with ready := t.ready.drop 1 }

/-- R315, R316: the state in which a receive has written its block and acknowledged it. -/
def State.received (s : State) (c : Ctx) (card : Card) (bs : List Byte) (b : Binding) (k : Nat) (seq : Word) : State :=
  ((s.peerWrite c card bs).mapLinkStream (fld card 87 85) (peerLsid card) LinkStream.taken).acked b k seq

/-- R191, R315 to R317: a PEER receive that takes the oldest block. -/
theorem State.runPeerReceive_take {s : State} {c : Ctx} {card : Card} {b : Binding} {k : Nat} {t0 : LinkStream} {seq : Word}
    {data record bs : List Byte} (hb : s.recvBinding c.job c.position (fld card 87 85) (peerLsid card) = some (b, k))
    (hn : b.narrowed = card.getLsbD 88) (hreach : s.peerReach c card = true)
    (hlog : (c.recvLog b.number k).entered ≤ (c.recvLog b.number k).since)
    (ht : s.linkStream? (fld card 87 85) (peerLsid card) = some t0) (hready : t0.ready.head? = some (seq, data, record))
    (hbs : receiveBytes card b.narrowed (data, record) = some bs) :
    s.runPeerReceive c card = (((s.received c card bs b k seq).logBlock (c.recvLog b.number k) (data, record)).2.mapCtx c.job
      c.position (Ctx.noteRecv b.number k
        ((s.received c card bs b k seq).logBlock (c.recvLog b.number k) (data, record)).1)).finishPeer c card := by
  unfold State.runPeerReceive
  dsimp only
  rw [hb]
  dsimp only
  rw [if_neg (by simp [hn, hreach]), if_neg (Nat.not_lt.2 hlog), ht]
  simp only [Option.bind_some, hready, hbs]
  rfl

/-! ### QSTAT and NARROW (R179 to R189) -/

/-- R179: a context that has left its Scale unit. -/
def State.leftScale (s : State) (c : Ctx) : Sched :=
  { s.sched with scale := s.sched.scale.filter fun q => q.2 != (c.job, c.position) }

/-- R179: a card in progress behind an earlier arrival changes the Scale units' order alone, and is in it. -/
theorem State.enterScale_frame (s : State) (port : Nat) (c : Ctx) :
    (∃ q, s.enterScale port c = { s with sched := { s.sched with scale := q } })
      ∧ ∃ q ∈ (s.enterScale port c).sched.scale, q.2 = (c.job, c.position) := by
  unfold State.enterScale
  split
  · next h =>
    obtain ⟨q, hq, e⟩ := List.any_eq_true.1 h
    exact ⟨⟨_, rfl⟩, q, hq, by simpa using e⟩
  · exact ⟨⟨_, rfl⟩, (port, c.job, c.position), List.mem_append_right _ (List.mem_singleton_self _), rfl⟩

/-- R179: what a QSTAT or NARROW that waits at its Scale unit leaves. -/
theorem leaves_enterScale {s : State} {loom slot : Nat} {c : Ctx} {card : Card} (h : Chooses s loom slot .execute c card)
    {k : Instr} {kind : Card → Bool} {run : State → Ctx → Card → State}
    (hexec : exec k s = .next (s.cardEvent loom slot .execute kind run)) (hk : kind card = true) {port : Nat}
    (hrun : run (issued s loom slot .execute c card) c card = (issued s loom slot .execute c card).enterScale port c) :
    Leaves k s c fun t c' => c'.arch = c.arch ∧ c'.scratch = c.scratch ∧ t.links = (issued s loom slot .execute c card).links
      ∧ t.memory = (issued s loom slot .execute c card).memory ∧ ∃ q ∈ t.sched.scale, q.2 = (c.job, c.position) := by
  obtain ⟨⟨q, hq⟩, hmem⟩ := (issued s loom slot .execute c card).enterScale_frame port c
  refine leaves_of_card h hexec hk (d := c) (by rw [hrun, hq]; exact issued_ctx? h) fun t d' hp pd => ?_
  obtain ⟨_, _, _, _, rfl⟩ := pd
  refine ⟨rfl, rfl, ?_, ?_, ?_⟩
  · rw [hp.links, hrun, hq]
  · rw [hp.memory, hrun, hq]
  · rw [hp.scale, hrun]
    exact hmem

/-- R187: a QSTAT, and a NARROW whose window is loaded and agrees, may run. -/
theorem scaleFault_none {b : Binding} {t : LinkStream} {card : Card} {loads : Bool} (hn : b.narrowed = true)
    (hsize : fld card 79 68 + 1 ≤ t.size)
    (hloaded : loads = false → t.lost = false ∧ t.valid = true ∧ t.channels = fld card 79 68 + 1
      ∧ t.fn.toNat = fld card 63 60 ∧ t.zpm = card.getLsbD 59) : scaleFault (some b) (some t) card loads = none := by
  unfold scaleFault
  dsimp only
  rw [if_neg (by simp [hn, Nat.not_lt.2 hsize])]
  cases loads with
  | true => rfl
  | false =>
    obtain ⟨hl, hv, hc, hf, hz⟩ := hloaded rfl
    simp [hl, hv, hc, hf, hz]

/-- R179: a QSTAT whose Scale unit runs an earlier card. -/
theorem State.runQstat_waits {s : State} {c : Ctx} {card : Card} {b : Binding} {t : LinkStream}
    (hb : s.sendBinding c.job c.position (scalePort card).1 (scalePort card).2 = some b)
    (ht : s.linkStream? (scalePort card).1 (scalePort card).2 = some t) (hn : b.narrowed = true)
    (hsize : fld card 79 68 + 1 ≤ t.size) (hx : s.extentsOk c .execute card = true)
    (hu : s.unitTakes (scalePort card).1 c = false) : s.runQstat c card = s.enterScale (scalePort card).1 c := by
  unfold State.runQstat
  dsimp only
  rw [hb, ht, hx, scaleFault_none hn hsize (by simp), hu]
  rfl

/-- R182, R184: a QSTAT that its Scale unit takes. -/
theorem State.runQstat_takes {s : State} {c : Ctx} {card : Card} {b : Binding} {t : LinkStream}
    (hb : s.sendBinding c.job c.position (scalePort card).1 (scalePort card).2 = some b)
    (ht : s.linkStream? (scalePort card).1 (scalePort card).2 = some t) (hn : b.narrowed = true)
    (hsize : fld card 79 68 + 1 ≤ t.size) (hx : s.extentsOk c .execute card = true)
    (hu : s.unitTakes (scalePort card).1 c = true) :
    s.runQstat c card = ((s.withSched (s.leftScale c)).loadWindow card
      ((columns (s.scaleRows c card) (fld card 79 68 + 1)).map (channelScales (fld card 63 60) (card.getLsbD 59)))).finishExec c card
        { scratch := if card.getLsbD 27 then c.scratch.write (64 * lineOf c.arch.execute.ix (fld card 47 28))
            (statsRecord (columns (s.scaleRows c card) (fld card 79 68 + 1))) else c.scratch
          stripe := c.stripe, flags := c.arch.arithFlags } := by
  unfold State.runQstat
  dsimp only
  rw [hb, ht, hx, scaleFault_none hn hsize (by simp), hu]
  rfl

/-- R185: the registers of a NARROW: those of its own window, or those loaded. -/
def State.narrowRegs (s : State) (c : Ctx) (card : Card) (t : LinkStream) : List ScaleReg :=
  if card.getLsbD 45 then
    (columns (s.scaleRows c card) (fld card 79 68 + 1)).map (channelScales (fld card 63 60) (card.getLsbD 59))
  else s.windowRegs (scalePort card).1 t

/-- R184: a state with the window of a NARROW loaded, where its FRESH says so. -/
def State.narrowLoaded (s : State) (card : Card) (regs : List ScaleReg) : State :=
  if card.getLsbD 45 then s.loadWindow card regs else s

theorem OutputOnly.narrowLoaded (s : State) (card : Card) (regs : List ScaleReg) : OutputOnly s (s.narrowLoaded card regs) := by
  unfold State.narrowLoaded
  split
  · exact OutputOnly.loadWindow s card regs
  · exact OutputOnly.refl s

/-- R179: a NARROW whose Scale unit runs an earlier card. -/
theorem State.runNarrow_waits {s : State} {c : Ctx} {card : Card} {b : Binding} {t : LinkStream}
    (hb : s.sendBinding c.job c.position (scalePort card).1 (scalePort card).2 = some b)
    (ht : s.linkStream? (scalePort card).1 (scalePort card).2 = some t) (hx : s.extentsOk c .execute card = true)
    (hf : scaleFault (some b) (some t) card (card.getLsbD 45) = none) (hu : s.unitTakes (scalePort card).1 c = false) :
    s.runNarrow c card = s.enterScale (scalePort card).1 c := by
  unfold State.runNarrow
  dsimp only
  rw [hb, ht]
  dsimp only
  rw [hx, hf, hu]
  rfl

/-- R536: a NARROW that a replay finds entered. -/
theorem State.runNarrow_replay {s : State} {c : Ctx} {card : Card} {b : Binding} {t : LinkStream}
    (hb : s.sendBinding c.job c.position (scalePort card).1 (scalePort card).2 = some b)
    (ht : s.linkStream? (scalePort card).1 (scalePort card).2 = some t) (hx : s.extentsOk c .execute card = true)
    (hf : scaleFault (some b) (some t) card (card.getLsbD 45) = none) (hu : s.unitTakes (scalePort card).1 c = true)
    (hlog : (c.sendLog b.number).since < (c.sendLog b.number).entered) :
    s.runNarrow c card =
      State.finishNarrow ((s.narrowLoaded card (s.narrowRegs c card t)).withSched
        ((s.narrowLoaded card (s.narrowRegs c card t)).leftScale c)) c card b (s.narrowRegs c card t) true
        ((s.narrowLoaded card (s.narrowRegs c card t)).withSched ((s.narrowLoaded card (s.narrowRegs c card t)).leftScale c)) [] := by
  unfold State.runNarrow
  dsimp only
  rw [hb, ht]
  dsimp only
  rw [hx, hf, hu, if_neg (by decide)]
  dsimp only
  rw [if_neg (by decide), if_pos hlog]
  rfl

/-- R186, R189: a NARROW whose block enters the store. -/
theorem State.runNarrow_enter {s s2 : State} {c : Ctx} {card : Card} {b b' : Binding} {t : LinkStream}
    (hb : s.sendBinding c.job c.position (scalePort card).1 (scalePort card).2 = some b)
    (ht : s.linkStream? (scalePort card).1 (scalePort card).2 = some t) (hx : s.extentsOk c .execute card = true)
    (hf : scaleFault (some b) (some t) card (card.getLsbD 45) = none) (hu : s.unitTakes (scalePort card).1 c = true)
    (hlog : (c.sendLog b.number).entered ≤ (c.sendLog b.number).since) (hend : b.ended = false)
    (hplan : s.enterPlan b (narrowBytes s.live.table1 card) = some (s2, b', [])) :
    s.runNarrow c card =
      State.finishNarrow ((s2.narrowLoaded card (s.narrowRegs c card t)).withSched
        ((s2.narrowLoaded card (s.narrowRegs c card t)).leftScale c)) c card b' (s.narrowRegs c card t) false
        ((s2.narrowLoaded card (s.narrowRegs c card t)).withSched ((s2.narrowLoaded card (s.narrowRegs c card t)).leftScale c)) [] := by
  unfold State.runNarrow
  dsimp only
  rw [hb, ht]
  dsimp only
  rw [hx, hf, hu, if_neg (by decide)]
  dsimp only
  rw [if_neg (by decide), if_neg (Nat.not_lt.2 hlog), hend, hplan]
  rfl

/-- R186: the block that a NARROW of a context makes in a state. -/
def State.narrowed (s : State) (c : Ctx) (card : Card) (regs : List ScaleReg) : Narrowed :=
  narrowBlock (fld card 63 60) (card.getLsbD 59) regs (roundOf card) (satOf card)
    (fun i => srDraw (roundOf card) c.arch.key 0 c.arch.execStep.toNat 0 i) (s.scaleRows c card)

/-- R188: the results of a NARROW. -/
def narrowOut (c : Ctx) (card : Card) (w : Narrowed) : CardOut :=
  { scratch := if card.getLsbD 24 then c.scratch.write (64 * lineOf c.arch.execute.ix (fld card 44 25)) w.errorRecord
      else c.scratch
    stripe := c.stripe, flags := raiseAll c.arch.arithFlags w.flags }

/-- R186, R189: the state in which a NARROW's block is in the store, unless a replay found it entered. -/
def State.narrowStored (u : State) (s : State) (c : Ctx) (card : Card) (b : Binding) (regs : List ScaleReg) (replayed : Bool) :
    State :=
  if replayed then u
  else
    (u.enterBlock b ((s.narrowed c card regs).codes.flatMap fun row => packRow (containerOf s.live.table1 (fld card 63 60)) row)
      (scaleRecord b.tag (scalePort card).2 (fld card 63 60) (card.getLsbD 59) (s.scaleRows c card).length
        (s.narrowed c card regs).mse regs)).mapLinkStream (scalePort card).1 (scalePort card).2 fun t =>
        { t with elements := t.elements + BitVec.ofNat 64 (s.narrowed c card regs).n
                 sse := addBinary64 t.sse (s.narrowed c card regs).sse }

/-- R186 to R189: a NARROW that completes without ends that left. -/
theorem State.finishNarrow_eq (u : State) (c : Ctx) (card : Card) (b : Binding) (regs : List ScaleReg) (replayed : Bool) :
    u.finishNarrow c card b regs replayed u [] = ((u.narrowStored u c card b regs replayed).mapCtx c.job c.position
      (Ctx.noteSend b.number (c.sendLog b.number).sent)).finishExec c card (narrowOut c card (u.narrowed c card regs)) := rfl

theorem OutputOnly.narrowStored (u s : State) (c : Ctx) (card : Card) (b : Binding) (regs : List ScaleReg) (replayed : Bool) :
    OutputOnly u (u.narrowStored s c card b regs replayed) := by
  unfold State.narrowStored
  split
  · exact OutputOnly.refl u
  · exact (OutputOnly.enterBlock u _ _ _).trans (OutputOnly.mapLinkStream _ _ _ _)

/-- R189: what a NARROW stores does not depend on the scheduler. -/
theorem State.narrowStored_withSched (x : Sched) (u s : State) (c : Ctx) (card : Card) (b : Binding) (regs : List ScaleReg)
    (replayed : Bool) :
    ((u.withSched x).narrowStored s c card b regs replayed) = (u.narrowStored s c card b regs replayed).withSched x := by
  unfold State.narrowStored
  split
  · rfl
  · rw [State.enterBlock_withSched]
    rfl

/-- What a card completes with when its state before the completion is `u` and its context stands there with its own lines. -/
theorem leaves_finishExec {s : State} {loom slot : Nat} {c x : Ctx} {card : Card} (h : Chooses s loom slot .execute c card)
    {k : Instr} {kind : Card → Bool} {run : State → Ctx → Card → State}
    (hexec : exec k s = .next (s.cardEvent loom slot .execute kind run)) (hk : kind card = true) {u : State} {o : CardOut}
    (hrun : run (issued s loom slot .execute c card) c card = u.finishExec c card o) (hu : u.ctx? c.job c.position = some x)
    (hx : x.arch = c.arch ∧ x.knot = c.knot)
    (hw : u.wavesOf c .execute card = (issued s loom slot .execute c card).wavesOf c .execute card) :
    Leaves k s c fun t c' => ExecuteDone c c' card o ((issued s loom slot .execute c card).wavesOf c .execute card)
      ∧ t.links = u.links ∧ t.memory = u.memory := by
  obtain ⟨d, hd, hc⟩ := State.ctx?_charge
    (State.ctx?_mapCtx_found hu (f := Ctx.takeResults card o (if c.drawsExec card then 1 else 0))
      fun _ => ⟨rfl, rfl⟩) [.execute] (u.wavesOf c .execute card) 0
  rw [← State.finishExec_eq u c card o] at hd
  refine leaves_of_card h hexec hk (d := d) (by rw [hrun]; exact hd) fun t d' hp pd => ⟨?_, ?_, ?_⟩
  · have hd' := hc.passed pd
    rw [hw] at hd'
    obtain ⟨harch, hknot⟩ := hx
    obtain ⟨_, _, _, _, _, _, _, _, _, rfl⟩ := hd'
    unfold ExecuteDone Ctx.takeResults Arch.signalled
    dsimp only
    rw [harch, hknot]
    by_cases hs : sigOf card = true <;> simp [hs, Arch.next, Arch.mapEng, Arch.mapTokens]
  · rw [hp.links, hrun, State.finishExec_eq, (State.charge_memory_links _ _ _ _ _ _).2]
    rfl
  · rw [hp.memory, hrun, State.finishExec_eq, (State.charge_memory_links _ _ _ _ _ _).1]
    rfl

/-- What leaves the device and what the scheduler holds do not change the waves of a card. -/
theorem OutputOnly.wavesOf {s t : State} (h : OutputOnly s t) (x : Sched) (c : Ctx) (e : Engine) (card : Card) :
    (t.withSched x).wavesOf c e card = s.wavesOf c e card := by
  rw [h]
  rfl

/-- What leaves the device and what the scheduler holds do not change the rows that a Scale unit reads. -/
theorem OutputOnly.scaleRows {s t : State} (h : OutputOnly s t) (x : Sched) (c : Ctx) (card : Card) :
    (t.withSched x).scaleRows c card = s.scaleRows c card := by
  rw [h]
  rfl

/-- R186 to R189: what a NARROW leaves whose store is made in a state that differs from the issued one in its links and output alone. -/
theorem leaves_narrow {s : State} {loom slot : Nat} {c : Ctx} {card : Card} (h : Chooses s loom slot .execute c card)
    (hop : opOf card = 0x31) {u : State} {b : Binding} {regs : List ScaleReg} {replayed : Bool}
    (hu : OutputOnly (issued s loom slot .execute c card) u)
    (hrun : State.runNarrow (issued s loom slot .execute c card) c card
      = (u.withSched (u.leftScale c)).finishNarrow c card b regs replayed (u.withSched (u.leftScale c)) []) :
    Leaves (.narrow loom slot) s c fun t c' =>
      ExecuteDone c c' card (narrowOut c card ((issued s loom slot .execute c card).narrowed c card regs))
          ((issued s loom slot .execute c card).wavesOf c .execute card)
        ∧ t.memory = (issued s loom slot .execute c card).memory
        ∧ t.links = (u.narrowStored (issued s loom slot .execute c card) c card b regs replayed).links := by
  have hrows : (u.withSched (u.leftScale c)).scaleRows c card = (issued s loom slot .execute c card).scaleRows c card :=
    hu.scaleRows _ c card
  have hblock : (u.withSched (u.leftScale c)).narrowed c card regs = (issued s loom slot .execute c card).narrowed c card regs := by
    unfold State.narrowed
    rw [hrows]
  have hstored : (u.withSched (u.leftScale c)).narrowStored (u.withSched (u.leftScale c)) c card b regs replayed
      = (u.narrowStored (issued s loom slot .execute c card) c card b regs replayed).withSched (u.leftScale c) := by
    have hlive : (u.withSched (u.leftScale c)).live = (issued s loom slot .execute c card).live := hu.live
    rw [State.narrowStored_withSched]
    unfold State.narrowStored
    rw [hblock, hrows, hlive]
  have hout := hu.trans (OutputOnly.narrowStored u (issued s loom slot .execute c card) c card b regs replayed)
  have hctx : (u.withSched (u.leftScale c)).ctx? c.job c.position = some c := by
    unfold State.ctx? State.withSched State.leftScale
    dsimp only
    rw [hu.sched]
    exact issued_ctx? h
  rw [State.finishNarrow_eq, hblock, hstored] at hrun
  refine leaves_mono (leaves_finishExec h (k := .narrow loom slot) rfl (isOp_of_eq hop) hrun
    (x := c.noteSend b.number (c.sendLog b.number).sent) ?ctx ⟨rfl, rfl⟩ ?waves) fun t c' ⟨hdone, hlinks, hmem⟩ =>
      ⟨hdone, hmem.trans ?mem, hlinks⟩
  case ctx =>
    refine State.ctx?_mapCtx_found (f := Ctx.noteSend b.number (c.sendLog b.number).sent) ?_ fun _ => ⟨rfl, rfl⟩
    exact hctx
  case waves => exact hout.wavesOf (u.leftScale c) c .execute card
  case mem => exact hout.memory

/-- Settles O32: a PEER completes after its block has entered or been taken; a QSTAT or NARROW waits at its Scale unit, or completes
with its window loaded and its block stored. -/
theorem linkCardsComplete : Obligations.LinkCardsComplete := by
  unfold Obligations.LinkCardsComplete
  intro s loom slot c card
  refine ⟨fun h hop => ?peer, fun h hop => ?scale⟩
  case peer =>
    dsimp only
    intro hreach
    have sends : card.getLsbD 89 = false → (isOp 0x05 card && !card.getLsbD 89) = true := fun h89 => by
      rw [h89, isOp_of_eq hop]
      rfl
    refine ⟨fun b h89 hb hn hsize => ⟨fun hlog => ?replay, fun s2 b' hlog hend hplan => ?enter⟩, ?receive⟩
    case replay =>
      refine leaves_mono (leaves_peer h (k := .peerSend loom slot) rfl (sends h89)
        (State.runPeerSend_replay hb hn hsize hreach hlog)
        (State.ctx?_mapCtx_found (issued_ctx? h) (f := Ctx.noteSend b.number (c.sendLog b.number).sent) fun _ => ⟨rfl, rfl⟩) rfl)
        fun t c' ⟨hpast, hlinks, hmem, hsends, _⟩ => ?_
      have hnote : c'.sendLog b.number = (c.sendLog b.number).sent := by
        have hs := Ctx.sendLog_noteSend c (n := b.number) (log := (c.sendLog b.number).sent) (c.sendLog_binding b.number)
        unfold Ctx.sendLog at hs ⊢
        rw [hsends]
        exact hs
      refine ⟨hpast, hlinks, hmem, ?_, ?_⟩
      · rw [hnote]
        rfl
      · rw [hnote]
        exact Nat.max_eq_left hlog
    case enter =>
      have hplanned := OutputOnly.enterPlan hplan
      have hout := hplanned.trans (OutputOnly.enterBlock s2 b' (rawBody (fld card 36 25 + 1) (fld card 24 13 + 1)
        ((issued s loom slot .fetch c card).peerRead c card)) [])
      refine leaves_mono (leaves_peer h (k := .peerSend loom slot) rfl (sends h89)
        (State.runPeerSend_enter hb hn hsize hreach hlog hend hplan)
        (State.ctx?_mapCtx_found ((hout.ctx? _ _).trans (issued_ctx? h))
          (f := Ctx.noteSend b.number (c.sendLog b.number).sent) fun _ => ⟨rfl, rfl⟩) rfl)
        fun t c' ⟨hpast, hlinks, hmem, _⟩ => ⟨hpast, hmem.trans hout.memory, hlinks⟩
    case receive =>
      intro b k t0 seq data record bs h89 hb hn hlog ht hready hbs
      obtain ⟨⟨v, e, cs, hwrite⟩, x, hx, harch, hrecvs⟩ := State.peerWrite_frame (issued_ctx? h) card bs
      have hout : OutputOnly ((issued s loom slot .fetch c card).peerWrite c card bs)
          ((issued s loom slot .fetch c card).received c card bs b k seq) :=
        (OutputOnly.mapLinkStream _ _ _ LinkStream.taken).trans (OutputOnly.acked _ b k seq)
      have hstream : ((issued s loom slot .fetch c card).received c card bs b k seq).linkStream? (fld card 87 85) (peerLsid card)
          = some t0.taken := by
        refine ((StreamsKept.acked _ b k seq).linkStream? _ _).trans (State.linkStream?_mapLinkStream ?_ fun _ => rfl)
        rw [hwrite]
        exact ht
      obtain ⟨⟨more, al, hlogged⟩, hbind, hend, hsince, hentered⟩ :=
        ((issued s loom slot .fetch c card).received c card bs b k seq).logBlock_frame (c.recvLog b.number k) (data, record)
      have run := State.runPeerReceive_take hb hn hreach hlog ht hready hbs
      generalize (issued s loom slot .fetch c card).received c card bs b k seq = u at hout hstream hlogged hbind hend hsince hentered run
      generalize (u.logBlock (c.recvLog b.number k) (data, record)).1 = log at hbind hend hsince hentered run
      generalize (u.logBlock (c.recvLog b.number k) (data, record)).2 = w at hlogged run
      have hw : w.ctx? c.job c.position = some x := by
        rw [hlogged]
        exact (hout.ctx? _ _).trans hx
      refine leaves_mono (leaves_peer h (k := .peerReceive loom slot) rfl (by simp [isOp_of_eq hop, h89]) run
        (State.ctx?_mapCtx_found hw (f := Ctx.noteRecv b.number k log) fun _ => ⟨rfl, rfl⟩) harch)
        fun t c' ⟨hpast, hlinks, hmem, _, hrecv, hscratch, hstripe⟩ => ?_
      have hnote : c'.recvLog b.number k = log := by
        have hl := Ctx.recvLog_noteRecv x (n := b.number) (i := k) (log := log)
          (hbind.trans (c.recvLog_key b.number k).1) (hend.trans (c.recvLog_key b.number k).2)
        unfold Ctx.recvLog at hl ⊢
        rw [hrecv]
        exact hl
      have hmem' : t.memory = { u.memory with blocks := u.memory.blocks ++ more, altered := al } := by
        rw [hmem]
        exact congrArg State.memory hlogged
      refine ⟨hpast, ?vault, ?ext, ?blocks, ?lines, ?stream, ?since, ?entered⟩
      case vault => rw [hmem', hout.memory]
      case ext => rw [hmem', hout.memory]
      case blocks =>
        rw [hmem', hout.memory, hwrite]
        exact List.prefix_append _ _
      case lines =>
        intro y hy
        cases hx.symm.trans hy
        exact ⟨hscratch, hstripe⟩
      case stream =>
        have hl : t.links = u.links := hlinks.trans (show w.links = u.links by rw [hlogged])
        unfold State.linkStream? State.port at hstream ⊢
        rw [hl, hstream]
        rfl
      case since => rw [hnote, hsince]
      case entered => rw [hnote, hentered]
  case scale =>
    dsimp only
    intro b t0 hb hn ht hsize hx
    refine ⟨fun hu hloaded => ?waits, fun hop' hu => ?qstat, fun hop' hu hloaded => ?narrow⟩
    case waits =>
      by_cases hq : opOf card = 0x30
      · rw [if_pos hq]
        exact leaves_enterScale h rfl (isOp_of_eq hq) (State.runQstat_waits hb ht hn hsize hx hu)
      · rw [if_neg hq]
        have hop' := hop.resolve_left hq
        exact leaves_enterScale h rfl (isOp_of_eq hop')
          (State.runNarrow_waits hb ht hx (scaleFault_none hn hsize (hloaded hop')) hu)
    case qstat =>
      have hout := OutputOnly.loadWindow (issued s loom slot .execute c card) card
        ((columns ((issued s loom slot .execute c card).scaleRows c card) (fld card 79 68 + 1)).map
          (channelScales (fld card 63 60) (card.getLsbD 59)))
      have run := State.runQstat_takes hb ht hn hsize hx hu
      rw [State.loadWindow_withSched] at run
      refine leaves_mono (leaves_finishExec h (k := .qstat loom slot) rfl (isOp_of_eq hop') run (x := c) (issued_ctx? h) ⟨rfl, rfl⟩
        (hout.wavesOf _ c .execute card)) fun t c' ⟨hdone, hlinks, hmem⟩ => ⟨hdone, hlinks, hmem.trans hout.memory⟩
    case narrow =>
      have hf := scaleFault_none hn hsize hloaded
      refine ⟨fun hlog => ?replay, fun s2 b' hlog hend hplan => ?enter⟩
      case replay =>
        exact leaves_narrow h hop' (OutputOnly.narrowLoaded _ card _) (State.runNarrow_replay hb ht hx hf hu hlog)
      case enter =>
        exact leaves_narrow h hop' ((OutputOnly.enterPlan hplan).trans (OutputOnly.narrowLoaded _ card _))
          (State.runNarrow_enter hb ht hx hf hu hlog hend hplan)

end Sys2Proof.Machine
end


section
/-!
PROOF. The start of a job: a reservation changes one waiting job's reservation alone, and the started job is found started, with its
contexts placed and the earlier jobs passed.
-/
namespace Sys2Proof.Machine

open Sys2Proof Sys2Proof.Safety

/-! ### Lists -/

theorem mem_insertBy {α : Type} {key : α → Nat} {x y : α} {l : List α} : y ∈ insertBy key x l ↔ y = x ∨ y ∈ l := by
  induction l with
  | nil => simp [insertBy]
  | cons a l ih =>
    unfold insertBy
    split
    · simp
    · simp only [List.mem_cons, ih]
      tauto

/-- Sorting keeps the elements. -/
theorem mem_sortBy {α : Type} {key : α → Nat} {y : α} {l : List α} : y ∈ sortBy key l ↔ y ∈ l := by
  unfold sortBy
  suffices ∀ acc, y ∈ l.foldl (fun acc x => insertBy key x acc) acc ↔ y ∈ acc ∨ y ∈ l by simpa using this []
  induction l with
  | nil => simp
  | cons a l ih =>
    intro acc
    rw [List.foldl_cons, ih, mem_insertBy, List.mem_cons]
    tauto

/-- An element that is not of the kind stays. -/
theorem mem_modifyFirst_of_not {α : Type} {l : List α} {p : α → Bool} (f : α → α) {x : α} (hx : x ∈ l) (hp : p x = false) :
    x ∈ modifyFirst l p f := by
  induction l with
  | nil => cases hx
  | cons a l ih =>
    unfold modifyFirst
    rcases List.mem_cons.1 hx with rfl | hx
    · simp [hp]
    · split
      · exact List.mem_cons_of_mem _ hx
      · exact List.mem_cons_of_mem _ (ih hx)

/-- An element stays or is replaced by its image. -/
theorem mem_modifyFirst_or {α : Type} {l : List α} (p : α → Bool) (f : α → α) {x : α} (hx : x ∈ l) :
    x ∈ modifyFirst l p f ∨ f x ∈ modifyFirst l p f := by
  induction l with
  | nil => cases hx
  | cons a l ih =>
    unfold modifyFirst
    rcases List.mem_cons.1 hx with rfl | hx
    · split
      · exact .inr (List.mem_cons_self ..)
      · exact .inl (List.mem_cons_self ..)
    · split
      · exact .inl (List.mem_cons_of_mem _ hx)
      · exact (ih hx).imp (List.mem_cons_of_mem _) (List.mem_cons_of_mem _)

/-- A change that keeps a key keeps the keys. -/
theorem map_modifyFirst {α β : Type} {key : α → β} {f : α → α} (hf : ∀ x, key (f x) = key x) (p : α → Bool) (l : List α) :
    (modifyFirst l p f).map key = l.map key := by
  induction l with
  | nil => rfl
  | cons a l ih =>
    unfold modifyFirst
    split
    · simp [hf]
    · simp [ih]

/-- The first element that an ordered choice finds. -/
theorem findSome?_append_of_none {α β : Type} {f : α → Option β} {before after : List α} {x : α} {y : β}
    (hb : ∀ k ∈ before, f k = none) (hx : f x = some y) : (before ++ x :: after).findSome? f = some y := by
  rw [List.findSome?_append, List.findSome?_eq_none_iff.2 hb, Option.none_or, List.findSome?_cons_of_isSome (by simp [hx])]
  exact hx

/-! ### Reservations (R270) -/

/-- R270: a job with a reservation. -/
def Job.withReserved (r : Option Nat) (j : Job) : Job := { j with reserved := r }

/-- R270: a reservation changes nothing, or the reservation of one job that waits. -/
theorem State.reserve_cases (s : State) :
    s.reserve = s ∨ ∃ k ∈ s.sched.jobs, k.started = false ∧ ∃ r, s.reserve = s.mapJob k.id (Job.withReserved r) := by
  unfold State.reserve
  split
  · exact .inl rfl
  · dsimp only
    split
    · exact .inl rfl
    · next k rest hk =>
      have hmem : k ∈ sortBy (·.order) (s.startQueue.filter fun j => 64 ≤ j.passedBy) := by
        rw [hk]
        exact List.mem_cons_self ..
      have hq := (List.mem_filter.1 (mem_sortBy.1 hmem)).1
      unfold State.startQueue sortDown at hq
      obtain ⟨hjobs, hwaits⟩ := List.mem_filter.1 (mem_sortBy.1 (mem_sortBy.1 hq))
      refine .inr ⟨k, hjobs, ?_, _, rfl⟩
      simp only [Bool.and_eq_true, Bool.not_eq_true'] at hwaits
      exact hwaits.1.2

/-- R270: a reservation changes jobs alone. -/
theorem State.reserve_frame (s : State) : ∃ js, s.reserve = { s with sched := { s.sched with jobs := js } } := by
  rcases s.reserve_cases with h | ⟨k, _, _, r, h⟩
  · exact ⟨s.sched.jobs, h⟩
  · exact ⟨_, h⟩

/-- R270: a reservation leaves a job that has started, where the ids of the jobs differ. -/
theorem State.job?_reserve {s : State} {id : Word} {j : Job} (h : s.job? id = some j) (hs : j.started = true)
    (hn : (s.sched.jobs.map (·.id)).Nodup) : s.reserve.job? id = some j := by
  rcases s.reserve_cases with hr | ⟨k, hk, hstart, r, hr⟩
  · rwa [hr]
  · have hne : id ≠ k.id := fun e => by
      have hj : j ∈ s.sched.jobs := List.mem_of_find?_eq_some h
      have : j = k := List.inj_on_of_nodup_map hn hj hk ((State.job?_id h).trans e)
      rw [this, hstart] at hs
      cases hs
    rw [hr, State.job?_mapJob_of_ne s (f := Job.withReserved r) (fun _ => rfl) hne, h]

/-- R270: a job stays but for its reservation. -/
theorem State.mem_reserve {s : State} {k : Job} (h : k ∈ s.sched.jobs) :
    ∃ k' ∈ s.reserve.sched.jobs, k'.id = k.id ∧ k'.passedBy = k.passedBy := by
  rcases s.reserve_cases with hr | ⟨_, _, _, r, hr⟩
  · exact ⟨k, by rwa [hr], rfl, rfl⟩
  · rw [hr]
    rcases mem_modifyFirst_or (fun j => j.id == _) (Job.withReserved r) h with hm | hm
    · exact ⟨k, hm, rfl, rfl⟩
    · exact ⟨_, hm, rfl, rfl⟩

/-! ### The start (R268) -/

/-- R270: a job that a job of this order passes as it starts. -/
def Job.passed (order : Nat) (k : Job) : Job :=
  if k.kind != .member && !k.started && !k.ready && k.order < order then { k with passedBy := k.passedBy + 1 } else k

theorem Job.passed_id (order : Nat) (k : Job) : (k.passed order).id = k.id := by
  unfold Job.passed
  split <;> rfl

/-- R268: a job that starts under an alternative. -/
def Job.starts (n i : Nat) (k : Job) : Job := { k with started := true, startedAt := n, alternative := some i, reserved := none }

/-- R268: the state in which a job has started, before its contexts are placed. -/
def State.jobStarted (s : State) (j : Job) (i : Nat) : State :=
  { s with sched := { s.sched with
      jobs := modifyFirst (s.sched.jobs.map (Job.passed j.order)) (fun k => k.id == j.id) (Job.starts s.sched.nextStart i)
      nextStart := s.sched.nextStart + 1 } }

/-- R268: the start of a job that is no phrase job under an alternative that reaches its result. -/
theorem State.startJob_eq {s : State} {j : Job} {i : Nat} {a : Alternative} (ha : j.image.alts[i]? = some a)
    (hreach : s.altReaches j a = true) (hp : j.phrase = none) :
    s.startJob j i = (if j.kind = .plain then (s.jobStarted j i).placeContexts j a else s.jobStarted j i).reserve := by
  unfold State.startJob
  rw [ha]
  dsimp only
  rw [hreach, hp, if_neg (by decide)]
  by_cases hk : j.kind = .plain
  · rw [if_pos hk]
    dsimp only
    rw [hk]
    rfl
  · have hb : (j.kind == .plain) = false := by simpa using hk
    rw [if_neg hk]
    dsimp only
    rw [hb]
    rfl

/-- R268: the job that starts is found started. -/
theorem State.jobStarted_job? {s : State} {j : Job} (h : s.job? j.id = some j) (i : Nat) :
    (s.jobStarted j i).job? j.id = some ((j.passed j.order).starts s.sched.nextStart i) := by
  unfold State.job? State.jobStarted
  dsimp only
  rw [find?_modifyFirst_same (f := Job.starts s.sched.nextStart i) fun _ => rfl, List.find?_map]
  have : ((fun k : Job => k.id == j.id) ∘ Job.passed j.order) = fun k => k.id == j.id := by
    funext k
    simp [Job.passed_id]
  rw [this]
  unfold State.job? at h
  rw [h]
  rfl

/-- R268: the ids of the jobs are as they were. -/
theorem State.jobStarted_ids (s : State) (j : Job) (i : Nat) : (s.jobStarted j i).sched.jobs.map (·.id) = s.sched.jobs.map (·.id) := by
  unfold State.jobStarted
  dsimp only
  rw [map_modifyFirst (f := Job.starts s.sched.nextStart i) fun _ => rfl, List.map_map]
  exact List.map_congr_left fun k _ => Job.passed_id _ k

/-- R270: an earlier job that waits has been passed once more. -/
theorem State.mem_jobStarted {s : State} {j k : Job} (hk : k ∈ s.sched.jobs) (hne : k.id ≠ j.id) (hkind : k.kind ≠ .member)
    (hs : k.started = false) (hr : k.ready = false) (ho : k.order < j.order) (i : Nat) :
    { k with passedBy := k.passedBy + 1 } ∈ (s.jobStarted j i).sched.jobs := by
  have hpass : k.passed j.order = { k with passedBy := k.passedBy + 1 } := by
    unfold Job.passed
    rw [if_pos]
    simp [hkind, hs, hr, ho]
  rw [← hpass]
  refine mem_modifyFirst_of_not _ (List.mem_map_of_mem hk) ?_
  simpa [Job.passed_id] using hne

/-- R268: the first job of the start queue that can start is the one that starts. -/
theorem State.startNext_eq {s : State} {j : Job} {i : Nat}
    (hq : ∃ before after, s.reserve.startQueue = before ++ j :: after ∧ ∀ k ∈ before, s.reserve.startAlt k = none)
    (hi : s.reserve.startAlt j = some i) : s.startNext = s.reserve.startJob j i := by
  obtain ⟨before, after, hqueue, hbefore⟩ := hq
  unfold State.startNext
  dsimp only
  rw [hqueue, findSome?_append_of_none (y := (j, i)) (fun k hk => by rw [hbefore k hk]; rfl) (by rw [hi]; rfl)]

/-- Settles O34: the first job of the queue that can start is found started, its contexts placed, and the others passed. -/
theorem jobStartCompletes : Obligations.JobStartCompletes := by
  unfold Obligations.JobStartCompletes
  intro s j i a hc
  dsimp only
  intro hq hi ha hreach hp hj hn
  obtain ⟨js0, hframe0⟩ := s.reserve_frame
  have hexec : exec .jobStart s = .next (s.reserve.startJob j i) := by
    change Host.Outcome.next (if s.computing then s.startNext else s) = _
    rw [if_pos hc, State.startNext_eq hq hi]
  rw [State.startJob_eq ha hreach hp] at hexec
  have hstart := State.jobStarted_job? hj i
  have hnodup : ((s.reserve.jobStarted j i).sched.jobs.map (·.id)).Nodup := by rwa [State.jobStarted_ids]
  refine ⟨_, (j.passed j.order).starts s.reserve.sched.nextStart i, hexec, ?job, rfl, rfl, rfl, ?status, ?ctxs,
    fun k hk hne hkind hs hr ho => ?passed, ?rest⟩
  case job =>
    split
    · exact State.job?_reserve hstart rfl hnodup
    · exact State.job?_reserve hstart rfl hnodup
  case status => simp [Job.passed, Job.starts]
  case ctxs =>
    split
    · obtain ⟨js, h⟩ := ((s.reserve.jobStarted j i).placeContexts j a).reserve_frame
      rw [h, hframe0]
      rfl
    · obtain ⟨js, h⟩ := (s.reserve.jobStarted j i).reserve_frame
      rw [h, hframe0]
      exact (List.append_nil _).symm
  case passed =>
    have hm := State.mem_jobStarted hk hne hkind hs hr ho i
    split
    · exact State.mem_reserve (s := (s.reserve.jobStarted j i).placeContexts j a) hm
    · exact State.mem_reserve hm
  case rest =>
    split
    · obtain ⟨js, h⟩ := ((s.reserve.jobStarted j i).placeContexts j a).reserve_frame
      rw [h, hframe0]
      exact ⟨rfl, rfl, rfl⟩
    · obtain ⟨js, h⟩ := (s.reserve.jobStarted j i).reserve_frame
      rw [h, hframe0]
      exact ⟨rfl, rfl, rfl⟩

end Sys2Proof.Machine
end


section
/-!
PROOF. A step of the save port that puts the last way of a displaced context in place frees the blocks that held its contents, so it
changes memory's record of blocks in use.
-/
namespace Sys2Proof.Machine

open Sys2Proof Sys2Proof.Safety

/-- A context read back but for its way 0, whose contents lie in one block. -/
def lastWayCtx : Ctx :=
  { Ctx.fresh 5 0 0 (Arch.initial 0 0) with
    place := .resident 0 0, ways := [some 0], pendingWays := [0], blocks := [(0, 7)] }

/-- The read-back of its way 0. -/
def lastReadBack : SaveStep :=
  { loom := 0, victim := none, arriving := (5, 0), isUnit := false, phys := 0, logical := 0, readBack := true }

/-- The state in which that read-back is the save port's oldest step, and the block is in use. -/
def beforeLastReadBack : State :=
  { State.reset with
    sched := { Sched.fresh with ctxs := [lastWayCtx], saves := [lastReadBack] }
    memory := { State.reset.memory with blocks := [(0, 7, 0)] } }

/-- After the step the block is free. -/
theorem beforeLastReadBack_frees :
    ∃ t, exec (.waySpilled 0) beforeLastReadBack = .next t ∧ t.memory.blocks = [] :=
  ⟨_, rfl, by decide +kernel⟩

/-- Refutes O35: the step of the save port that puts a context's last way in place frees the context's blocks, so memory does not
stay as it was. -/
theorem not_residenceCompletes : ¬ Obligations.ResidenceCompletes := by
  unfold Obligations.ResidenceCompletes
  intro h
  obtain ⟨_, hstep, _, _⟩ := h beforeLastReadBack 0 0 lastWayCtx (by decide +kernel) (by decide +kernel)
  obtain ⟨t, _, hexec, _, _, _, _, _, _, hmemory⟩ := hstep lastReadBack (by decide +kernel) rfl
    (fun w hw => absurd hw (by decide +kernel +revert))
  obtain ⟨u, hu, hfree⟩ := beforeLastReadBack_frees
  cases hexec.symm.trans hu
  rw [hmemory] at hfree
  cases hfree

end Sys2Proof.Machine
end


section
/-!
PROOF. A result that expires frees its result blocks, so it changes memory's record of blocks in use.
-/
namespace Sys2Proof.Machine

open Sys2Proof Sys2Proof.Safety

/-- A Ready job whose result lies in one block. -/
def expiringJob : Job := { Job.entering 5 0 .plain with ready := true, result := [1], resultBlocks := [(0, 7)] }

/-- The state in which the hold time of its result has passed, and the block is in use. -/
def beforeExpiry : State :=
  { State.reset with
    sched := { Sched.fresh with jobs := [expiringJob] }
    memory := { State.reset.memory with blocks := [(0, 7, 3)] }
    recorder := { State.reset.recorder with windows := 60001 } }

/-- After the expiry the block is free. -/
theorem beforeExpiry_frees : ∃ t, exec (.resultExpiry 5) beforeExpiry = .next t ∧ t.memory.blocks = [] :=
  ⟨_, rfl, by decide +kernel⟩

/-- Refutes O36: the expiry of a result that has a block frees it, so memory does not stay as it was. -/
theorem not_jobProgressCompletes : ¬ Obligations.JobProgressCompletes := by
  unfold Obligations.JobProgressCompletes
  intro h
  obtain ⟨t, hexec, _, hmemory, _, _⟩ := (h beforeExpiry 5 expiringJob (by decide +kernel)).1 rfl (by decide +kernel)
    (fun i hi => by cases hi)
  obtain ⟨u, hu, hfree⟩ := beforeExpiry_frees
  cases hexec.symm.trans hu
  rw [hmemory] at hfree
  cases hfree

end Sys2Proof.Machine
end


section
/-!
PROOF. A record at a frame port becomes what its verdict says, and the held record that the context waits for is committed.
-/
namespace Sys2Proof.Machine

open Sys2Proof Sys2Proof.Safety

/-! ### Changes of one stream -/

/-- Two changes that agree on the first element of a kind change the list alike. -/
theorem modifyFirst_congr {α : Type} {l : List α} {p : α → Bool} {f g : α → α} {x : α} (hx : l.find? p = some x) (h : f x = g x) :
    modifyFirst l p f = modifyFirst l p g := by
  induction l with
  | nil => rfl
  | cons a l ih =>
    by_cases ha : p a = true
    · simp only [List.find?_cons, ha] at hx
      cases hx
      simp [modifyFirst, ha, h]
    · simp only [List.find?_cons, ha] at hx
      simp [modifyFirst, ha, ih hx]

/-- Two changes that agree on a stream change the state alike. -/
theorem State.mapStream_congr {s : State} {id : Word} {t : Stream} (h : s.stream? id = some t) {f g : Stream → Stream}
    (hfg : f t = g t) : s.mapStream id f = s.mapStream id g := by
  unfold State.mapStream
  rw [modifyFirst_congr h hfg]

/-! ### Frame records (R211, R213) -/

/-- R213: what a record makes of its stream, once it has left the inbox. -/
def Stream.withRecord (rest : List PortRecord) (p : Program) (r : PortRecord) (t : Stream) : Stream :=
  let t := { t with inbox := rest }
  match t.frameVerdict p r.bytes with
  | .bad => t.count fun x => { x with badFrames := satAdd x.badFrames 1 }
  | .repeated => t.count fun x => { x with dupFrames := satAdd x.dupFrames 1 }
  | .held => t.hold1 r.bytes
  | .waits => t

/-- R213: the oldest record of a stream, which does not wait, makes of it what its verdict says, and its piece is done. -/
theorem frameRecord_goes {s : State} {t : Stream} {p : Program} {r : PortRecord} {rest : List PortRecord} (hc : s.computing = true)
    (ht : s.stream? t.id = some t) (hp : s.programOf t.ctx.program = some p) (hi : t.inbox = r :: rest)
    (hrest : ∀ q ∈ rest, ¬ (q.loom = r.loom ∧ q.tag = r.tag)) (hv : t.frameVerdict p r.bytes ≠ .waits) {u : Stream}
    (hu : t.withRecord rest p r = u) :
    exec (.frameRecord t.id) s = .next ((s.mapStream t.id fun _ => u).donePiece r.loom r.tag) := by
  have hfind : t.inbox.find? (fun q => t.frameVerdict p q.bytes != .waits) = some r := by
    rw [hi, List.find?_cons_of_pos]
    simpa using hv
  have hkept : (t.inbox.filter fun q => !(q.loom == r.loom && q.tag == r.tag)) = rest := by
    rw [hi, List.filter_cons_of_neg (by simp)]
    exact List.filter_eq_self.2 fun q hq => by simpa [imp_iff_not_or] using hrest q hq
  change Host.Outcome.next (if s.computing then s.frameRecord t.id else s) = _
  rw [if_pos hc]
  unfold State.frameRecord
  rw [ht]
  dsimp only
  rw [hp]
  dsimp only
  rw [hfind]
  dsimp only
  rw [hkept]
  exact congrArg (fun v => Host.Outcome.next (State.donePiece v r.loom r.tag))
    (State.mapStream_congr (f := Stream.withRecord rest p r) ht hu)

/-- R211: a record that fails its own checks. -/
theorem Stream.frameVerdict_bad {t : Stream} {p : Program} {r : List Byte} (h : frameOk r p = false) :
    t.frameVerdict p r = .bad := by simp [Stream.frameVerdict, h]

/-- R213: a record of an old or a held sequence number. -/
theorem Stream.frameVerdict_repeated {t : Stream} {p : Program} {r : List Byte} (h : frameOk r p = true)
    (hold : 2 ^ 31 ≤ (BitVec.ofNat 32 (le r 0 4) - t.saved.nextSeq).toNat ∨ ∃ e ∈ t.ring, e.1 = BitVec.ofNat 32 (le r 0 4)) :
    t.frameVerdict p r = .repeated := by
  unfold Stream.frameVerdict
  dsimp only
  rw [h, if_neg (by decide), if_pos]
  simpa using hold

/-- R213: a record of a new sequence number in the window. -/
theorem Stream.frameVerdict_held {t : Stream} {p : Program} {r : List Byte} (h : frameOk r p = true)
    (hold : ¬ (2 ^ 31 ≤ (BitVec.ofNat 32 (le r 0 4) - t.saved.nextSeq).toNat ∨ ∃ e ∈ t.ring, e.1 = BitVec.ofNat 32 (le r 0 4)))
    (hd : (BitVec.ofNat 32 (le r 0 4) - t.saved.nextSeq).toNat < 32) : t.frameVerdict p r = .held := by
  unfold Stream.frameVerdict
  dsimp only
  rw [h, if_neg (by decide), if_neg (by simpa using hold), if_pos hd]

/-- R213: a record has left the inbox before its verdict, which does not look at it. -/
theorem Stream.withRecord_eq {t : Stream} {rest : List PortRecord} {p : Program} {r : PortRecord} {v : FrameVerdict}
    (h : t.frameVerdict p r.bytes = v) : t.withRecord rest p r = match v with
      | .bad => ({ t with inbox := rest } : Stream).count fun x => { x with badFrames := satAdd x.badFrames 1 }
      | .repeated => ({ t with inbox := rest } : Stream).count fun x => { x with dupFrames := satAdd x.dupFrames 1 }
      | .held => ({ t with inbox := rest } : Stream).hold1 r.bytes
      | .waits => { t with inbox := rest } := by
  have hv : ({ t with inbox := rest } : Stream).frameVerdict p r.bytes = v := h
  unfold Stream.withRecord
  dsimp only
  rw [hv]
  cases v <;> rfl

/-- R213: a held record is in the ring, and the newest sequence number is known. -/
theorem Stream.hold1_eq (t : Stream) (r : List Byte) :
    ∃ top, t.hold1 r = { t with ring := t.ring ++ [(BitVec.ofNat 32 (le r 0 4), r)], topSeq := some top } := by
  unfold Stream.hold1
  dsimp only
  cases ht : t.topSeq with
  | none => exact ⟨_, rfl⟩
  | some n =>
    rw [Option.elim_some]
    generalize (decide (0 < (BitVec.ofNat 32 (le r 0 4) - n).toNat)
      && decide ((BitVec.ofNat 32 (le r 0 4) - n).toNat < 2 ^ 31)) = newer
    cases newer
    · exact ⟨n, rfl⟩
    · exact ⟨_, rfl⟩

/-- Settles O37: a record goes by its verdict; the record that the context waits for is committed. -/
theorem framePortsComplete : Obligations.FramePortsComplete := by
  unfold Obligations.FramePortsComplete
  intro s t p hc ht
  refine ⟨fun r rest hp hi hrest => ?record, fun r hr hn => ?commit⟩
  case record =>
    have goes : ∀ {v : FrameVerdict} {u : Stream}, t.frameVerdict p r.bytes = v → v ≠ .waits → t.withRecord rest p r = u → _ :=
      fun hv hw hu => frameRecord_goes hc ht hp hi hrest (hv.trans_ne hw) hu
    refine ⟨fun hok => ?bad, fun hok hold => ?repeated, fun hok hold hd => ?held⟩
    case bad =>
      have hv := Stream.frameVerdict_bad (t := t) hok
      exact goes hv (by decide) (Stream.withRecord_eq hv)
    case repeated =>
      have hv := Stream.frameVerdict_repeated hok hold
      exact goes hv (by decide) (Stream.withRecord_eq hv)
    case held =>
      have hv := Stream.frameVerdict_held hok hold hd
      obtain ⟨top, htop⟩ := Stream.hold1_eq { t with inbox := rest } r.bytes
      exact ⟨top, goes hv (by decide) ((Stream.withRecord_eq hv).trans htop)⟩
  case commit =>
    change Host.Outcome.next (if s.computing then s.mapStream t.id Stream.commit else s) = _
    rw [if_pos hc]
    refine congrArg Host.Outcome.next (State.mapStream_congr ht ?_)
    unfold Stream.commit
    rw [if_pos]
    simp only [Bool.and_eq_true, List.any_eq_true, Bool.not_eq_true']
    exact ⟨⟨_, hr, by simp⟩, by simpa using hn⟩

end Sys2Proof.Machine
end


section
/-!
PROOF. A micro-step of a batch of one stream changes the stream's context by the operation's own function, and the batch stands at the
next micro-step.
-/
namespace Sys2Proof.Machine

open Sys2Proof Sys2Proof.Safety

/-! ### Shuttles -/

/-- A Shuttle with a batch is one of its cluster's, and a change of it is found. -/
theorem State.shuttle_mapShuttle {s : State} {c p : Nat} {b : Batch} (h : (s.shuttle c p).batch = some b)
    (f : Shuttle → Shuttle) : (s.mapShuttle c p f).shuttle c p = f (s.shuttle c p) := by
  unfold State.shuttle nth at h ⊢
  unfold State.mapShuttle State.mapCluster
  cases hc : s.units.clusters[c]? with
  | none => simp [hc, Cluster.healthy, Shuttle.healthy] at h
  | some k =>
    rw [hc, Option.getD_some] at h
    cases hp : k.shuttles[p]? with
    | none => simp [hp, Shuttle.healthy] at h
    | some x => simp [hc, hp]

/-! ### One micro-step -/

/-- R196, R205: the state after the micro-step at which a batch of one stream stands. -/
theorem State.microStep_single {s : State} {c p : Nat} {id : Word} {prog : Program} {b : Batch} {card : Card} {op : Nat}
    (hc : s.computing = true) (hb : (s.shuttle c p).batch = some b) (hp : s.programOf b.program = some prog)
    (hcard : (s.held c b.program).1[b.micro]? = some card) (hs : b.streams = [(id, false)]) (hop : microOp card = op) :
    s.microStep c p op = (s.microOne prog (if op = 1 then
        Mem.write [] 0 ((s.held c b.program).2.read (512 * fld card 49 37) (microWeightBytes s.live.table1 card)) else [])
      b.micro card (id, false)).mapShuttle c p fun h => { h with batch := some { b with micro := b.micro + 1 } } := by
  unfold State.microStep
  rw [hb]
  dsimp only
  rw [hp]
  dsimp only
  rw [hcard]
  dsimp only
  rw [if_neg (by simp [hop, hc]), hs]
  by_cases h1 : op = 1
  · simp only [h1, BEq.rfl, if_true]
    rfl
  · have hb1 : (op == 1) = false := by simpa using h1
    simp only [h1, hb1, if_false]
    rfl

/-- R205: what a micro-step leaves that changes one stream, and free values, alone. -/
theorem leaves_micro {s : State} {c p : Nat} {t0 : Stream} {b : Batch} {i : Instr} {op : Nat} {v : State}
    (ht : s.stream? t0.id = some t0) (hb : (s.shuttle c p).batch = some b) (hexec : exec i s = .next (s.microStep c p op))
    {f : Stream → Stream} (hf : ∀ t, (f t).id = t.id) {free : Nat} (hv : v = { s.mapStream t0.id f with free := free })
    (hstep : s.microStep c p op = v.mapShuttle c p fun h => { h with batch := some { b with micro := b.micro + 1 } }) :
    LeavesStream i s t0.id fun t u => u = f t0 ∧ (t.shuttle c p).batch = some { b with micro := b.micro + 1 }
      ∧ t.memory = s.memory ∧ t.sched = s.sched ∧ t.out = s.out := by
  refine ⟨_, f t0, hexec.trans (congrArg Host.Outcome.next hstep), ?_, rfl, ?_, ?_, ?_, ?_⟩
  · rw [hv]
    refine (State.stream?_mapStream s t0.id hf).trans ?_
    rw [ht]
    rfl
  · have hbv : (v.shuttle c p).batch = some b := by
      rw [hv]
      exact hb
    rw [State.shuttle_mapShuttle hbv]
  · rw [hv]; rfl
  · rw [hv]; rfl
  · rw [hv]; rfl

/-- R201: what a computing micro-step leaves. -/
theorem leaves_computing {s : State} {c p : Nat} {t0 : Stream} {prog : Program} {b : Batch} {card : Card} {i : Instr} {op : Nat}
    (hc : s.computing = true) (ht : s.stream? t0.id = some t0) (hb : (s.shuttle c p).batch = some b)
    (hp : s.programOf b.program = some prog) (hcard : (s.held c b.program).1[b.micro]? = some card)
    (hs : b.streams = [(t0.id, false)]) (hop : microOp card = op) (hexec : exec i s = .next (s.microStep c p op))
    {f : ShuttleCtx → ShuttleCtx}
    (hone : s.microOne prog (if op = 1 then
        Mem.write [] 0 ((s.held c b.program).2.read (512 * fld card 49 37) (microWeightBytes s.live.table1 card)) else [])
      b.micro card (t0.id, false) = s.mapStream t0.id fun t => { t with ctx := f t.ctx }) :
    LeavesStream i s t0.id fun t u => u = { t0 with ctx := f t0.ctx }
      ∧ (t.shuttle c p).batch = some { b with micro := b.micro + 1 } ∧ t.memory = s.memory ∧ t.sched = s.sched ∧ t.out = s.out :=
  leaves_micro (f := fun t => { t with ctx := f t.ctx }) (free := s.free) ht hb hexec (fun _ => rfl) hone
    (State.microStep_single hc hb hp hcard hs hop)

/-! ### OUT (R203) -/

/-- R203: a written sample is at its index, and the others are as they were. -/
theorem Stream.writeSample_samples (t : Stream) (index : Nat) (v : BitVec 24) (free : Nat) :
    (t.taken ≤ index → (t.writeSample index v free).samples[index - t.taken]? = some v)
      ∧ (index < t.taken → (t.writeSample index v free).samples = t.samples)
      ∧ ∀ i < t.samples.length, t.taken + i ≠ index → (t.writeSample index v free).samples[i]? = t.samples[i]? := by
  unfold Stream.writeSample
  by_cases hlt : index < t.taken
  · rw [if_pos hlt]
    exact ⟨fun h => absurd hlt (Nat.not_lt.2 h), fun _ => rfl, fun _ _ _ => rfl⟩
  · rw [if_neg hlt]
    dsimp only
    generalize hpad : ((List.range (index - t.taken - t.samples.length)).map fun n => (Config.freeWord (free + n)).setWidth 24) = pad
    have hlen : pad.length = index - t.taken - t.samples.length := by rw [← hpad]; simp
    have htake : ((t.samples ++ pad).take (index - t.taken)).length = index - t.taken := by
      rw [List.length_take, List.length_append, hlen]
      omega
    refine ⟨fun _ => ?written, fun h => absurd h hlt, fun i hi hne => ?others⟩
    case written =>
      rw [List.append_assoc, List.getElem?_append_right (by omega), htake]
      simp
    case others =>
      rcases Nat.lt_or_ge i (index - t.taken) with h | h
      · rw [List.append_assoc, List.getElem?_append_left (by omega), List.getElem?_take_of_lt h,
          List.getElem?_append_left hi]
      · have hgt : index - t.taken < i := by omega
        rw [List.getElem?_append_right (by simp [htake]; omega), List.getElem?_drop]
        congr 1
        simp only [List.length_append, htake, List.length_singleton]
        omega

/-- R203: OUT leaves the stream's id. -/
theorem Stream.runOut_id (t : Stream) (p : Program) (card : Card) (free : Nat) : (t.runOut false p card free).id = t.id := by
  unfold Stream.runOut
  split
  · next h _ => cases h
  · rfl
  · rfl
  · dsimp only
    unfold Stream.writeSample
    split <;> rfl

/-- R203: OUT of a stream without a companion. -/
theorem Stream.runOut_plain {t : Stream} {p : Program} {card : Card} {free : Nat} (h : t.companion = none) :
    t.runOut false p card free = { t.writeSample t.ctx.step.toNat (outSample (microWord p t.ctx card 99 0)).1 free with
      ctx := t.ctx.flag [(outSample (microWord p t.ctx card 99 0)).2] } := by
  unfold Stream.runOut
  rw [h]

/-- R201: what an EW computes. -/
theorem microEw_eq (p : Program) (card : Card) (x : ShuttleCtx) :
    microEw p card x = x.putAll card ((List.range (microN card)).map fun j => vop (fld card 36 31) (microWord p x card 99 j)
      (if 6 ≤ fld card 36 31 ∧ fld card 36 31 ≤ 9 then 0 else microWord p x card 86 (if card.getLsbD 25 then 0 else j))) := by
  simp only [microEw, Bool.and_eq_true, decide_eq_true_eq]

/-- R201: what a CRV computes. -/
theorem microCrv_eq (t2 : List (List Byte)) (p : Program) (card : Card) (x : ShuttleCtx) :
    microCrv t2 p card x = x.putAll card ((List.range (microN card)).map fun j =>
      curveEval (curveOf (nth t2 (fld card 36 31) [])) (microWord p x card 99 j)) := by
  simp only [microCrv, microWords, List.map_map]
  rfl

/-- Settles O38: each micro-step changes the context by its own function; OUT writes its sample at its index. -/
theorem microStepsComplete : Obligations.MicroStepsComplete := by
  unfold Obligations.MicroStepsComplete
  intro s c p t0 prog b card hc ht hb hp hcard hs
  dsimp only
  refine ⟨?mv, ?ew, ?crv, ?cvt, ?draw, ?out, ?last⟩
  case mv =>
    intro hop
    refine leaves_computing (op := 1) hc ht hb hp hcard hs hop rfl (f := microMv s.live.table1 _ prog card) ?_
    unfold State.microOne
    rw [hop]
    rfl
  case ew =>
    intro hop
    rw [← microEw_eq]
    refine leaves_computing (op := 2) hc ht hb hp hcard hs hop rfl (f := microEw prog card) ?_
    unfold State.microOne
    rw [hop]
    rfl
  case crv =>
    intro hop
    rw [← microCrv_eq]
    refine leaves_computing (op := 3) hc ht hb hp hcard hs hop rfl (f := microCrv s.live.table2 prog card) ?_
    unfold State.microOne
    rw [hop]
    rfl
  case cvt =>
    intro hop
    refine leaves_computing (op := 4) hc ht hb hp hcard hs hop rfl (f := microCvt s.live.table1 prog b.micro t0.id card) ?_
    unfold State.microOne
    rw [hop]
    rfl
  case draw =>
    intro hop
    refine leaves_computing (op := 6) hc ht hb hp hcard hs hop rfl (f := microDraw prog b.micro t0.id card) ?_
    unfold State.microOne
    rw [hop]
    rfl
  case out =>
    intro hop hcomp
    have hone : s.microOne prog [] b.micro card (t0.id, false)
        = { s.mapStream t0.id (fun t => t.runOut false prog card s.free) with free := s.free + 8193 } := by
      unfold State.microOne
      rw [hop]
      rfl
    obtain ⟨t, u, hexec, hu, hrun, hbatch, hmem, _⟩ := leaves_micro (op := 5) (i := .microOut c p) ht hb rfl
      (fun t => t.runOut_id prog card s.free) hone (State.microStep_single hc hb hp hcard hs hop)
    rw [Stream.runOut_plain hcomp] at hrun
    obtain ⟨hwritten, htaken, hothers⟩ := t0.writeSample_samples t0.ctx.step.toNat (outSample (microWord prog t0.ctx card 99 0)).1 s.free
    subst hrun
    exact ⟨t, _, hexec, hu, rfl, hbatch, hmem, hwritten, htaken, hothers⟩
  case last =>
    intro hop
    refine leaves_computing (op := 0x0F) hc ht hb hp hcard hs hop rfl (f := ShuttleCtx.endStep) ?_
    unfold State.microOne
    rw [hop]
    rfl

end Sys2Proof.Machine
end


section
/-!
PROOF. The batches of the Shuttles begin and end, contexts move between Shuttles, and clusters load programs.
-/
namespace Sys2Proof.Machine

open Sys2Proof Sys2Proof.Safety

/-! ### Contexts written -/

/-- R260: a range that its owner writes alters nothing but what a debug write has left there. -/
theorem State.rewrote_frame (s : State) (blocks : List (Nat × Nat)) (off len : Nat) :
    ∃ m, s.rewrote blocks off len = { s with memory := { s.memory with altered := m } } := by
  unfold State.rewrote
  split
  · exact ⟨s.memory.altered, rfl⟩
  · exact ⟨_, rfl⟩

/-- R218: contexts written alter nothing but what a debug write has left in their save areas. -/
theorem State.wroteContexts_frame (s : State) (ts : List Stream) :
    ∃ m, s.wroteContexts ts = { s with memory := { s.memory with altered := m } } := by
  unfold State.wroteContexts
  induction ts generalizing s with
  | nil => exact ⟨s.memory.altered, rfl⟩
  | cons t ts ih =>
    obtain ⟨m, hm⟩ := s.rewrote_frame t.saveBlocks 0 shuttleRecordBytes
    obtain ⟨m', hm'⟩ := ih (s.rewrote t.saveBlocks 0 shuttleRecordBytes)
    exact ⟨m', by rw [List.foldl_cons, hm', hm]⟩

/-! ### What a command leaves of a stream -/

/-- What follows from what a command leaves of a stream. -/
theorem leavesStream_mono {i : Instr} {s : State} {id : Word} {p q : State → Stream → Prop} (h : LeavesStream i s id p)
    (hpq : ∀ t u, p t u → q t u) : LeavesStream i s id q := by
  obtain ⟨t, u, hexec, hu, hp⟩ := h
  exact ⟨t, u, hexec, hu, hpq t u hp⟩

/-- The stream with an id, where every stream is changed and keeps its id. -/
theorem find?_map_stream {l : List Stream} {f : Stream → Stream} (hf : ∀ t, (f t).id = t.id) (id : Word) :
    (l.map f).find? (fun t => t.id == id) = (l.find? fun t => t.id == id).map f := by
  rw [List.find?_map]
  congr 2
  funext t
  rw [Function.comp, hf]

/-! ### Streams and Shuttles that are replaced -/

/-- A stream replaced by one of its own id is found. -/
theorem State.stream?_mapStream_const {s : State} {t u : Stream} (ht : s.stream? t.id = some t) (hu : u.id = t.id) :
    (s.mapStream t.id fun _ => u).stream? t.id = some u := by
  have heq : (s.mapStream t.id fun _ => u) = s.mapStream t.id fun x => { u with id := x.id } :=
    State.mapStream_congr ht (by rw [← hu])
  rw [heq]
  refine (State.stream?_mapStream s t.id (f := fun x => { u with id := x.id }) fun _ => rfl).trans ?_
  rw [ht]
  change some { u with id := t.id } = some u
  rw [← hu]

/-- A change of a cluster of the device is found. -/
theorem State.cluster_mapCluster {s : State} {c : Nat} (hc : c < s.units.clusters.length) (f : Cluster → Cluster) :
    (s.mapCluster c f).cluster c = f (s.cluster c) := by
  simp [State.cluster, nth, State.mapCluster, hc]

/-- A batch that a Shuttle of a changed cluster is given. -/
theorem State.shuttle_mapShuttle_of_lt {s : State} {c p : Nat} {f : Cluster → Cluster} {g : Shuttle → Shuttle}
    (hp : p < (s.cluster c).shuttles.length) (hf : ∀ x, (f x).shuttles = x.shuttles) :
    (((s.mapCluster c f).mapShuttle c p g).shuttle c p) = g (s.shuttle c p) := by
  unfold State.cluster nth at hp
  unfold State.shuttle nth State.mapShuttle State.mapCluster
  cases hc : s.units.clusters[c]? with
  | none => simp [hc] at hp
  | some k =>
    rw [hc, Option.getD_some] at hp
    simp [hc, hf, hp]

/-! ### A batch begins -/

/-- R216: a stream whose cross-fade does not run, without a change to take, takes its next frame as it is. -/
theorem State.frameUp_plain {s : State} {t : Stream} {free : Option Nat} (hn : t.nextChange = none) :
    s.frameUp t free = if t.ctx.inFrame then t
      else t.nextFrame.elim t fun r => { t with ctx := t.ctx.takeFrame r (s.initOf t.ctx.program) } := by
  unfold State.frameUp
  split
  · rfl
  · cases t.nextFrame with
    | none => rfl
    | some r =>
      dsimp only
      rw [hn]
      rfl

/-- R216: a frame that a stream without a change takes leaves its program, its id and its change. -/
theorem State.frameUp_keeps {s : State} {t : Stream} {free : Option Nat} (hn : t.nextChange = none) :
    (s.frameUp t free).ctx.program = t.ctx.program ∧ (s.frameUp t free).id = t.id
      ∧ (s.frameUp t free).change = t.change := by
  rw [State.frameUp_plain hn]
  split
  · exact ⟨rfl, rfl, rfl⟩
  · cases t.nextFrame with
    | none => exact ⟨rfl, rfl, rfl⟩
    | some r => exact ⟨rfl, rfl, rfl⟩

/-- R289: a stream without a change to take has none. -/
theorem Stream.change_of_nextChange {t : Stream} (hn : t.nextChange = none) : t.change = none := by
  unfold Stream.nextChange at hn
  split at hn
  next ha => rw [hn] at ha; exact absurd ha (by decide)
  next => exact hn

/-- R217: the one due context of a Shuttle that holds one stream, without a cross-fade. -/
theorem State.candidates_single {s : State} {c p k : Nat} {t0 : Stream}
    (hs : (s.audio.streams.filter fun t => t.cluster == c && t.pos == p) = [t0]) (hk : t0.slot = some k) (hd : t0.due = true)
    (hc : t0.companion = none) (hn : t0.nextChange = none) :
    s.candidates c p = [⟨t0.id, false, t0.ctx.program, t0.margin, k⟩] := by
  unfold State.candidates
  rw [hs]
  simp [hd, hc, hk, (State.frameUp_keeps hn).1]

/-- R216: a stream without a change to take is prepared by its next frame. -/
theorem State.prepare_plain {s : State} {t0 : Stream} {m k : Nat} (ht : s.stream? t0.id = some t0)
    (hn : t0.nextChange = none) :
    s.prepare t0.ctx.program ⟨t0.id, false, t0.ctx.program, m, k⟩
      = some (s.mapStream t0.id fun _ => s.frameUp t0 (s.freeSlot t0.cluster t0.pos)) := by
  unfold State.prepare
  dsimp only
  rw [ht]
  dsimp only
  rw [if_neg (by simp), if_neg (by simp [(State.frameUp_keeps hn).1])]
  unfold State.appliedEvent
  rw [Stream.change_of_nextChange hn]

/-- R217: a Shuttle whose one due context has its program in the weight store starts its batch. -/
theorem State.startBatch_single {s : State} {c p k : Nat} {t0 : Stream} (ht : s.stream? t0.id = some t0)
    (hcs : s.candidates c p = [⟨t0.id, false, t0.ctx.program, t0.margin, k⟩]) (hk : k < 32)
    (hn : t0.nextChange = none) (hp : (s.cluster c).programs.contains t0.ctx.program = true) :
    ∃ f : Cluster → Cluster, (∀ x, (f x).shuttles = x.shuttles) ∧
      s.startBatch c p = ((s.mapStream t0.id fun _ => s.frameUp t0 (s.freeSlot t0.cluster t0.pos)).mapCluster c f).mapShuttle
        c p fun h => { h with batch := some ⟨t0.ctx.program, [(t0.id, false)], 0⟩ } := by
  have hnext : s.nextProgram c p = some t0.ctx.program := by
    unfold State.nextProgram
    rw [hcs]
    simp [least]
  have h32 : k ≠ 32 := by omega
  refine ⟨fun x => { x with programs := t0.ctx.program :: x.programs.filter (· != t0.ctx.program) }, fun _ => rfl, ?_⟩
  unfold State.startBatch
  rw [hnext]
  dsimp only
  rw [hcs]
  have hp' : t0.ctx.program ∈ (s.cluster c).programs := by simpa using hp
  simp [h32, sortBy, insertBy, State.prepare_plain ht hn, hp']

/-- R216, R217: what a batch of a Shuttle's one due stream leaves as it begins. -/
theorem leaves_batchStart {s : State} {c p k : Nat} {t0 : Stream} (ht : s.stream? t0.id = some t0)
    (hf : s.shuttleFree c p = true) (hs : (s.audio.streams.filter fun t => t.cluster == c && t.pos == p) = [t0])
    (hk : t0.slot = some k) (hk32 : k < 32) (hd : t0.due = true) (hc : t0.companion = none) (hn : t0.nextChange = none)
    (hp : (s.cluster c).programs.contains t0.ctx.program = true) (hlen : p < (s.cluster c).shuttles.length) :
    LeavesStream (.batchStart c p) s t0.id fun t u =>
      (t.shuttle c p).batch = some ⟨t0.ctx.program, [(t0.id, false)], 0⟩
        ∧ u = s.frameUp t0 (s.freeSlot t0.cluster t0.pos) := by
  obtain ⟨f, hshuttles, hstart⟩ := State.startBatch_single ht (State.candidates_single hs hk hd hc hn) hk32 hn hp
  refine ⟨((s.mapStream t0.id fun _ => s.frameUp t0 (s.freeSlot t0.cluster t0.pos)).mapCluster c f).mapShuttle
    c p fun h => { h with batch := some ⟨t0.ctx.program, [(t0.id, false)], 0⟩ }, s.frameUp t0 (s.freeSlot t0.cluster t0.pos),
    ?_, ?_, ?_, rfl⟩
  · change Host.Outcome.next (if s.shuttleFree c p then s.startBatch c p else s) = _
    rw [if_pos hf, hstart]
  · exact State.stream?_mapStream_const ht (State.frameUp_keeps hn).2.1
  · exact congrArg Shuttle.batch (State.shuttle_mapShuttle_of_lt hlen hshuttles)

/-! ### A batch ends -/

/-- R218, R225: what the end of a batch makes of a stream of its Shuttle. -/
def Stream.atBatchEnd (all : Bool) (b : Batch) (t : Stream) : Stream :=
  let t := if all || b.endsFrame t then t.write else t
  if t.moving then t.depart else t

/-- A stream that leaves keeps its id. -/
theorem Stream.depart_id (t : Stream) : t.depart.id = t.id := by
  unfold Stream.depart
  split
  · rfl
  · rfl

/-- The id of a stream stays at the end of a batch. -/
theorem Stream.atBatchEnd_id (all : Bool) (b : Batch) (t : Stream) : (t.atBatchEnd all b).id = t.id := by
  have hwritten : (if all || b.endsFrame t then t.write else t).id = t.id := by
    split
    · rfl
    · rfl
  have hleft : ∀ x : Stream, (if x.moving then x.depart else x).id = x.id := by
    intro x
    split
    · exact x.depart_id
    · rfl
  exact (hleft _).trans hwritten

/-- R218: a stream that does not move is written at the end of a batch or stays. -/
theorem Stream.atBatchEnd_of_staying {all : Bool} {b : Batch} {t : Stream} (hm : t.moving = false) :
    t.atBatchEnd all b = if all || b.endsFrame t then t.write else t := by
  unfold Stream.atBatchEnd
  dsimp only
  split
  · exact if_neg (by rw [show t.write.moving = t.moving from rfl, hm]; decide)
  · exact if_neg (by rw [hm]; decide)

/-- R205, R218: the state after a batch that has run its micro-steps. -/
theorem State.endBatch_of_done {s : State} {c p : Nat} {b : Batch} {prog : Program} (hb : (s.shuttle c p).batch = some b)
    (hp : s.programOf b.program = some prog) (hdone : (s.held c b.program).1.length ≤ b.micro) {waves : Nat}
    (hw : (s.shuttle c p).wavesSinceWrite + prog.fillWaves + b.streams.length * (prog.stepWaves - prog.fillWaves) = waves) :
    ∃ m, s.endBatch c p = { s.mapShuttle c p fun h =>
        { h with batch := none, wavesSinceWrite := if 240000 < waves then 0 else waves } with
      memory := { s.memory with altered := m }
      audio := { s.audio with streams := s.audio.streams.map fun t =>
        if t.cluster == c && t.pos == p && t.slot.isSome then t.atBatchEnd (decide (240000 < waves)) b else t } } := by
  unfold State.endBatch
  rw [hb]
  dsimp only
  rw [hp]
  dsimp only
  rw [if_neg (Nat.not_lt.2 hdone), hw]
  obtain ⟨m, hm⟩ := State.wroteContexts_frame
    (s.mapShuttle c p fun h => { h with batch := none, wavesSinceWrite := if decide (240000 < waves) = true then 0 else waves })
    ((s.mapShuttle c p fun h => { h with batch := none, wavesSinceWrite := if decide (240000 < waves) = true then 0 else waves }).audio.streams.filter fun t =>
      (t.cluster == c && t.pos == p && t.slot.isSome) && ((decide (240000 < waves) || b.endsFrame t) || t.moving))
  refine ⟨m, ?_⟩
  simp only [decide_eq_true_eq] at hm ⊢
  rw [hm]
  rfl

/-- R218: what a batch that has run its micro-steps leaves of a stream of its Shuttle that does not move. -/
theorem leaves_batchEnd {s : State} {c p k : Nat} {t0 : Stream} {b : Batch} {prog : Program} {waves : Nat}
    (ht : s.stream? t0.id = some t0) (hcl : t0.cluster = c) (hpos : t0.pos = p) (hc : s.computing = true)
    (hb : (s.shuttle c p).batch = some b) (hp : s.programOf b.program = some prog)
    (hdone : (s.held c b.program).1.length ≤ b.micro) (hk : t0.slot = some k) (hm : t0.moving = false)
    (hw : (s.shuttle c p).wavesSinceWrite + prog.fillWaves + b.streams.length * (prog.stepWaves - prog.fillWaves) = waves) :
    LeavesStream (.batchEnd c p) s t0.id fun t u => (t.shuttle c p).batch = none
      ∧ (t.shuttle c p).wavesSinceWrite = (if 240000 < waves then 0 else waves)
      ∧ u = (if decide (240000 < waves) || b.endsFrame t0 then t0.write else t0) ∧ KeepsMemory s t ∧ t.sched = s.sched := by
  obtain ⟨m, hend⟩ := State.endBatch_of_done hb hp hdone hw
  have hshuttle := State.shuttle_mapShuttle hb
    fun h => { h with batch := none, wavesSinceWrite := if 240000 < waves then 0 else waves }
  have hexec : exec (.batchEnd c p) s = .next (s.endBatch c p) := congrArg Host.Outcome.next (if_pos hc)
  refine ⟨_, t0.atBatchEnd (decide (240000 < waves)) b, hexec.trans (congrArg _ hend), ?stream, ?batch, ?waves,
    Stream.atBatchEnd_of_staying hm, rfl, rfl⟩
  case stream =>
    unfold State.stream? at ht ⊢
    dsimp only
    have hid : ∀ t : Stream, (if t.cluster == c && t.pos == p && t.slot.isSome
        then t.atBatchEnd (decide (240000 < waves)) b else t).id = t.id := by
      intro t
      split
      · rw [Stream.atBatchEnd_id]
      · rfl
    refine (find?_map_stream hid t0.id).trans ?_
    rw [ht, Option.map_some, if_pos (by simp [hcl, hpos, hk])]
  case batch => exact congrArg Shuttle.batch hshuttle
  case waves => exact congrArg Shuttle.wavesSinceWrite hshuttle

/-! ### Moves -/

/-- R225: what the start of a move of a stream that no batch holds leaves of it. -/
theorem leaves_contextMoveStart {s : State} {c' p' k : Nat} {t0 : Stream} (ht : s.stream? t0.id = some t0)
    (hs : s.starting = true) (hto : t0.moveTo = some (c', p')) (hm : t0.moving = false) (hk : t0.slot = some k)
    (hc : t0.companion = none) (hb : s.inBatch t0 = false) :
    LeavesStream (.contextMoveStart t0.id) s t0.id fun _ u => u = ({ t0 with moving := true } : Stream).depart := by
  obtain ⟨m, hw⟩ := s.wroteContexts_frame [t0]
  have hexec : exec (.contextMoveStart t0.id) s = .next (s.startMove t0.id) := congrArg Host.Outcome.next (if_pos hs)
  have hstart : s.startMove t0.id = ({ s with memory := { s.memory with altered := m } } : State).mapStream t0.id
      fun t => ({ t with moving := true } : Stream).depart := by
    unfold State.startMove
    rw [ht]
    dsimp only
    rw [if_neg (by simp [hto, hm, hk, hc]), hb, ← hw]
    rfl
  refine ⟨_, _, hexec.trans (congrArg _ hstart), ?stream, rfl⟩
  case stream =>
    refine (State.stream?_mapStream _ t0.id (f := fun t => ({ t with moving := true } : Stream).depart)
      fun t => Stream.depart_id _).trans ?_
    exact congrArg (Option.map _) ht

/-- R225: what the arrival of a context that reads back right leaves of its stream. -/
theorem leaves_contextMoveArrive {s : State} {c p k : Nat} {t0 : Stream} {prog : Word} {x : ShuttleCtx}
    (ht : s.stream? t0.id = some t0) (hcl : t0.cluster = c) (hpos : t0.pos = p)
    (hn : s.nextProgram c p = some prog) (hslot : s.freeSlot c p = some k) (ha : t0.absent = true)
    (hcand : ∃ x ∈ s.candidates c p, x.stream = t0.id ∧ x.companion = false ∧ x.program = prog)
    (hfree : s.shuttleFree c p = true) (hprog : (s.cluster c).programs.contains prog = true)
    (hread : s.readSaved t0 t0.ctx.nextSeq = some x) (hsaved : t0.savedCompanion = none) :
    LeavesStream (.contextMoveArrive t0.id) s t0.id fun _ u => u = { t0.recallCompanion with
      ctx := { x with moves := x.moves + 1 }, slot := some k, absent := false, change := t0.change.map Change.arrived } := by
  have harrive : s.arriveIfChosen t0.id = s.mapStream t0.id fun t => { t.recallCompanion with
      ctx := { x with moves := x.moves + 1 }, slot := some k, absent := false, change := t.change.map Change.arrived } := by
    have hany : ((s.candidates c p).any fun x => x.stream == t0.id && x.program == prog) = true := by
      obtain ⟨y, hy, hid, _, hpr⟩ := hcand
      exact List.any_eq_true.2 ⟨y, hy, by simp [hid, hpr]⟩
    unfold State.arriveIfChosen
    rw [ht]
    dsimp only
    rw [hcl, hpos, hn, hslot]
    dsimp only
    rw [hany, ha, hfree, hprog]
    unfold State.arrive
    rw [hread]
    dsimp only
    rw [hsaved]
    rfl
  refine ⟨_, _, congrArg Host.Outcome.next harrive, ?stream, rfl⟩
  case stream =>
    refine (State.stream?_mapStream _ t0.id (f := fun t => { t.recallCompanion with
      ctx := { x with moves := x.moves + 1 }, slot := some k, absent := false, change := t.change.map Change.arrived })
      fun _ => rfl).trans ?_
    exact congrArg (Option.map _) ht

/-! ### Weight stores -/

/-- R224: programs that fit beside one more stay. -/
theorem State.evictFor_of_fits {s : State} {c n need : Nat} {held : List Word} (h : s.weightBytes held + need ≤ weightStore) :
    s.evictFor n c held need = held := by
  cases n with
  | zero => rfl
  | succ n => exact if_pos h

/-- R196, R224: a cluster that a program fits in loads it. -/
theorem State.loadProgram_of_fits {s : State} {c : Nat} {prog : Word} (hc : s.computing = true) (hd : s.domainOn (68 + c) = true)
    (hp : (s.programOf prog).isSome = true) (hnot : (s.cluster c).programs.contains prog = false)
    (hused : (s.usedPrograms c).contains prog = true)
    (hfits : s.weightBytes (s.cluster c).programs + s.weightBytes [prog] ≤ weightStore) :
    s.loadProgram c prog = s.mapCluster c fun k => { k with
      programs := prog :: (s.cluster c).programs
      store := (prog, s.readProgram prog) :: k.store.filter fun e => (s.cluster c).programs.contains e.1 } := by
  unfold State.loadProgram
  dsimp only
  rw [State.evictFor_of_fits hfits]
  refine if_neg ?_
  rw [hc, hd, hnot, hused, decide_eq_false (Nat.not_lt.2 hfits)]
  simp [Option.isSome_iff_ne_none.1 hp]

/-! ### The obligation -/

/-- Settles O39: every clause by the lemma of its event. -/
theorem batchesAndMovesComplete : Obligations.BatchesAndMovesComplete := by
  unfold Obligations.BatchesAndMovesComplete
  intro s c p k t0 ht hcl hpos
  refine ⟨?start, ?finish, ?leave, ?arrive, ?load⟩
  case start =>
    intro hf hs hk hk32 hd hc hn hp hlen
    refine leavesStream_mono (leaves_batchStart ht hf hs hk hk32 hd hc hn hp hlen) ?_
    rintro t u ⟨hbatch, rfl⟩
    rw [State.frameUp_plain hn]
    refine ⟨hbatch, fun hin => if_pos hin, fun r hin hr => ?_⟩
    rw [if_neg (by rw [hin]; decide), hr]
    rfl
  case finish =>
    intro b prog hc hb hp hdone hk hm
    dsimp only
    refine leavesStream_mono (leaves_batchEnd ht hcl hpos hc hb hp hdone hk hm rfl) ?_
    rintro t u ⟨hnone, hwaves, rfl, hmem, hsched⟩
    refine ⟨hnone, hwaves, fun hin hframe => ?_, fun hall => ?_, ?_, ?_, ?_, hmem, hsched⟩
    · have hends : b.endsFrame t0 = true := by simp [Batch.endsFrame, hin, hframe]
      rw [if_pos (by simp [hends])]
      rfl
    · rw [if_pos (by simp [hall])]
      rfl
    all_goals split
    all_goals rfl
  case leave =>
    intro c' p' hs hto hm hk hc hb
    refine leavesStream_mono (leaves_contextMoveStart ht hs hto hm hk hc hb) ?_
    rintro t u rfl
    unfold Stream.depart
    dsimp only
    rw [hto]
    exact ⟨rfl, rfl, rfl, rfl, rfl, rfl, rfl, rfl⟩
  case arrive =>
    intro prog x hn hslot ha hcand hfree hprog hread hsaved
    refine leavesStream_mono (leaves_contextMoveArrive ht hcl hpos hn hslot ha hcand hfree hprog hread hsaved) ?_
    rintro t u rfl
    exact ⟨rfl, rfl, rfl, rfl⟩
  case load =>
    intro prog hc hd hp hlt hnot hused hfits
    refine ⟨_, congrArg Host.Outcome.next (State.loadProgram_of_fits hc hd hp hnot hused hfits), ?_, ?_, rfl, rfl⟩
    · rw [State.cluster_mapCluster hlt]
    · unfold State.held
      rw [State.cluster_mapCluster hlt]
      simp

end Sys2Proof.Machine
end


section
/-!
PROOF. RTP egress begins, sends and pauses at its release instants, and Tally decides about fallbacks.
-/
namespace Sys2Proof.Machine

open Sys2Proof Sys2Proof.Safety

/-! ### What the link sends by a moment (R336, R347) -/

/-- A destination without the packets that wait for it. -/
def Dest.unqueued (d : Dest) : Dest := { d with queued := 0 }

/-- An egress descriptor without the packets that wait. -/
def Rtp.unqueued (r : Rtp) : Rtp := { r with dests := r.dests.map Dest.unqueued }

/-- A stream without the packets of its egress that wait. -/
def Stream.unqueued (t : Stream) : Stream :=
  match t.egress with
  | .rtp r => { t with egress := .rtp r.unqueued }
  | _ => t

/-- What the sending of datagrams leaves: all of a stream but the packets that wait for its destinations, the output, the
power, and of the host link whether it is up. -/
structure LinkSends (s t : State) : Prop where
  stream : ∀ id, (t.stream? id).map Stream.unqueued = (s.stream? id).map Stream.unqueued
  out : t.out = s.out
  pads : ∀ d, t.padsOpen d = s.padsOpen d
  up : t.hostLinkUp = s.hostLinkUp

theorem LinkSends.refl (s : State) : LinkSends s s := ⟨fun _ => rfl, rfl, fun _ => rfl, rfl⟩

theorem LinkSends.trans {s t u : State} (h : LinkSends s t) (h' : LinkSends t u) : LinkSends s u :=
  ⟨fun id => (h'.stream id).trans (h.stream id), h'.out.trans h.out, fun d => (h'.pads d).trans (h.pads d), h'.up.trans h.up⟩

/-- R347: a packet less that waits leaves the rest of its destination. -/
theorem modify_unqueued (l : List Dest) (i : Nat) :
    (l.modify i fun d => { d with queued := d.queued - 1 }).map Dest.unqueued = l.map Dest.unqueued := by
  refine List.ext_getElem? fun n => ?_
  simp only [List.getElem?_map, List.getElem?_modify]
  by_cases h : i = n
  · simp only [h, if_true]
    cases l[n]? <;> rfl
  · simp [h]

/-- R347: a packet less that waits for a destination of a stream. -/
theorem Stream.dequeued_unqueued (t : Stream) (i : Nat) : (t.dequeued i).unqueued = t.unqueued ∧ (t.dequeued i).id = t.id := by
  unfold Stream.dequeued Stream.unqueued
  cases h : t.egress with
  | rtp r =>
    refine ⟨?_, rfl⟩
    simp only [Rtp.unqueued, modify_unqueued]
  | none => exact ⟨by simp [h], rfl⟩
  | reed port channel => exact ⟨by simp [h], rfl⟩

/-- R333: the frames that leave do not change whether the link is up. -/
theorem Net.sendFrames_up (fs : List WireFrame) (n : Net) :
    (fs.foldl Net.sendFrame n).rate = n.rate ∧ (fs.foldl Net.sendFrame n).config = n.config
      ∧ (fs.foldl Net.sendFrame n).secured = n.secured := by
  induction fs generalizing n with
  | nil => exact ⟨rfl, rfl, rfl⟩
  | cons f fs ih =>
    have hone : (n.sendFrame f).rate = n.rate ∧ (n.sendFrame f).config = n.config ∧ (n.sendFrame f).secured = n.secured := by
      unfold Net.sendFrame
      split
      · exact ⟨rfl, rfl, rfl⟩
      · exact ⟨rfl, rfl, rfl⟩
    obtain ⟨hr, hc, hs⟩ := ih (n.sendFrame f)
    exact ⟨hr.trans hone.1, hc.trans hone.2.1, hs.trans hone.2.2⟩

/-- A change of the host link that leaves whether it is up. -/
theorem LinkSends.of_net {s : State} {n : Net} (hr : n.rate = s.net.rate) (hc : n.config = s.net.config)
    (hs : n.secured = s.net.secured) : LinkSends s { s with net := n } :=
  ⟨fun _ => rfl, rfl, fun _ => rfl, by simp [State.hostLinkUp, hr, hc, hs]⟩

/-- R347: a packet less that waits for a destination. -/
theorem LinkSends.dequeue (s : State) (id : Word) (i : Nat) : LinkSends s (s.mapStream id (Stream.dequeued · i)) := by
  refine ⟨fun k => ?_, rfl, fun _ => rfl, rfl⟩
  by_cases hk : k = id
  · rw [hk, State.stream?_mapStream s id fun t => (t.dequeued_unqueued i).2, Option.map_map]
    congr 1
    funext t
    exact (t.dequeued_unqueued i).1
  · rw [State.stream?_mapStream_of_ne s (fun t => (t.dequeued_unqueued i).2) hk]

/-- R336: one datagram leaves. -/
theorem LinkSends.sendOne (s : State) : LinkSends s s.linkSendOne := by
  unfold State.linkSendOne
  split
  · exact LinkSends.refl s
  · next d rest _ =>
    obtain ⟨hr, hc, hs⟩ := Net.sendFrames_up d.frames { s.net with queue := rest }
    have hnet := LinkSends.of_net (s := s) hr hc hs
    dsimp only
    split
    · exact hnet.trans (LinkSends.dequeue _ _ _)
    · exact hnet

/-- R336: datagrams leave. -/
theorem LinkSends.send (n : Nat) (s : State) : LinkSends s (State.linkSend n s) := by
  induction n generalizing s with
  | zero => exact LinkSends.refl s
  | succ n ih => exact (LinkSends.sendOne s).trans (ih _)

/-- R336, R347: what has left by a moment. -/
theorem LinkSends.catchUp (s : State) : LinkSends s s.linkCatchUp := by
  unfold State.linkCatchUp
  split
  · have henqueue : LinkSends s s.linkEnqueue := LinkSends.of_net rfl rfl rfl
    obtain ⟨hstream, hout, hpads, hup⟩ := henqueue.trans
      (LinkSends.send (min (Config.linkSent s.linkEnqueue.free) s.linkEnqueue.net.queue.length) s.linkEnqueue)
    exact ⟨hstream, hout, hpads, hup⟩
  · exact LinkSends.refl s

/-- R347: a stream that has sent was the same stream, but for the packets that wait. -/
theorem Stream.of_unqueued_eq {u t : Stream} {d : Rtp} (h : u.unqueued = t.unqueued) (hd : t.egress = .rtp d) :
    ∃ r, u.egress = .rtp r ∧ r.unqueued = d.unqueued ∧ ({ u with egress := t.egress } : Stream) = t := by
  have hsame : ∀ x : Stream, ({ x.unqueued with egress := t.egress } : Stream) = { x with egress := t.egress } := by
    intro x
    unfold Stream.unqueued
    split
    · rfl
    · rfl
  have hrest : ({ u with egress := t.egress } : Stream) = t := by
    rw [← hsame u, h, hsame t]
  have hegress : u.unqueued.egress = .rtp d.unqueued := by rw [h, Stream.unqueued, hd]
  cases hu : u.egress with
  | rtp r =>
    rw [Stream.unqueued, hu] at hegress
    exact ⟨r, rfl, by simpa using hegress, hrest⟩
  | none =>
    rw [Stream.unqueued, hu] at hegress
    rw [hu] at hegress
    cases hegress
  | reed port channel =>
    rw [Stream.unqueued, hu] at hegress
    rw [hu] at hegress
    cases hegress

/-! ### Release instants (R343, R344, R347) -/

/-- R347: a stream of which a destination of its RTP egress is changed. -/
def Stream.withDest (t : Stream) (i : Nat) (f : Dest → Dest) : Stream :=
  match t.egress with
  | .rtp r => { t with egress := .rtp { r with dests := r.dests.modify i f } }
  | _ => t

/-- R339, R344: a stream of which n samples have left as a packet. -/
def Stream.sent (t : Stream) (n : Nat) : Stream :=
  { t with samples := t.samples.drop n, taken := t.taken + n, marker := false, inGap := false, seqNow := t.seqNow + 1,
           tsNow := t.tsNow + BitVec.ofNat 32 n }

theorem Stream.withDest_id (t : Stream) (i : Nat) (f : Dest → Dest) : (t.withDest i f).id = t.id := by
  unfold Stream.withDest
  split
  · rfl
  · rfl

/-- R342: a stream whose ticks come from the local clock or not. -/
def Stream.paced (t : Stream) (b : Bool) : Stream := { t with onLocal := b }

/-- R342, R344: a release instant of a stream whose route stands, its ticks back from the local clock where they may. -/
def State.releasePaced (w : State) (id : Word) (d : Rtp) (back : Bool) : State :=
  let v := if back then w.mapStream id (·.paced false) else w
  match v.stream? id with
  | some t => if t.running then v.releaseOf t d else v
  | none => v

/-- R344: a release instant of a running stream acts on the stream as it is found. -/
theorem State.releasePaced_eq {w : State} {t0 : Stream} {d : Rtp} (ht : w.stream? t0.id = some t0) (hr : t0.running = true)
    (back : Bool) : ∃ (v : State) (b : Bool), w.releasePaced t0.id d back = v.releaseOf (t0.paced b) d
      ∧ v.stream? t0.id = some (t0.paced b) ∧ v.out = w.out ∧ (∀ d, v.padsOpen d = w.padsOpen d)
      ∧ v.hostLinkUp = w.hostLinkUp := by
  cases back with
  | true =>
    have hlocal : (w.mapStream t0.id (·.paced false)).stream? t0.id = some (t0.paced false) := by
      rw [State.stream?_mapStream w t0.id (f := (·.paced false)) fun _ => rfl, ht]
      rfl
    refine ⟨w.mapStream t0.id (·.paced false), false, ?_, hlocal, rfl, fun _ => rfl, rfl⟩
    unfold State.releasePaced
    rw [if_pos rfl]
    dsimp only
    rw [hlocal]
    exact if_pos hr
  | false =>
    refine ⟨w, t0.onLocal, ?_, ht, rfl, fun _ => rfl, rfl⟩
    unfold State.releasePaced
    rw [if_neg (by decide)]
    dsimp only
    rw [ht]
    exact if_pos hr

/-- R344: the state in which a release instant of a stream without a waiting route acts, and the stream there. -/
theorem State.releaseInstant_eq {s : State} {t0 : Stream} {d : Rtp} (ht : s.linkCatchUp.stream? t0.id = some t0)
    (hd : t0.egress = .rtp d) (hr : t0.running = true) (hn : t0.nextRoute = none) :
    ∃ (v : State) (b : Bool), s.releaseInstant t0.id = v.releaseOf (t0.paced b) d
      ∧ v.stream? t0.id = some (t0.paced b) ∧ v.out = s.out ∧ (∀ d, v.padsOpen d = s.padsOpen d)
      ∧ v.hostLinkUp = s.hostLinkUp := by
  obtain ⟨-, hout, hpads, hup⟩ := LinkSends.catchUp s
  have hwait : ((s.linkCatchUp.mapStream t0.id fun _ => t0).countWait t0.id d.pkt).stream? t0.id = some t0 :=
    State.stream?_mapStream_const ht rfl
  have hpaced : s.releaseInstant t0.id = ((s.linkCatchUp.mapStream t0.id fun _ => t0).countWait t0.id d.pkt).releasePaced t0.id d
      (t0.onLocal && ((s.linkCatchUp.mapStream t0.id fun _ => t0).countWait t0.id d.pkt).sourceLocked d.source) := by
    unfold State.releaseInstant
    dsimp only
    rw [ht]
    dsimp only
    rw [if_neg (by simp [Stream.isRtp, hd, hr]), hn]
    dsimp only [Option.elim]
    rw [hd]
    rfl
  obtain ⟨v, b, hv, hstream, hvout, hvpads, hvup⟩ := State.releasePaced_eq (d := d) hwait hr
    (t0.onLocal && ((s.linkCatchUp.mapStream t0.id fun _ => t0).countWait t0.id d.pkt).sourceLocked d.source)
  exact ⟨v, b, hpaced.trans hv, hstream, hvout.trans hout, fun d => (hvpads d).trans (hpads d), hvup.trans hup⟩

/-- R347: one packet towards a multicast destination enters its queue, where the link is up and the queue has room, or is
dropped there. -/
theorem State.sendTo_multicast (s : State) (t : Stream) {d : Dest} (hm : d.multicast = true) (i : Nat) (pkt : Output) :
    ∃ n f, s.sendTo t d i pkt = if s.padsOpen 106 && s.hostLinkUp && d.queued < 2
      then { s with out := s.out ++ [pkt], free := f }.mapStream t.id (·.withDest i fun d => { d with queued := d.queued + 1 })
      else { s with net := n, free := f }.mapStream t.id (·.withDest i fun d => { d with drops := satAdd d.drops 1 }) := by
  unfold State.sendTo
  rw [hm, Bool.true_or, Bool.and_true]
  dsimp only
  by_cases h : (s.padsOpen 106 && s.hostLinkUp && decide (d.queued < 2)) = true
  · simp only [if_pos h]
    exact ⟨s.net, s.free + 1, rfl⟩
  · simp only [if_neg h]
    split
    · exact ⟨s.net, s.free + 1, rfl⟩
    · exact ⟨{ s.net with droppedDown := s.net.droppedDown + 1 }, s.free + 1, rfl⟩

/-- R339, R344, R347: the samples of one packet leave to one multicast destination. -/
theorem State.sendRtp_multicast {s : State} {t : Stream} {d : Rtp} {dst : Dest} (ht : s.stream? t.id = some t)
    (hd : d.dests = [dst]) (hm : dst.multicast = true) (n : Nat) :
    if s.padsOpen 106 && s.hostLinkUp && dst.queued < 2 then
      (s.sendRtp t d n).stream? t.id = some ((t.withDest 0 fun d => { d with queued := d.queued + 1 }).sent n)
        ∧ (s.sendRtp t d n).out = s.out ++ [.rtp t.id 0 t.marker t.seqNow t.tsNow d.ssrc d.pt ((t.samples.take n).flatMap (payloadOf d.payload))
            ⟨d.dscp, d.srcPort, dst.v6, ⟨dst.addr, dst.port⟩⟩]
    else (s.sendRtp t d n).stream? t.id = some ((t.withDest 0 fun d => { d with drops := satAdd d.drops 1 }).sent n)
      ∧ (s.sendRtp t d n).out = s.out := by
  obtain ⟨m, free, hsend⟩ := s.sendTo_multicast t hm 0 (.rtp t.id 0 t.marker t.seqNow t.tsNow d.ssrc d.pt
    ((t.samples.take n).flatMap (payloadOf d.payload)) ⟨d.dscp, d.srcPort, dst.v6, ⟨dst.addr, dst.port⟩⟩)
  have hrtp : s.sendRtp t d n = (s.sendTo t dst 0 (.rtp t.id 0 t.marker t.seqNow t.tsNow d.ssrc d.pt
      ((t.samples.take n).flatMap (payloadOf d.payload)) ⟨d.dscp, d.srcPort, dst.v6, ⟨dst.addr, dst.port⟩⟩)).mapStream t.id
        (·.sent n) := by
    unfold State.sendRtp
    rw [hd]
    rfl
  rw [hrtp, hsend]
  have hfound : ∀ (v : State) (f : Dest → Dest), v.stream? t.id = some t →
      ((v.mapStream t.id (·.withDest 0 f)).mapStream t.id (·.sent n)).stream? t.id = some ((t.withDest 0 f).sent n) := by
    intro v f hv
    rw [State.stream?_mapStream _ t.id (f := (·.sent n)) fun _ => rfl,
      State.stream?_mapStream _ t.id (f := (·.withDest 0 f)) fun t => t.withDest_id 0 f, hv]
    rfl
  by_cases h : (s.padsOpen 106 && s.hostLinkUp && decide (dst.queued < 2)) = true
  · rw [if_pos h, if_pos h]
    exact ⟨hfound _ _ ht, rfl⟩
  · rw [if_neg h, if_neg h]
    exact ⟨hfound _ _ ht, rfl⟩

/-! ### Tally (R285, R288, R289) -/

/-- R288: the event of a decision leaves the streams. -/
theorem State.stream?_event (s : State) (e : EventKind) (st : Status) (context hostTag : Word) (params : List Byte) (id : Word) :
    (s.event e st context hostTag params).stream? id = s.stream? id := by
  unfold State.stream?
  rw [(OutputOnly.event s e st context hostTag params).audio]

/-- R285: a reading of Tally is the evaluation of a stream whose buffer has reached its level once. -/
theorem tallyEvaluation_eq {s : State} {t0 : Stream} (hs : s.starting = true) (ht : s.stream? t0.id = some t0)
    (he : t0.egress ≠ .none) (hl : t0.atLevel = true ∨ t0.level ≤ t0.margin) :
    exec (.tallyEvaluation t0.id) s = .next (s.evaluate t0) := by
  change Host.Outcome.next (if s.starting then s.tallyReading t0.id else s) = _
  rw [if_pos hs]
  unfold State.tallyReading
  rw [ht]
  cases h : t0.egress with
  | none => exact absurd h he
  | rtp d => exact congrArg Host.Outcome.next (by simp [h, hl])
  | reed port channel => exact congrArg Host.Outcome.next (by simp [h, hl])

/-- What Tally leaves that changes a stream. -/
theorem leaves_tally {s v : State} {t0 : Stream} (hs : s.starting = true) (ht : s.stream? t0.id = some t0)
    (he : t0.egress ≠ .none) (hl : t0.atLevel = true ∨ t0.level ≤ t0.margin) {f : Stream → Stream} (hf : ∀ t, (f t).id = t.id)
    (hv : s.evaluate t0 = v) (hstream : v.stream? t0.id = (s.mapStream t0.id f).stream? t0.id) :
    LeavesStream (.tallyEvaluation t0.id) s t0.id fun _ u => u = f t0 := by
  refine ⟨v, f t0, (tallyEvaluation_eq hs ht he hl).trans (congrArg _ hv), ?_, rfl⟩
  rw [hstream, State.stream?_mapStream s t0.id hf, ht]
  rfl

/-- R288, R289: the change that a decision asks for: at a mark while the margin is not urgent, in mode 1 at the next frame. -/
def State.askedChange (s : State) (t : Stream) (e : Nat) (f : Fallback) (threshold urgent : Nat) : Change :=
  { program := f.fallback
    atMark := decide (f.mode ≠ 1 ∧ urgent ≤ t.margin)
    entry := some e
    record := s.fallbackRecord t 0 (if decide (f.mode ≠ 1 ∧ urgent ≤ t.margin) then 0 else 1) threshold f.fallback
    moving := false }

/-- R288: a decision for a program that fits and that the stream's own Shuttle can run asks for it, counts it and reports it. -/
theorem State.tallyDecision_asks {s : State} {t0 : Stream} {threshold urgent e : Nat} {f : Fallback} {now next : Program}
    (hentry : fallbackFor s.live.table4 t0.current = some (e, f)) (hnow : s.programOf t0.current = some now)
    (hnext : s.programOf f.fallback = some next) (hlen : now.condLen = next.condLen) (hfmt : now.condFmt = next.condFmt)
    (hruns : s.runsOn t0 f.fallback = some t0.home) :
    s.tallyDecision t0 threshold urgent
      = ((s.mapStream t0.id fun t => t.await (s.askedChange t0 e f threshold urgent) t0.home).mapAccount t0.client
          fun (a, b, c, d, n) => (a, b, c, d, satAdd n 1)).event .fallback .ok t0.id 0
            (s.askedChange t0 e f threshold urgent).record := by
  have hmode : ((if (f.mode == 1 || decide (t0.margin < urgent)) = true then 1 else 0) : Nat)
      = if decide (f.mode ≠ 1 ∧ urgent ≤ t0.margin) = true then 0 else 1 := by
    by_cases h1 : f.mode = 1
    · simp [h1]
    · by_cases hu : urgent ≤ t0.margin
      · simp [h1, hu, Nat.not_lt.2 hu]
      · simp [h1, hu, Nat.not_le.1 hu]
  have hmark : ((if decide (f.mode ≠ 1 ∧ urgent ≤ t0.margin) = true then 0 else 1 : Nat) == 0)
      = decide (f.mode ≠ 1 ∧ urgent ≤ t0.margin) := by
    cases decide (f.mode ≠ 1 ∧ urgent ≤ t0.margin) <;> rfl
  unfold State.tallyDecision
  rw [hentry]
  dsimp only
  rw [hnow, hnext]
  dsimp only
  rw [if_pos (by simp [hlen, hfmt]), hruns]
  dsimp only
  rw [hmode, hmark]
  rfl

/-! ### The obligation -/

/-- R344: what a release instant of a running stream without a waiting route leaves, by what it leaves of that stream. -/
theorem leaves_releaseInstant {s : State} {t0 : Stream} {d : Rtp} (hs : s.starting = true)
    (ht : s.linkCatchUp.stream? t0.id = some t0) (hd : t0.egress = .rtp d) (hr : t0.running = true) (hn : t0.nextRoute = none)
    {p : State → Stream → Prop}
    (h : ∀ (v : State) (b : Bool), v.stream? t0.id = some (t0.paced b) → v.out = s.out → (∀ d, v.padsOpen d = s.padsOpen d) →
      v.hostLinkUp = s.hostLinkUp → ∃ u, (v.releaseOf (t0.paced b) d).stream? t0.id = some u ∧ p (v.releaseOf (t0.paced b) d) u) :
    LeavesStream (.releaseInstant t0.id) s t0.id p := by
  obtain ⟨v, b, hv, hstream, hout, hpads, hup⟩ := State.releaseInstant_eq ht hd hr hn
  obtain ⟨u, hu, hp⟩ := h v b hstream hout hpads hup
  exact ⟨_, u, congrArg Host.Outcome.next ((if_pos hs).trans hv), hu, hp⟩

/-- R344, R347: a release instant with a full packet. -/
theorem leaves_releaseInstant_packet {s : State} {t0 : Stream} {d : Rtp} (hs : s.starting = true) (ht : s.linkCatchUp.stream? t0.id = some t0)
    (hd : t0.egress = .rtp d) (hr : t0.running = true) (hn : t0.nextRoute = none) {dst : Dest} (hdst : d.dests = [dst])
    (hlen : d.pkt ≤ t0.samples.length) (hgap : t0.inGap = true → t0.level ≤ t0.samples.length ∨ t0.ctx.ended = true)
    (hm : dst.multicast = true) :
    LeavesStream (.releaseInstant t0.id) s t0.id fun t u => ∃ (b : Bool) (f : Dest → Dest), u = ((t0.paced b).withDest 0 f).sent d.pkt
      ∧ (s.padsOpen 106 = true → s.hostLinkUp = true → dst.queued < 2 → f dst = { dst with queued := dst.queued + 1 }
          ∧ t.out = s.out ++ [.rtp t0.id 0 t0.marker t0.seqNow t0.tsNow d.ssrc d.pt
              ((t0.samples.take d.pkt).flatMap (payloadOf d.payload)) ⟨d.dscp, d.srcPort, dst.v6, ⟨dst.addr, dst.port⟩⟩])
      ∧ (s.hostLinkUp = false ∨ 2 ≤ dst.queued → t.out = s.out ∧ f dst = { dst with drops := satAdd dst.drops 1 }) := by
  refine leaves_releaseInstant hs ht hd hr hn fun v b hstream hout hpads hup => ?_
  have hsend : v.releaseOf (t0.paced b) d = v.sendRtp (t0.paced b) d d.pkt := by
    have hge : ¬ (t0.paced b).margin < d.pkt := Nat.not_lt.2 hlen
    unfold State.releaseOf
    rw [if_neg (by simp [hge]), if_neg]
    simp only [hge, decide_false, Bool.false_or, Bool.and_eq_true, Bool.not_eq_true', decide_eq_true_eq]
    rintro ⟨⟨hin, hlt⟩, hend⟩
    rcases hgap hin with h | h
    · exact absurd hlt (Nat.not_lt.2 h)
    · rw [show (t0.paced b).ctx.ended = t0.ctx.ended from rfl, h] at hend
      cases hend
  have hsent := State.sendRtp_multicast (s := v) (t := t0.paced b) (d := d) hstream hdst hm d.pkt
  rw [hsend]
  rw [hpads 106, hup, hout] at hsent
  by_cases hreach : (s.padsOpen 106 && s.hostLinkUp && decide (dst.queued < 2)) = true
  · rw [if_pos hreach] at hsent
    obtain ⟨hu, ho⟩ := hsent
    simp only [Bool.and_eq_true, decide_eq_true_eq] at hreach
    obtain ⟨⟨_, hlink⟩, hq⟩ := hreach
    refine ⟨_, hu, b, _, rfl, fun _ _ _ => ⟨rfl, ho⟩, fun hno => ?_⟩
    rcases hno with h | h
    · rw [hlink] at h; cases h
    · exact absurd hq (Nat.not_lt.2 h)
  · rw [if_neg hreach] at hsent
    obtain ⟨hu, ho⟩ := hsent
    exact ⟨_, hu, b, _, rfl, fun hpad hlink hq => absurd (by simp [hpad, hlink, hq]) hreach, fun _ => ⟨ho, rfl⟩⟩

/-- R344: a release instant without enough samples. -/
theorem leaves_releaseInstant_gap {s : State} {t0 : Stream} {d : Rtp} (hs : s.starting = true) (ht : s.linkCatchUp.stream? t0.id = some t0)
    (hd : t0.egress = .rtp d) (hr : t0.running = true) (hn : t0.nextRoute = none)
    (hend : t0.ctx.ended = false) (hfew : t0.samples.length < d.pkt ∨ (t0.inGap = true ∧ t0.samples.length < t0.level)) :
    LeavesStream (.releaseInstant t0.id) s t0.id fun t u => (∃ b, u = (t0.paced b).skipRelease d.pkt) ∧ t.out = s.out := by
  refine leaves_releaseInstant hs ht hd hr hn fun v b hstream hout _ _ => ⟨(t0.paced b).skipRelease d.pkt, ?_⟩
  have hskip : v.releaseOf (t0.paced b) d = v.mapStream t0.id fun t => t.skipRelease d.pkt := by
    have hend' : (t0.paced b).ctx.ended = false := hend
    unfold State.releaseOf
    rw [hend', if_neg (by simp), if_pos]
    · rfl
    · have hmargin : (t0.paced b).margin = t0.samples.length := rfl
      have hlevel : (t0.paced b).level = t0.level := rfl
      have hgap : (t0.paced b).inGap = t0.inGap := rfl
      rw [hmargin, hlevel, hgap]
      simpa using hfew
  rw [hskip]
  refine ⟨?_, ⟨b, rfl⟩, hout⟩
  rw [State.stream?_mapStream v t0.id (f := fun t => t.skipRelease d.pkt) fun _ => rfl, hstream]
  rfl

/-- R343: a release instant of a stream that has ended and sent everything. -/
theorem leaves_releaseInstant_ended {s : State} {t0 : Stream} {d : Rtp} (hs : s.starting = true) (ht : s.linkCatchUp.stream? t0.id = some t0)
    (hd : t0.egress = .rtp d) (hr : t0.running = true) (hn : t0.nextRoute = none)
    (hend : t0.ctx.ended = true) (hempty : t0.samples = []) (hpkt : 1 ≤ d.pkt) :
    LeavesStream (.releaseInstant t0.id) s t0.id fun t u =>
      (∃ b, u = { t0.paced b with running := false, inGap := false }) ∧ t.out = s.out := by
  refine leaves_releaseInstant hs ht hd hr hn fun v b hstream hout _ _ =>
    ⟨{ t0.paced b with running := false, inGap := false }, ?_⟩
  have hstop : v.releaseOf (t0.paced b) d = v.mapStream t0.id fun t => { t with running := false, inGap := false } := by
    have hzero : (t0.paced b).margin = 0 := by simp [Stream.margin, Stream.paced, hempty]
    unfold State.releaseOf
    rw [hzero, if_pos (by simpa [show (t0.paced b).ctx.ended = true from hend] using Nat.lt_of_lt_of_le Nat.zero_lt_one hpkt)]
    rfl
  rw [hstop]
  refine ⟨?_, ⟨b, rfl⟩, hout⟩
  rw [State.stream?_mapStream v t0.id (f := fun t => { t with running := false, inGap := false }) fun _ => rfl, hstream]
  rfl

/-- Settles O40: egress by what a release instant makes of its stream, Tally by the branches of its evaluation. -/
theorem egressAndTallyComplete : Obligations.EgressAndTallyComplete := by
  unfold Obligations.EgressAndTallyComplete
  refine ⟨fun s t0 d hs => ⟨?start, ?release⟩, fun s t0 hs ht he hl hc => ⟨?hold, fun threshold urgent hzero hthr => ⟨?above, ?below⟩⟩⟩
  case start =>
    intro ht hd hr hl
    refine ⟨_, _, congrArg Host.Outcome.next (if_pos hs), ?_, rfl⟩
    have hid : ∀ t : Stream, t.startEgress.id = t.id := by
      intro t
      unfold Stream.startEgress
      split
      · rfl
      · rfl
    rw [State.stream?_mapStream s t0.id hid, ht, Option.map_some]
    unfold Stream.startEgress
    rw [if_pos (by simpa [Stream.isRtp, hd, hr] using hl)]
  case release =>
    intro ht hd hr hn
    dsimp only
    refine ⟨(LinkSends.catchUp s).out, ?before, ?packet, ?gap, ?finished⟩
    case before =>
      have hstream := (LinkSends.catchUp s).stream t0.id
      rw [ht, Option.map_some] at hstream
      obtain ⟨u, hu, hsame⟩ := Option.map_eq_some_iff.1 hstream.symm
      obtain ⟨r, hegress, hqueue, hrest⟩ := Stream.of_unqueued_eq hsame hd
      exact ⟨u, r, hu, hegress, hqueue, hrest⟩
    case packet =>
      intro dst hdst hlen _ hgap hm
      refine leavesStream_mono (leaves_releaseInstant_packet hs ht hd hr hn hdst hlen hgap hm) ?_
      rintro t u ⟨b, f, rfl, hsent, hdrop⟩
      have hegress : (((t0.paced b).withDest 0 f).sent d.pkt).egress = .rtp { d with dests := [f dst] } := by
        simp [Stream.sent, Stream.withDest, Stream.paced, hd, hdst]
      have hrest : (t0.paced b).withDest 0 f = { t0.paced b with egress := .rtp { d with dests := [f dst] } } := by
        simp [Stream.withDest, Stream.paced, hd, hdst]
      rw [hegress, hrest]
      refine ⟨rfl, rfl, rfl, rfl, rfl, rfl, rfl, fun hpad hlink hq => ?_, fun hno => ?_⟩
      · obtain ⟨hf, hout⟩ := hsent hpad hlink hq
        exact ⟨by rw [hf], hout⟩
      · obtain ⟨hout, hf⟩ := hdrop hno
        exact ⟨hout, by rw [hf]⟩
    case gap =>
      intro hend hfew
      refine leavesStream_mono (leaves_releaseInstant_gap hs ht hd hr hn hend hfew) ?_
      rintro t u ⟨⟨b, rfl⟩, hout⟩
      exact ⟨rfl, rfl, rfl, rfl, rfl, hout, rfl⟩
    case finished =>
      intro hend hempty hpkt
      refine leavesStream_mono (leaves_releaseInstant_ended hs ht hd hr hn hend hempty hpkt) ?_
      rintro t u ⟨⟨b, rfl⟩, hout⟩
      exact ⟨rfl, rfl, hout, rfl, rfl⟩
  case hold =>
    intro n hn
    refine leavesStream_mono (leaves_tally (f := fun t => { t with hold := t.hold - 1 })
      (v := s.mapStream t0.id fun t => { t with hold := t.hold - 1 }) hs ht he hl (fun _ => rfl) ?_ rfl) ?_
    · unfold State.evaluate
      cases s.threshold t0 with
      | none => exact if_neg (by simp [hn])
      | some x => simp [hc, hn]
    · rintro t u rfl
      rw [hn]
      rfl
  case above =>
    intro hle
    refine leaves_tally (f := fun t => { t with decided := false }) hs ht he hl (fun _ => rfl) ?_ rfl
    unfold State.evaluate
    rw [hthr]
    simp [hc, hzero, hle]
  case below =>
    intro hlt hdec
    have hdecides : s.evaluate t0 = s.tallyDecision t0 threshold urgent := by
      unfold State.evaluate
      rw [hthr]
      simp [hc, hzero, Nat.not_le.2 hlt, hdec]
    refine ⟨?refuse, ?ask⟩
    case refuse =>
      intro hno
      refine leaves_tally (f := fun t => { t with decided := true })
        (v := (s.mapStream t0.id fun t => { t with decided := true }).event .fallback .ok t0.id 0
          (s.fallbackRecord t0 2 0 threshold 0)) hs ht he hl (fun _ => rfl) (hdecides.trans ?_)
        (State.stream?_event _ _ _ _ _ _ _)
      unfold State.tallyDecision
      rw [hno]
    case ask =>
      intro e f now next hentry hnow hnext hlen hfmt hruns
      dsimp only
      refine leavesStream_mono (leaves_tally (f := fun t => t.await (s.askedChange t0 e f threshold urgent) t0.home) hs ht he hl
        (fun _ => rfl) (hdecides.trans (State.tallyDecision_asks hentry hnow hnext hlen hfmt hruns))
        (State.stream?_event _ _ _ _ _ _ _)) ?_
      rintro t u rfl
      simp [Stream.await, State.askedChange]

end Sys2Proof.Machine
end


section
/-!
PROOF. Reed inputs and word clocks lock and lose lock, and frames arrive.
-/
namespace Sys2Proof.Machine

open Sys2Proof Sys2Proof.Safety

/-! ### Reed ports that change -/

/-- Two changes of an element that agree on it. -/
theorem modify_congr {α : Type} {l : List α} {i : Nat} {f g : α → α} (h : ∀ x, l[i]? = some x → f x = g x) :
    l.modify i f = l.modify i g := by
  refine List.ext_getElem? fun j => ?_
  rw [List.getElem?_modify, List.getElem?_modify]
  by_cases hij : i = j
  · cases hl : l[j]? with
    | none => rfl
    | some x => simpa [hij] using h x (hij ▸ hl)
  · simp [hij]

/-- What a change of Reed ports leaves of a port. -/
theorem State.reed_mapReed_keeps {α : Type} {g : ReedPort → α} {f : ReedPort → ReedPort} (h : ∀ p, g (f p) = g p) (s : State)
    (c d : Nat) : g ((s.mapReed c f).reed d) = g (s.reed d) := by
  have hlist : ∀ (l : List ReedPort) (i j : Nat), g (nth (l.modify i f) j .stopped) = g (nth l j .stopped) := by
    intro l i j
    unfold nth
    rw [List.getElem?_modify]
    by_cases hij : i = j
    · cases hl : l[j]? with
      | none => rfl
      | some p => simp [hij, h]
    · cases l[j]? with
      | none => rfl
      | some p => simp [hij]
  unfold State.mapReed State.reed
  by_cases hc : c < 16
  · rw [if_pos hc]
    split
    · exact hlist _ _ _
    · rfl
  · rw [if_neg hc]
    split
    · rfl
    · exact hlist _ _ _

/-- A port that is not as a stopped one is there. -/
theorem State.reed_mapReed_of_ne_stopped {s : State} {c : Nat} (h : s.reed c ≠ .stopped) (f : ReedPort → ReedPort) :
    (s.mapReed c f).reed c = f (s.reed c) := by
  unfold State.reed nth at h ⊢
  unfold State.mapReed
  by_cases hc : c < 16
  · rw [if_pos hc] at h
    simp only [hc, if_true]
    cases hl : s.audio.ins[c]? with
    | none => rw [hl] at h; exact absurd rfl h
    | some p => simp [hl]
  · rw [if_neg hc] at h
    simp only [hc, if_false]
    cases hl : s.audio.outs[c - 16]? with
    | none => rw [hl] at h; exact absurd rfl h
    | some p => simp [hl]

/-- A running port is there. -/
theorem State.reed_mapReed_of_running {s : State} {c : Nat} (h : (s.reed c).running = true) (f : ReedPort → ReedPort) :
    (s.mapReed c f).reed c = f (s.reed c) :=
  State.reed_mapReed_of_ne_stopped (fun he => by rw [he] at h; cases h) f

/-- A locked port is there. -/
theorem State.reed_mapReed_of_locked {s : State} {c : Nat} (h : (s.reed c).locked = true) (f : ReedPort → ReedPort) :
    (s.mapReed c f).reed c = f (s.reed c) :=
  State.reed_mapReed_of_ne_stopped (fun he => by rw [he] at h; cases h) f

/-- Two changes of a port that agree on it. -/
theorem State.mapReed_congr {s : State} {c : Nat} {f g : ReedPort → ReedPort} (h : f (s.reed c) = g (s.reed c)) :
    s.mapReed c f = s.mapReed c g := by
  unfold State.reed nth at h
  unfold State.mapReed
  by_cases hc : c < 16
  · simp only [hc, if_true] at h ⊢
    rw [modify_congr fun p hp => by simpa [hp] using h]
  · simp only [hc, if_false] at h ⊢
    rw [modify_congr fun p hp => by simpa [hp] using h]

/-- A change of a port that leaves it. -/
theorem State.mapReed_self {s : State} {c : Nat} {f : ReedPort → ReedPort} (h : f (s.reed c) = s.reed c) : s.mapReed c f = s := by
  rw [State.mapReed_congr (g := id) h]
  unfold State.mapReed
  rw [List.modify_id, List.modify_id]
  exact ite_self s

/-! ### Outputs whose clock is lost (R454) -/

/-- R454: an output that loses its clock. -/
def ReedPort.clockLost (p : ReedPort) : ReedPort := { p with clockOk := false, lockLosses := satAdd p.lockLosses 1 }

/-- R454: a stream of an output that loses its clock. -/
def Stream.losesOutput (n : Nat) (t : Stream) : Stream :=
  if t.reedOut.any (fun o => o.1 == n) then { t with sourceLoss := satAdd t.sourceLoss 1 } else t

/-- R454: an output's lost clock. -/
theorem State.outputLost_eq (s : State) (n : Nat) :
    s.outputLost n = if 16 ≤ n || !(s.reed (16 + n)).running || !(s.reed (16 + n)).clockOk then s
      else (s.mapReed (16 + n) ReedPort.clockLost).mapStreams (Stream.losesOutput n) := rfl

/-- R454: one output, stopped counting on its clock where that is not usable. -/
def State.checkOutput (s : State) (n : Nat) : State :=
  if (s.reed (16 + n)).running && !s.clockUsable (16 + n) then s.outputLost n else s

theorem State.checkOutputs_eq (s : State) : s.checkOutputs = (List.range 16).foldl State.checkOutput s := rfl

/-- What a check of the outputs' clocks leaves. -/
structure ChecksOnly (s t : State) : Prop where
  memory : t.memory = s.memory
  out : t.out = s.out
  live : t.live = s.live
  ins : t.audio.ins = s.audio.ins
  wclks : t.audio.wclks = s.audio.wclks
  locked : ∀ c, (t.reed c).locked = (s.reed c).locked
  measRate : ∀ c, (t.reed c).measRate = (s.reed c).measRate

theorem ChecksOnly.refl (s : State) : ChecksOnly s s := ⟨rfl, rfl, rfl, rfl, rfl, fun _ => rfl, fun _ => rfl⟩

theorem ChecksOnly.trans {s t u : State} (h : ChecksOnly s t) (h' : ChecksOnly t u) : ChecksOnly s u :=
  ⟨h'.memory.trans h.memory, h'.out.trans h.out, h'.live.trans h.live, h'.ins.trans h.ins, h'.wclks.trans h.wclks,
    fun c => (h'.locked c).trans (h.locked c), fun c => (h'.measRate c).trans (h.measRate c)⟩

/-- The inputs are as they were. -/
theorem ChecksOnly.reed {s t : State} (h : ChecksOnly s t) {k : Nat} (hk : k < 16) : t.reed k = s.reed k := by
  unfold State.reed
  rw [if_pos hk, if_pos hk, h.ins]

/-- The clocks are as they were. -/
theorem ChecksOnly.clockUsable {s t : State} (h : ChecksOnly s t) (code : Nat) : t.clockUsable code = s.clockUsable code := by
  have hconfig : ∀ c, t.reedConfig c = s.reedConfig c := fun c => by unfold State.reedConfig; rw [h.live]
  have hstate : ∀ c, t.clockState c = s.clockState c := by
    intro c
    unfold State.clockState
    dsimp only
    rw [h.wclks, h.locked, h.measRate, hconfig]
  unfold State.clockUsable
  rw [hstate, hconfig, show t.reedClock code = s.reedClock code by unfold State.reedClock; rw [hconfig]]

/-- R454: an output's lost clock. -/
theorem ChecksOnly.outputLost (s : State) (n : Nat) : ChecksOnly s (s.outputLost n) := by
  rw [State.outputLost_eq]
  split
  · exact ChecksOnly.refl s
  · have h16 : ¬ 16 + n < 16 := by omega
    refine ⟨?_, ?_, ?_, ?_, ?_, fun c => ?_, fun c => ?_⟩
    case refine_6 => exact State.reed_mapReed_keeps (g := ReedPort.locked) (by intro _; rfl) s (16 + n) c
    case refine_7 => exact State.reed_mapReed_keeps (g := ReedPort.measRate) (by intro _; rfl) s (16 + n) c
    all_goals simp only [State.mapReed, State.mapStreams, h16, if_false]

theorem ChecksOnly.checkOutput (s : State) (n : Nat) : ChecksOnly s (s.checkOutput n) := by
  unfold State.checkOutput
  split
  · exact ChecksOnly.outputLost s n
  · exact ChecksOnly.refl s

theorem ChecksOnly.foldl (l : List Nat) (s : State) : ChecksOnly s (l.foldl State.checkOutput s) := by
  induction l generalizing s with
  | nil => exact ChecksOnly.refl s
  | cons n l ih => exact (ChecksOnly.checkOutput s n).trans (ih _)

/-- R454: the check of one output leaves the others. -/
theorem State.reed_checkOutput_of_ne (s : State) {n k : Nat} (h : k ≠ n) :
    (s.checkOutput n).reed (16 + k) = s.reed (16 + k) := by
  unfold State.checkOutput
  split
  · rw [State.outputLost_eq]
    split
    · rfl
    · exact State.reed_mapReed_of_ne s (by omega) _
  · rfl

/-- R454: the checks of other outputs leave an output. -/
theorem State.reed_checkOutputs_of_not_mem {l : List Nat} {k : Nat} (hk : k ∉ l) (s : State) :
    (l.foldl State.checkOutput s).reed (16 + k) = s.reed (16 + k) := by
  induction l generalizing s with
  | nil => rfl
  | cons n l ih =>
    obtain ⟨hne, hl⟩ := not_or.1 (fun h => hk (List.mem_cons.2 h))
    exact (ih hl _).trans (s.reed_checkOutput_of_ne hne)

/-- R454: a running output whose clock is no longer usable loses it. -/
theorem State.reed_checkOutput_lost {s : State} {n : Nat} (hn : n < 16) (hr : (s.reed (16 + n)).running = true)
    (hok : (s.reed (16 + n)).clockOk = true) (hu : s.clockUsable (16 + n) = false) :
    (s.checkOutput n).reed (16 + n) = (s.reed (16 + n)).clockLost := by
  unfold State.checkOutput
  rw [if_pos (by simp [hr, hu]), State.outputLost_eq]
  rw [if_neg (by simp [hr, hok, hn])]
  exact State.reed_mapReed_of_running hr ReedPort.clockLost

/-- R454: among the outputs that are checked, a running one whose clock is no longer usable loses it once. -/
theorem State.reed_checkOutputs_lost {l : List Nat} (hl : l.Nodup) {s : State} {n : Nat} (hmem : n ∈ l) (hn : n < 16)
    (hr : (s.reed (16 + n)).running = true) (hok : (s.reed (16 + n)).clockOk = true) (hu : s.clockUsable (16 + n) = false) :
    (l.foldl State.checkOutput s).reed (16 + n) = (s.reed (16 + n)).clockLost := by
  induction l generalizing s with
  | nil => cases hmem
  | cons m l ih =>
    obtain ⟨hm, hl'⟩ := List.nodup_cons.1 hl
    by_cases hnm : n = m
    · rw [List.foldl_cons, State.reed_checkOutputs_of_not_mem (hnm ▸ hm), ← hnm, State.reed_checkOutput_lost hn hr hok hu]
    · have hsame := s.reed_checkOutput_of_ne hnm
      have hcheck := ChecksOnly.checkOutput s m
      rw [List.foldl_cons, ih hl' (List.mem_of_ne_of_mem hnm hmem) (hsame ▸ hr) (hsame ▸ hok)
        ((hcheck.clockUsable _).trans hu), hsame]

/-- R454: where every running output with its clock has a usable one, nothing is lost. -/
theorem State.checkOutputs_of_usable {l : List Nat} {s : State} (hl : ∀ n ∈ l, n < 16)
    (h : ∀ k < 16, (s.reed (16 + k)).running = true → (s.reed (16 + k)).clockOk = true → s.clockUsable (16 + k) = true) :
    l.foldl State.checkOutput s = s := by
  induction l with
  | nil => rfl
  | cons n l ih =>
    have hstay : s.checkOutput n = s := by
      unfold State.checkOutput
      split
      next hlost =>
        obtain ⟨hr, hu⟩ := Bool.and_eq_true_iff.1 hlost
        have hno : (s.reed (16 + n)).clockOk = false := by
          cases hok : (s.reed (16 + n)).clockOk with
          | false => rfl
          | true => rw [h n (hl n List.mem_cons_self) hr hok] at hu; cases hu
        exact if_pos (by simp [hno])
      next => rfl
    rw [List.foldl_cons, hstay]
    exact ih fun m hm => hl m (List.mem_cons_of_mem _ hm)

/-- R454: what the check of all outputs leaves. -/
theorem State.checkOutputs_leaves (u : State) :
    u.checkOutputs.memory = u.memory ∧ u.checkOutputs.out = u.out ∧ (∀ k < 16, u.checkOutputs.reed k = u.reed k)
      ∧ ((∀ k < 16, (u.reed (16 + k)).running = true → (u.reed (16 + k)).clockOk = true → u.clockUsable (16 + k) = true) →
          u.checkOutputs = u)
      ∧ (u.audio.outs.length = 16 → ∀ k < 16, (u.reed (16 + k)).running = true → (u.reed (16 + k)).clockOk = true →
          u.clockUsable (16 + k) = false → (u.checkOutputs.reed (16 + k)).clockOk = false
            ∧ (u.checkOutputs.reed (16 + k)).lockLosses = satAdd (u.reed (16 + k)).lockLosses 1) := by
  have hchecks : ChecksOnly u u.checkOutputs := ChecksOnly.foldl _ u
  refine ⟨hchecks.memory, hchecks.out, fun k hk => hchecks.reed hk,
    State.checkOutputs_of_usable fun n hn => List.mem_range.1 hn, fun _ k hk hr hok hu => ?_⟩
  rw [State.checkOutputs_eq, State.reed_checkOutputs_lost List.nodup_range (List.mem_range.2 hk) hk hr hok hu]
  exact ⟨rfl, rfl⟩

/-! ### Losses of lock (R342, R441, R445) -/

/-- R342: the RTP streams that a source paces, once it has lost lock. -/
def Stream.losesSource (source : Nat) (t : Stream) : Stream :=
  match t.egress with
  | .rtp d => if d.source = source ∧ t.running = true then
      { t with onLocal := true, sourceLoss := satAdd t.sourceLoss 1 } else t
  | _ => t

/-- R342: a source that has lost lock. -/
theorem State.sourceLost_eq (s : State) (source : Nat) : s.sourceLost source = s.mapStreams (Stream.losesSource source) := by
  unfold State.sourceLost
  dsimp only
  congr 1
  funext t
  unfold Stream.losesSource
  cases t.egress with
  | rtp d => simp
  | none => rfl
  | reed port channel => rfl

/-- R441: an input that has lost lock. -/
def ReedPort.lockLost (p : ReedPort) : ReedPort := { p with locked := false, lockLosses := satAdd p.lockLosses 1, measRate := 0 }

/-- R464, R468: the ingress streams of an input that has lost lock. -/
theorem Ingress.loseLock_eq (n : Nat) (g : Ingress) :
    g.loseLock n = if g.port = n ∧ 0 < g.processed + g.input.length then { g with lockLost := true } else g := by
  unfold Ingress.loseLock
  simp

/-- A word clock that is there, changed. -/
theorem State.mapWclk_congr {s : State} {n : Nat} {w : Wclk} {f g : Wclk → Wclk} (hw : s.audio.wclks[n]? = some w)
    (h : f w = g w) : s.mapWclk n f = s.mapWclk n g := by
  unfold State.mapWclk
  have hmodify : s.audio.wclks.modify n f = s.audio.wclks.modify n g := by
    refine modify_congr fun x hx => ?_
    rw [hw, Option.some.injEq] at hx
    rw [← hx, h]
  rw [hmodify]

/-! ### Frames (R442 to R444, R459) -/

/-- R443: an input with a count of bad frames. -/
def ReedPort.withErrors (e : Half) (p : ReedPort) : ReedPort := { p with frameErrors := e }

/-- R442, R443: a frame at an input that runs is counted where it is bad, and enters the crossing where its preambles are good. -/
theorem State.inputFrame_eq {s : State} {n : Nat} (f : ReedFrame) (hn : n < 16) (hr : (s.reed n).running = true)
    (hst : (s.reed n).started = true) (hl : (s.reed n).locked = true) (hstop : (s.reed n).stopping = false)
    (hpads : s.padsOpen (107 + n / 8) = true) :
    s.inputFrame n f =
      let v := s.mapReed n (ReedPort.withErrors
        (if f.preambleOk && (f.parity0 && f.parity1) then (s.reed n).frameErrors else satAdd (s.reed n).frameErrors 1))
      if f.preambleOk then v.enterCrossing n (f.sample0, f.valid0 || !(f.parity0 && f.parity1), f.sample1,
        f.valid1 || !(f.parity0 && f.parity1)) else v := by
  unfold State.inputFrame
  dsimp only
  rw [if_neg (by simp [hr, hst, hl, reedDomain, hpads, hn]), if_neg (by simp [hstop])]
  by_cases hgood : (f.preambleOk && (f.parity0 && f.parity1)) = true
  · rw [if_pos hgood, if_pos hgood, State.mapReed_self (f := ReedPort.withErrors (s.reed n).frameErrors) rfl]
  · rw [if_neg hgood, if_neg hgood,
      State.mapReed_congr (f := fun p => { p with frameErrors := satAdd p.frameErrors 1 })
        (g := ReedPort.withErrors (satAdd (s.reed n).frameErrors 1)) rfl]

/-- R59, R473: a frame taken by the pipeline from an empty crossing. -/
theorem State.enterCrossing_of_empty {s : State} {n : Nat} (f : BitVec 24 × Bool × BitVec 24 × Bool) (hd : s.domainOn 111 = true)
    (he : (s.reed n).fifo = []) : s.enterCrossing n f = s.deliverFrame n f := by
  unfold State.enterCrossing
  rw [if_pos hd, he, State.mapReed_self (by rw [← he])]
  rfl

/-- R444: a frame at a crossing that nothing empties. -/
theorem State.enterCrossing_of_off {s : State} {n : Nat} (f : BitVec 24 × Bool × BitVec 24 × Bool) (hd : s.domainOn 111 = false) :
    s.enterCrossing n f = s.mapReed n fun p => if 32 ≤ (s.reed n).fifo.length then { p with drops := satAdd p.drops 1 }
      else { p with fifo := p.fifo ++ [f] } := by
  unfold State.enterCrossing
  rw [if_neg (by rw [hd]; decide)]
  split
  · rfl
  · rfl

/-- R459: a delivered sample of an ingress stream of the port. -/
theorem Ingress.take_eq (g : Ingress) (n stamp : Nat) (f : BitVec 24 × Bool × BitVec 24 × Bool) :
    g.take n stamp f = if g.port = n then
      { g with
        input := g.input ++ [(if g.channel = 0 then ⟨f.1, f.2.1, g.lockLost, stamp⟩ else ⟨f.2.2.1, f.2.2.2, g.lockLost, stamp⟩)],
        lockLost := false } else g := by
  unfold Ingress.take
  by_cases h : g.port = n
  · simp [h]
  · simp [h]

/-- R444: what a frame leaves of an input's port and of the rest. -/
theorem State.enterCrossing_keeps (s : State) (n : Nat) (f : BitVec 24 × Bool × BitVec 24 × Bool) :
    (s.enterCrossing n f).memory = s.memory ∧ (s.enterCrossing n f).out = s.out
      ∧ ((s.enterCrossing n f).reed n).frameErrors = (s.reed n).frameErrors := by
  have hmap : ∀ g : ReedPort → ReedPort, (s.mapReed n g).memory = s.memory ∧ (s.mapReed n g).out = s.out := by
    intro g
    unfold State.mapReed
    split
    · exact ⟨rfl, rfl⟩
    · exact ⟨rfl, rfl⟩
  have hdeliver : ∀ (l : List (BitVec 24 × Bool × BitVec 24 × Bool)) (u : State),
      (l.foldl (fun s x => s.deliverFrame n x) u).memory = u.memory ∧ (l.foldl (fun s x => s.deliverFrame n x) u).out = u.out
        ∧ (l.foldl (fun s x => s.deliverFrame n x) u).reed n = u.reed n := by
    intro l
    induction l with
    | nil => exact fun u => ⟨rfl, rfl, rfl⟩
    | cons x l ih => exact fun u => ih (u.deliverFrame n x)
  unfold State.enterCrossing
  split
  · obtain ⟨hmem, hout, hreed⟩ := hdeliver ((s.reed n).fifo ++ [f]) (s.mapReed n fun p => { p with fifo := [] })
    refine ⟨hmem.trans (hmap _).1, hout.trans (hmap _).2, (congrArg ReedPort.frameErrors hreed).trans ?_⟩
    exact State.reed_mapReed_keeps (g := ReedPort.frameErrors) (by intro _; rfl) s n n
  · split
    · exact ⟨(hmap _).1, (hmap _).2, State.reed_mapReed_keeps (g := ReedPort.frameErrors) (by intro _; rfl) s n n⟩
    · exact ⟨(hmap _).1, (hmap _).2, State.reed_mapReed_keeps (g := ReedPort.frameErrors) (by intro _; rfl) s n n⟩

/-! ### The obligation -/

/-- R342, R454: what leaves its state to the check of the outputs' clocks. -/
theorem goes_checkOutputs {i : Instr} {s u v : State} (hexec : exec i s = .next v.checkOutputs) (hv : v = u)
    (hmem : u.memory = s.memory) (hout : u.out = s.out) :
    exec i s = .next u.checkOutputs ∧ u.checkOutputs.memory = s.memory
      ∧ u.checkOutputs.out = s.out ∧ (∀ k < 16, (u.checkOutputs.reed k) = u.reed k)
      ∧ ((∀ k < 16, (u.reed (16 + k)).running = true → (u.reed (16 + k)).clockOk = true → u.clockUsable (16 + k) = true) →
          u.checkOutputs = u)
      ∧ (u.audio.outs.length = 16 → ∀ k < 16, (u.reed (16 + k)).running = true → (u.reed (16 + k)).clockOk = true →
          u.clockUsable (16 + k) = false → (u.checkOutputs.reed (16 + k)).clockOk = false
            ∧ (u.checkOutputs.reed (16 + k)).lockLosses = satAdd (u.reed (16 + k)).lockLosses 1) := by
  obtain ⟨hm, ho, hreeds, hstay, hlost⟩ := u.checkOutputs_leaves
  exact ⟨hv ▸ hexec, hm.trans hmem, ho.trans hout, hreeds, hstay, hlost⟩

/-- Settles O41: the losses of lock by the check of the outputs' clocks, and the frames by the state of their crossing. -/
theorem reedInputsComplete : Obligations.ReedInputsComplete := by
  unfold Obligations.ReedInputsComplete
  intro s n hs
  have hmapReed : ∀ f : ReedPort → ReedPort, n < 16 →
      s.mapReed n f = { s with audio := { s.audio with ins := s.audio.ins.modify n f } } := fun f hn => if_pos hn
  dsimp only
  refine ⟨?lock, ?loss, ?frame, fun w hw => ⟨?wclk, ?wclkLoss⟩, ?rate, ?wclkRate⟩
  case lock =>
    intro hn hpads hl
    refine congrArg Host.Outcome.next ((if_pos hs).trans ?_)
    exact if_neg (by simp [hn, hl, reedDomain, hpads])
  case loss =>
    intro hn hl
    refine goes_checkOutputs (v := ({ s.mapReed n ReedPort.lockLost with
      audio := { (s.mapReed n ReedPort.lockLost).audio with
        ingress := (s.mapReed n ReedPort.lockLost).audio.ingress.map (Ingress.loseLock n) } } : State).sourceLost (16 + n)) ?_ ?_ ?_ ?_
    · refine congrArg Host.Outcome.next ((if_pos hs).trans ?_)
      exact if_neg (by simp [hn, hl])
    · rw [State.sourceLost_eq, hmapReed ReedPort.lockLost hn, hmapReed _ hn, funext (Ingress.loseLock_eq n)]
      rfl
    · rw [hmapReed _ hn]
    · rw [hmapReed _ hn]
  case frame =>
    intro hn hr hst hl hstop hpads f
    have hexec : exec (.reedInputFrame n f) s = .next (s.inputFrame n f) := congrArg Host.Outcome.next (if_pos hs)
    rw [State.inputFrame_eq f hn hr hst hl hstop hpads] at hexec
    dsimp only at hexec
    generalize herr : (if f.preambleOk && (f.parity0 && f.parity1) then (s.reed n).frameErrors
      else satAdd (s.reed n).frameErrors 1) = errors at hexec ⊢
    have hreed : (s.mapReed n (ReedPort.withErrors errors)).reed n = (s.reed n).withErrors errors :=
      State.reed_mapReed_of_running hr _
    have hrest : s.mapReed n (ReedPort.withErrors errors)
        = { s with audio := { s.audio with ins := s.audio.ins.modify n (ReedPort.withErrors errors) } } := hmapReed _ hn
    cases hpre : f.preambleOk with
    | false =>
      rw [hpre, if_neg (by decide)] at hexec
      refine ⟨_, hexec, ?_, ?_, ?_, fun _ => ⟨?_, ?_⟩, fun h => (nomatch h), fun h => (nomatch h)⟩
      · rw [hreed]; rfl
      · rw [hrest]
      · rw [hrest]
      · rw [hrest]
      · rw [hreed]; rfl
    | true =>
      rw [hpre, if_pos rfl] at hexec
      obtain ⟨hmem, hout, hkept⟩ := (s.mapReed n (ReedPort.withErrors errors)).enterCrossing_keeps n
        (f.sample0, f.valid0 || !(f.parity0 && f.parity1), f.sample1, f.valid1 || !(f.parity0 && f.parity1))
      refine ⟨_, hexec, ?_, ?_, ?_, fun h => (nomatch h), fun _ hd he => ?_, fun _ hd => ?_⟩
      · rw [hkept, hreed]; rfl
      · rw [hmem, hrest]
      · rw [hout, hrest]
      · rw [State.enterCrossing_of_empty _ (by rw [hrest]; exact hd) (by rw [hreed]; exact he)]
        refine ⟨(congrArg ReedPort.fifo hreed).trans he, ?_⟩
        unfold State.deliverFrame
        dsimp only
        rw [hrest]
        exact List.map_congr_left fun g _ => Ingress.take_eq g n _ _
      · rw [State.enterCrossing_of_off _ (by rw [hrest]; exact hd), State.reed_mapReed_of_running (by rw [hreed]; exact hr), hreed]
        dsimp only [ReedPort.withErrors]
        by_cases hfull : 32 ≤ (s.reed n).fifo.length
        · simp only [hfull, if_true, and_self]
        · simp only [hfull, if_false, and_self]
  case wclk =>
    intro hl
    refine congrArg Host.Outcome.next ((if_pos hs).trans (State.mapWclk_congr hw ?_))
    rw [hl]
    rfl
  case wclkLoss =>
    intro hl
    refine goes_checkOutputs (v := (s.mapWclk n fun w =>
      { w with locked := false, lockLosses := satAdd w.lockLosses 1, measRate := 0 }).sourceLost (1 + n)) ?_ ?_ rfl rfl
    · refine congrArg Host.Outcome.next ((if_pos hs).trans ?_)
      exact if_pos (by simp [nth, hw, hl])
    · rw [State.sourceLost_eq]
      rfl
  case rate =>
    intro rate hn hl
    refine goes_checkOutputs (v := s.rateMeasured n rate) (congrArg Host.Outcome.next (if_pos hs)) ?_ ?_ ?_
    · unfold State.rateMeasured
      rw [if_pos hn]
      refine State.mapReed_congr ?_
      rw [hl]
      rfl
    · rw [hmapReed _ hn]
    · rw [hmapReed _ hn]
  case wclkRate =>
    intro rate w hw hl
    refine goes_checkOutputs (v := s.rateMeasured (0x20 + n) rate) (congrArg Host.Outcome.next (if_pos hs)) ?_ rfl rfl
    unfold State.rateMeasured
    rw [if_neg (by omega), if_pos (by omega), Nat.add_sub_cancel_left]
    refine State.mapWclk_congr hw ?_
    rw [hl]
    rfl

end Sys2Proof.Machine
end


section
/-!
PROOF. Reed outputs start, send their frames and lose their clock; the carding engine takes a stripe; the time slots of a frame.
-/
namespace Sys2Proof.Machine

open Sys2Proof Sys2Proof.Safety

/-! ### A list of one element, and a found element replaced -/

/-- The first element that satisfies a condition, replaced by another that does, is found. -/
theorem find?_modifyFirst_const {α : Type} {p : α → Bool} {l : List α} {x y : α} (hx : l.find? p = some x) (hy : p y = true) :
    (modifyFirst l p fun _ => y).find? p = some y := by
  induction l with
  | nil => cases hx
  | cons a l ih =>
    unfold modifyFirst
    cases ha : p a with
    | true => rw [if_pos rfl, List.find?_cons_of_pos hy]
    | false =>
      rw [List.find?_cons_of_neg (by simp [ha])] at hx
      rw [if_neg (by decide), List.find?_cons_of_neg (by simp [ha]), ih hx]

theorem filter_one_of_pos {α : Type} {p : α → Bool} {a : α} (h : p a = true) : [a].filter p = [a] :=
  List.filter_eq_self.2 fun b hb => by rw [List.mem_singleton.1 hb, h]

theorem filter_one_of_neg {α : Type} {p : α → Bool} {a : α} (h : p a = false) : [a].filter p = [] :=
  List.filter_eq_nil_iff.2 fun b hb => by rw [List.mem_singleton.1 hb, h]; decide

/-! ### Streams and ports that stay (R447, R453) -/

/-- A change of the streams that leaves each is none. -/
theorem State.mapStreams_self {s : State} {f : Stream → Stream} (h : ∀ t ∈ s.audio.streams, f t = t) : s.mapStreams f = s := by
  have hmap : s.audio.streams.map f = s.audio.streams := (List.map_congr_left h).trans (List.map_id _)
  unfold State.mapStreams
  rw [hmap]

/-- A change of an output's port leaves all but the outputs. -/
theorem State.mapReed_output {s : State} {c : Nat} (hc : 16 ≤ c) (f : ReedPort → ReedPort) :
    s.mapReed c f = { s with audio := { s.audio with outs := s.audio.outs.modify (c - 16) f } } :=
  if_neg (Nat.not_lt.2 hc)

/-- A change of ports that leaves which ports run and are started leaves the outputs of a group. -/
theorem State.outputSet_mapReed {s : State} {f : ReedPort → ReedPort} (hg : ∀ p, (f p).group = p.group)
    (hr : ∀ p, (f p).running = p.running) (hst : ∀ p, (f p).started = p.started) (c code : Nat) :
    (s.mapReed c f).outputSet code = s.outputSet code := by
  unfold State.outputSet
  rw [State.reed_mapReed_keeps (g := ReedPort.group) hg]
  congr 1
  funext d
  rw [State.reed_mapReed_keeps (g := ReedPort.running) hr, State.reed_mapReed_keeps (g := ReedPort.started) hst]

/-- A change of ports that leaves what they await leaves whether their streams are ready. -/
theorem State.dataReady_mapReed {s : State} {f : ReedPort → ReedPort} (ha : ∀ p, (f p).awaited = p.awaited) (c : Nat)
    (outs : List Nat) : (s.mapReed c f).dataReady outs = s.dataReady outs := by
  have hstreams : (s.mapReed c f).audio.streams = s.audio.streams := by
    unfold State.mapReed
    split
    · rfl
    · rfl
  unfold State.dataReady
  simp only [State.reed_mapReed_keeps (g := ReedPort.awaited) ha, hstreams]

/-- An output that is its group's set runs. -/
theorem State.running_of_outputSet {s : State} {code : Nat} (h : s.outputSet code = [code]) : (s.reed code).running = true := by
  have hmem : code ∈ s.outputSet code := by rw [h]; exact List.mem_singleton_self _
  have hp := (List.mem_filter.1 hmem).2
  simp only [Bool.and_eq_true] at hp
  exact hp.1.2

/-! ### Ticks (R446, R451, R452, R455) -/

/-- R446: an output at a tick of its clock. -/
def ReedPort.ticked (p : ReedPort) : ReedPort := { p with clockOk := true }

/-- R452: an output at its data start. -/
def ReedPort.withData (p : ReedPort) : ReedPort := { p with dataOn := true, awaited := [] }

/-- R452: a stream at the data start of its output. -/
def Stream.atDataStart (ids : List Word) (outs : List Nat) (t : Stream) : Stream :=
  if ids.contains t.id && t.reedOut.any (fun o => outs.contains (16 + o.1)) then { t with begun := true } else t

/-- R452: the data start of an output alone in its group. -/
theorem State.dataStart_single {s : State} {code : Nat} (hc : 16 ≤ code) (hoff : (s.reed code).dataOn = false)
    (hset : s.outputSet code = [code]) :
    s.dataStart code = if s.dataReady [code] then
      (s.mapReed code ReedPort.withData).mapStreams (Stream.atDataStart (s.reed code).awaited [code]) else s := by
  unfold State.dataStart
  dsimp only
  rw [hset, hoff]
  cases hready : s.dataReady [code] with
  | false => simp
  | true =>
    rw [if_neg (by simp [hc]), if_pos rfl, List.flatMap_singleton]
    rfl

/-- R446, R452: a tick of the clock of an output alone in its group: data starts where it can, and one frame goes out. -/
theorem State.outputTick_single {s w : State} {code : Nat} (hc : 16 ≤ code) (hset : s.outputSet code = [code])
    (hu : s.clockUsable code = true) (hp : s.padsOpen (107 + code / 8) = true) (hstop : (s.reed code).stopping = false)
    (hw : (if (s.reed code).dataOn then s.mapReed code ReedPort.ticked else (s.mapReed code ReedPort.ticked).dataStart code) = w) :
    s.outputTick code = if (w.reed code).dataOn then w.dataFrame [code] else w.silentFrame [code] := by
  have hdomain : s.domainOn (reedDomain code) = true := (Bool.and_eq_true_iff.1 hp).1
  have hstopped : ((s.mapReed code ReedPort.ticked).reed code).stopping = false := by
    rw [State.reed_mapReed_keeps (g := ReedPort.stopping) (by intro _; rfl), hstop]
  have hon : ((s.mapReed code ReedPort.ticked).reed code).dataOn = (s.reed code).dataOn :=
    State.reed_mapReed_keeps (g := ReedPort.dataOn) (by intro _; rfl) s code code
  have hstops : ([code].filter fun c => ((s.mapReed code ReedPort.ticked).reed c).stopping) = [] := by simp [hstopped]
  unfold State.outputTick
  dsimp only
  rw [hset, if_neg (by simp [hc, hu, hdomain])]
  rw [show List.foldl (fun s c => s.mapReed c fun p => { p with clockOk := true }) s [code] = s.mapReed code ReedPort.ticked from rfl]
  have houts : ([code].filter fun c => !([] : List Nat).contains c) = [code] := rfl
  have hstart : (([code].find? fun c => !((s.mapReed code ReedPort.ticked).reed c).dataOn).elim (s.mapReed code ReedPort.ticked)
      (s.mapReed code ReedPort.ticked).dataStart) = w := by
    rw [← hw, ← hon]
    cases h : ((s.mapReed code ReedPort.ticked).reed code).dataOn with
    | true => rw [List.find?_cons_of_neg (by simp [h])]; rfl
    | false => rw [List.find?_cons_of_pos (by simp [h])]; rfl
  rw [hstops, List.foldl_nil, houts, hstart]
  cases hdata : (w.reed code).dataOn with
  | true =>
    have hsilent : ([code].filter fun c => !(w.reed c).dataOn) = [] := by simp [hdata]
    rw [hsilent, houts]
    rfl
  | false =>
    have hsilent : ([code].filter fun c => !(w.reed c).dataOn) = [code] := by simp [hdata]
    have hnone : ([code].filter fun c => !(([code] : List Nat).contains c)) = [] := by simp
    rw [hsilent, hnone]
    rfl

/-! ### What a tick's frames leave -/

/-- R447, R453: what the frames of a tick leave of a port, and of memory. -/
structure FramesLeave (s t : State) : Prop where
  memory : t.memory = s.memory
  dataOn : ∀ c, (t.reed c).dataOn = (s.reed c).dataOn
  awaited : ∀ c, (t.reed c).awaited = (s.reed c).awaited

theorem FramesLeave.refl (s : State) : FramesLeave s s := ⟨rfl, fun _ => rfl, fun _ => rfl⟩

theorem FramesLeave.trans {s t u : State} (h : FramesLeave s t) (h' : FramesLeave t u) : FramesLeave s u :=
  ⟨h'.memory.trans h.memory, fun c => (h'.dataOn c).trans (h.dataOn c), fun c => (h'.awaited c).trans (h.awaited c)⟩

theorem FramesLeave.foldl {α : Type} {f : State → α → State} (h : ∀ s a, FramesLeave s (f s a)) (l : List α) (s : State) :
    FramesLeave s (l.foldl f s) := by
  induction l generalizing s with
  | nil => exact FramesLeave.refl s
  | cons a l ih => exact (h s a).trans (ih _)

theorem FramesLeave.mapReed {f : ReedPort → ReedPort} (hd : ∀ p, (f p).dataOn = p.dataOn) (ha : ∀ p, (f p).awaited = p.awaited)
    (s : State) (c : Nat) : FramesLeave s (s.mapReed c f) := by
  refine ⟨?_, State.reed_mapReed_keeps (g := ReedPort.dataOn) hd s c, State.reed_mapReed_keeps (g := ReedPort.awaited) ha s c⟩
  unfold State.mapReed
  split
  · rfl
  · rfl

theorem FramesLeave.drive (s : State) (c : Nat) (o : Output) : FramesLeave s (s.drive c o) := by
  unfold State.drive
  split
  · exact ⟨rfl, fun _ => rfl, fun _ => rfl⟩
  · exact FramesLeave.refl s

theorem FramesLeave.sendFrame (s : State) (c : Nat) (taken : Word → Bool) : FramesLeave s (s.sendFrame c taken) :=
  (FramesLeave.drive s c _).trans (FramesLeave.mapReed (by intro _; rfl) (by intro _; rfl) _ c)

theorem FramesLeave.repeatFrame (s : State) (c : Nat) : FramesLeave s (s.repeatFrame c) :=
  (FramesLeave.drive s c _).trans (FramesLeave.mapReed (by intro _; rfl) (by intro _; rfl) _ c)

theorem FramesLeave.mapStreams (s : State) (f : Stream → Stream) : FramesLeave s (s.mapStreams f) :=
  ⟨rfl, fun _ => rfl, fun _ => rfl⟩

/-- R447, R449: the state in which the frames of a tick go out: routes taken, streams begun, and sample periods counted. -/
def State.atFrames (s : State) (outs : List Nat) : State :=
  let v := s.takeRoutes outs
  let ids := (v.carried outs).map (·.id)
  let v := v.mapStreams fun t => if ids.contains t.id && !t.begun && t.readyOut then { t with begun := true } else t
  ids.foldl (fun s id => s.countWait id 1) v

/-- R449, R453: the frames of a tick: the streams' next samples, or the last frame again where one lacks a sample. -/
def State.sendFrames (s : State) (outs : List Nat) : State :=
  let active := (s.carried outs).filter fun t => t.begun && !(t.ctx.ended && t.margin == 0)
  let (fresh, still) := s.lackingNow outs active
  if fresh.isEmpty && still.isEmpty then
    let takes := fun (id : Word) => active.any fun t => t.id == id
    (outs.foldl (fun s c => (s.sendFrame c takes).mapReed c fun p => { p with lacking := [] }) s).mapStreams
      fun t => if takes t.id then { t with samples := t.samples.drop 1, taken := t.taken + 1 } else t
  else
    outs.foldl (fun s c => (s.repeatFrame c).mapReed c fun p => { p with lacking := fresh ++ still })
      (s.mapStreams fun t => if fresh.contains t.id then { t with underruns := satAdd t.underruns 1 } else t)

theorem State.dataFrame_eq (s : State) (outs : List Nat) : s.dataFrame outs = (s.atFrames outs).sendFrames outs := rfl

/-- R447, R449: routes, starts and sample periods. -/
theorem FramesLeave.atFrames (s : State) (outs : List Nat) : FramesLeave s (s.atFrames outs) :=
  ((FramesLeave.mapStreams s _).trans (FramesLeave.mapStreams _ _)).trans
    (FramesLeave.foldl (f := fun s id => s.countWait id 1) (fun _ _ => ⟨rfl, fun _ => rfl, fun _ => rfl⟩) _ _)

/-- R449, R453: the frames of a tick. -/
theorem FramesLeave.sendFrames (s : State) (outs : List Nat) : FramesLeave s (s.sendFrames outs) := by
  unfold State.sendFrames
  dsimp only
  split
  · exact (FramesLeave.foldl (fun s c => (FramesLeave.sendFrame s c _).trans
      (FramesLeave.mapReed (by intro _; rfl) (by intro _; rfl) _ c)) outs _).trans (FramesLeave.mapStreams _ _)
  · exact (FramesLeave.mapStreams _ _).trans (FramesLeave.foldl (fun s c => (FramesLeave.repeatFrame s c).trans
      (FramesLeave.mapReed (by intro _; rfl) (by intro _; rfl) _ c)) outs _)

/-- R447, R449, R453: a tick after data start. -/
theorem FramesLeave.dataFrame (s : State) (outs : List Nat) : FramesLeave s (s.dataFrame outs) :=
  (FramesLeave.atFrames s outs).trans (FramesLeave.sendFrames _ outs)

/-! ### One frame (R447 to R449, R453) -/

/-- R453: the sample of a channel in a frame. -/
def State.slotSample (s : State) (code ch : Nat) (taken : Word → Bool) : BitVec 24 × Bool :=
  match s.channelStream (code - 16) ch with
  | some t => if taken t.id then (t.samples.headD 0, false) else (0, true)
  | none => (0, true)

/-- R453: a frame of an output whose pads are open. -/
theorem State.sendFrame_of_open {s : State} {code : Nat} (hp : s.padsOpen (107 + code / 8) = true) (taken : Word → Bool) :
    s.sendFrame code taken = (s.emit (aesFrame (code - 16) ((s.reed code).csPos == 0) (s.statusBit code (s.reed code).csPos)
      (s.slotSample code 0 taken).1 (s.slotSample code 0 taken).2 (s.slotSample code 1 taken).1 (s.slotSample code 1 taken).2)).mapReed
        code fun p => { p with csPos := (p.csPos + 1) % 192, frames := p.frames + 1,
                               last := ((s.slotSample code 0 taken).1, (s.slotSample code 1 taken).1) } := by
  unfold State.sendFrame
  dsimp only
  unfold State.drive
  rw [if_pos (by exact hp)]
  rfl

/-- R453: the last frame of an output whose pads are open, again. -/
theorem State.repeatFrame_of_open {s : State} {code : Nat} (hp : s.padsOpen (107 + code / 8) = true) :
    s.repeatFrame code = (s.emit (aesFrame (code - 16) (((s.reed code).csPos + 191) % 192 == 0)
      (s.statusBit code (((s.reed code).csPos + 191) % 192)) (s.reed code).last.1 true (s.reed code).last.2 true)).mapReed
        code fun p => { p with repeats := satAdd p.repeats 1 } := by
  unfold State.repeatFrame
  dsimp only
  unfold State.drive
  rw [if_pos (by exact hp)]

/-- R452: a frame before data start. -/
theorem State.silentFrame_single (s : State) (code : Nat) :
    s.silentFrame [code] = if (s.reedConfig code).getLsbD 19 then s.sendFrame code fun _ => false else s := by
  unfold State.silentFrame
  cases h : (s.reedConfig code).getLsbD 19 with
  | true =>
    have hone : ([code].filter fun c => (s.reedConfig c).getLsbD 19) = [code] := filter_one_of_pos h
    rw [hone]
    rfl
  | false =>
    have hone : ([code].filter fun c => (s.reedConfig c).getLsbD 19) = [] := filter_one_of_neg h
    rw [hone]
    rfl

/-- R452: a frame before data start has no samples. -/
theorem State.slotSample_silent (s : State) (code ch : Nat) : s.slotSample code ch (fun _ => false) = (0, true) := by
  unfold State.slotSample
  split
  · rfl
  · rfl

section OneStream

variable {s : State} {code : Nat} {t0 : Stream}

/-- R453: a port that lacks streams. -/
def ReedPort.lacks (ids : List Word) (p : ReedPort) : ReedPort := { p with lacking := ids }

/-- R447, R449, R453: the frame of an output whose one stream has begun: the stream's next sample, or the last frame again. -/
theorem State.dataFrame_single (hc : 16 ≤ code) (hs : s.audio.streams = [t0]) (he : t0.egress = .reed (code - 16) 0)
    (hn : t0.nextRoute = none) (hb : t0.begun = true) (hend : t0.ctx.ended = false) (hl : (s.reed code).lacking = []) :
    s.dataFrame [code] = if t0.samples = [] then
        (((s.countWait t0.id 1).mapStreams fun t => if [t0.id].contains t.id then { t with underruns := satAdd t.underruns 1 }
          else t).repeatFrame code).mapReed code (ReedPort.lacks [t0.id])
      else (((s.countWait t0.id 1).sendFrame code fun id => t0.id == id).mapReed code (ReedPort.lacks [])).mapStreams
        fun t => if t0.id == t.id then { t with samples := t.samples.drop 1, taken := t.taken + 1 } else t := by
  have hroutes : s.takeRoutes [code] = s := State.mapStreams_self fun t ht => by
    rw [hs, List.mem_singleton] at ht
    rw [ht, hn]
  have hout : (t0.reedOut.any fun o => [code].contains (16 + o.1)) = true := by
    simp [Stream.reedOut, he, Nat.add_sub_cancel' hc]
  have hcarried : ∀ u : State, u.audio.streams = [t0] → u.carried [code] = [t0] := by
    intro u hu
    unfold State.carried
    rw [hu]
    exact filter_one_of_pos hout
  have hbegins : (s.mapStreams fun t => if [t0.id].contains t.id && !t.begun && t.readyOut then { t with begun := true } else t) = s := by
    refine State.mapStreams_self fun t ht => ?_
    rw [hs, List.mem_singleton] at ht
    rw [ht, hb, Bool.not_true, Bool.and_false, Bool.false_and, if_neg (by decide)]
  have hat : s.atFrames [code] = s.countWait t0.id 1 := by
    unfold State.atFrames
    rw [hroutes]
    dsimp only
    rw [hcarried s hs, List.map_singleton, hbegins]
    rfl
  have hactive : ([t0].filter fun t => t.begun && !(t.ctx.ended && t.margin == 0)) = [t0] :=
    filter_one_of_pos (by simp [hb, hend])
  have hlacking : (s.countWait t0.id 1).lackingNow [code] [t0] = (if t0.samples = [] then [t0.id] else [], []) := by
    have hold : ((s.countWait t0.id 1).reed code).lacking = [] := hl
    unfold State.lackingNow
    dsimp only
    rw [List.flatMap_singleton, hold]
    cases hx : t0.samples with
    | nil => simp [Stream.margin, hx]
    | cons x xs => simp [Stream.margin, hx]
  rw [State.dataFrame_eq, hat]
  unfold State.sendFrames
  dsimp only
  rw [hcarried (s.countWait t0.id 1) hs, hactive, hlacking]
  cases hx : t0.samples with
  | nil => rfl
  | cons x xs =>
    have htakes : ∀ id : Word, ([t0].any fun t => t.id == id) = (t0.id == id) := fun id => by simp
    simp only [htakes, reduceCtorEq, if_false]
    rfl

/-- R447, R453: the stream of an output's first channel, and that its second has none. -/
theorem State.slotSample_one (hs : s.audio.streams = [t0]) (he : t0.egress = .reed (code - 16) 0) :
    s.slotSample code 0 (fun id => t0.id == id) = (t0.samples.headD 0, false)
      ∧ s.slotSample code 1 (fun id => t0.id == id) = (0, true) := by
  unfold State.slotSample State.channelStream
  rw [hs]
  constructor
  · rw [List.find?_cons_of_pos (by simp [he])]
    simp
  · rw [List.find?_cons_of_neg (by simp [he]), List.find?_nil]

/-- R447 to R449: a tick at which the one stream has a sample. -/
theorem State.dataFrame_sample (hc : 16 ≤ code) (hp : s.padsOpen (107 + code / 8) = true) (hr : (s.reed code).running = true)
    (hs : s.audio.streams = [t0]) (he : t0.egress = .reed (code - 16) 0) (hn : t0.nextRoute = none) (hb : t0.begun = true)
    (hend : t0.ctx.ended = false) (hl : (s.reed code).lacking = []) {x : BitVec 24} {xs : List (BitVec 24)}
    (hx : t0.samples = x :: xs) :
    ∃ t, s.dataFrame [code] = t
      ∧ t.out = s.out ++ [aesFrame (code - 16) ((s.reed code).csPos == 0) (s.statusBit code (s.reed code).csPos) x false 0 true]
      ∧ t.audio.streams = [{ t0 with samples := xs, taken := t0.taken + 1 }]
      ∧ (t.reed code).csPos = ((s.reed code).csPos + 1) % 192 ∧ (t.reed code).last = (x, 0) ∧ t.memory = s.memory := by
  obtain ⟨h0, h1⟩ := State.slotSample_one (s := s.countWait t0.id 1) (code := code) hs he
  have hframe := State.dataFrame_single hc hs he hn hb hend hl
  rw [if_neg (by simp [hx]), State.sendFrame_of_open (s := s.countWait t0.id 1) hp, h0, h1, hx] at hframe
  have hopen : ((((s.countWait t0.id 1).emit (aesFrame (code - 16) ((s.reed code).csPos == 0)
      (s.statusBit code (s.reed code).csPos) x false 0 true)).reed code).running = true) := hr
  refine ⟨_, hframe, ?out, ?streams, ?pos, ?last, ?memory⟩
  case out =>
    rw [State.mapReed_output hc, State.mapReed_output hc]
    rfl
  case streams =>
    rw [State.mapReed_output hc, State.mapReed_output hc]
    unfold State.mapStreams
    dsimp only
    simp [State.emit, show (s.countWait t0.id 1).audio.streams = [t0] from hs, hx]
  case pos =>
    exact (State.reed_mapReed_keeps (g := ReedPort.csPos) (by intro _; rfl) _ code code).trans
      (congrArg ReedPort.csPos (State.reed_mapReed_of_running hopen _))
  case last =>
    exact (State.reed_mapReed_keeps (g := ReedPort.last) (by intro _; rfl) _ code code).trans
      (congrArg ReedPort.last (State.reed_mapReed_of_running hopen _))
  case memory =>
    rw [State.mapReed_output hc, State.mapReed_output hc]
    rfl

/-- R453: a tick at which the one stream lacks a sample. -/
theorem State.dataFrame_lacking (hc : 16 ≤ code) (hp : s.padsOpen (107 + code / 8) = true) (hr : (s.reed code).running = true)
    (hs : s.audio.streams = [t0]) (he : t0.egress = .reed (code - 16) 0) (hn : t0.nextRoute = none) (hb : t0.begun = true)
    (hend : t0.ctx.ended = false) (hl : (s.reed code).lacking = []) (hx : t0.samples = []) :
    ∃ t, s.dataFrame [code] = t
      ∧ t.audio.streams = [{ t0 with underruns := satAdd t0.underruns 1 }]
      ∧ (t.reed code).csPos = (s.reed code).csPos ∧ (t.reed code).repeats = satAdd (s.reed code).repeats 1
      ∧ (t.reed code).lacking = [t0.id]
      ∧ ∃ z b, t.out = s.out ++ [aesFrame (code - 16) z b (s.reed code).last.1 true (s.reed code).last.2 true] := by
  have hframe := State.dataFrame_single hc hs he hn hb hend hl
  rw [if_pos hx, State.repeatFrame_of_open (by exact hp)] at hframe
  refine ⟨_, hframe, ?streams, ?pos, ?repeats, ?lacking, (((s.reed code).csPos + 191) % 192 == 0),
    s.statusBit code (((s.reed code).csPos + 191) % 192), ?out⟩
  case streams =>
    rw [State.mapReed_output hc, State.mapReed_output hc]
    unfold State.mapStreams
    simp [State.emit, show (s.countWait t0.id 1).audio.streams = [t0] from hs]
  case pos =>
    exact (State.reed_mapReed_keeps (g := ReedPort.csPos) (by intro _; rfl) _ code code).trans
      (State.reed_mapReed_keeps (g := ReedPort.csPos) (by intro _; rfl) _ code code)
  case repeats =>
    refine (State.reed_mapReed_keeps (g := ReedPort.repeats) (by intro _; rfl) _ code code).trans ?_
    exact congrArg ReedPort.repeats (State.reed_mapReed_of_running (by exact hr) _)
  case lacking =>
    refine congrArg ReedPort.lacking (State.reed_mapReed_of_running ?_ _)
    refine (State.reed_mapReed_keeps (g := ReedPort.running) (by intro _; rfl) _ code code).trans ?_
    exact hr
  case out =>
    rw [State.mapReed_output hc, State.mapReed_output hc]
    rfl

end OneStream

/-! ### Ticks of an output alone in its group -/

section OneOutput

variable {s : State} {code : Nat}

/-- R446: the port at a tick. -/
theorem State.reed_ticked (hr : (s.reed code).running = true) :
    (s.mapReed code ReedPort.ticked).reed code = (s.reed code).ticked := State.reed_mapReed_of_running hr _

/-- R446: a tick leaves the outputs of the group. -/
theorem State.outputSet_ticked (hset : s.outputSet code = [code]) : (s.mapReed code ReedPort.ticked).outputSet code = [code] :=
  (State.outputSet_mapReed (by intro _; rfl) (by intro _; rfl) (by intro _; rfl) code code).trans hset

/-- R446: a tick leaves whether the streams are ready. -/
theorem State.dataReady_ticked : (s.mapReed code ReedPort.ticked).dataReady [code] = s.dataReady [code] :=
  State.dataReady_mapReed (by intro _; rfl) code [code]

/-- R452: a tick at which data starts. -/
theorem State.outputTick_begins (hc : 16 ≤ code) (hset : s.outputSet code = [code]) (hu : s.clockUsable code = true)
    (hp : s.padsOpen (107 + code / 8) = true) (hstop : (s.reed code).stopping = false) (hoff : (s.reed code).dataOn = false)
    (hready : s.dataReady [code] = true) :
    ((s.outputTick code).reed code).dataOn = true ∧ ((s.outputTick code).reed code).awaited = []
      ∧ (s.outputTick code).memory = s.memory := by
  have hr := State.running_of_outputSet hset
  have hreed := State.reed_ticked hr
  have hstart := State.dataStart_single hc ((congrArg ReedPort.dataOn hreed).trans hoff) (State.outputSet_ticked hset)
  rw [if_pos (State.dataReady_ticked.trans hready)] at hstart
  generalize hw : ((s.mapReed code ReedPort.ticked).mapReed code ReedPort.withData).mapStreams
    (Stream.atDataStart ((s.mapReed code ReedPort.ticked).reed code).awaited [code]) = w at hstart
  have hdata : w.reed code = (s.reed code).ticked.withData := by
    rw [← hw, ← hreed]
    exact State.reed_mapReed_of_running (by rw [hreed]; exact hr) ReedPort.withData
  have hmemory : w.memory = s.memory := by
    rw [← hw, State.mapReed_output hc, State.mapReed_output hc]
    rfl
  have htick := State.outputTick_single hc hset hu hp hstop ((if_neg (by simp [hoff])).trans hstart)
  rw [if_pos (by rw [hdata]; rfl)] at htick
  obtain ⟨hmem, hkeptOn, hkeptAwaited⟩ := FramesLeave.dataFrame w [code]
  rw [htick]
  exact ⟨(hkeptOn code).trans (congrArg ReedPort.dataOn hdata), (hkeptAwaited code).trans (congrArg ReedPort.awaited hdata),
    hmem.trans hmemory⟩

/-- R452: a tick before data start. -/
theorem State.outputTick_silent (hc : 16 ≤ code) (hset : s.outputSet code = [code]) (hu : s.clockUsable code = true)
    (hp : s.padsOpen (107 + code / 8) = true) (hstop : (s.reed code).stopping = false) (hoff : (s.reed code).dataOn = false)
    (hready : s.dataReady [code] = false) :
    s.outputTick code = if (s.reedConfig code).getLsbD 19 then
        ((s.mapReed code ReedPort.ticked).emit (aesFrame (code - 16) ((s.reed code).csPos == 0)
          (s.statusBit code (s.reed code).csPos) 0 true 0 true)).mapReed code
            fun p => { p with csPos := (p.csPos + 1) % 192, frames := p.frames + 1, last := (0, 0) }
      else s.mapReed code ReedPort.ticked := by
  have hreed := State.reed_ticked (State.running_of_outputSet hset)
  have hstart := State.dataStart_single hc ((congrArg ReedPort.dataOn hreed).trans hoff) (State.outputSet_ticked hset)
  rw [if_neg (by simp [State.dataReady_ticked, hready])] at hstart
  rw [State.outputTick_single hc hset hu hp hstop ((if_neg (by simp [hoff])).trans hstart),
    if_neg (by rw [hreed]; simp [ReedPort.ticked, hoff]), State.silentFrame_single,
    State.sendFrame_of_open (by rw [State.mapReed_output hc]; exact hp), State.slotSample_silent, State.slotSample_silent, hreed]
  have hconfig : (s.mapReed code ReedPort.ticked).reedConfig code = s.reedConfig code := by
    rw [State.mapReed_output hc]
    rfl
  have hstatus : (s.mapReed code ReedPort.ticked).statusBit code (s.reed code).ticked.csPos
      = s.statusBit code (s.reed code).csPos := by
    rw [State.mapReed_output hc]
    rfl
  rw [hconfig, hstatus]
  rfl

/-- R453: a tick after data start. -/
theorem State.outputTick_data (hc : 16 ≤ code) (hset : s.outputSet code = [code]) (hu : s.clockUsable code = true)
    (hp : s.padsOpen (107 + code / 8) = true) (hstop : (s.reed code).stopping = false) (hon : (s.reed code).dataOn = true) :
    s.outputTick code = (s.mapReed code ReedPort.ticked).dataFrame [code] := by
  have hreed := State.reed_ticked (State.running_of_outputSet hset)
  rw [State.outputTick_single hc hset hu hp hstop (if_pos hon), if_pos (by rw [hreed]; exact hon)]

end OneOutput

/-! ### Stripes (R471) -/

/-- R467: a frame that starts keeps the stream's id. -/
theorem Ingress.startFrame_id (g : Ingress) (table5 : List (List Byte)) : (g.startFrame table5).id = g.id := by
  unfold Ingress.startFrame
  dsimp only
  split
  · rfl
  · split
    · split
      · rfl
      · rfl
    · split
      · rfl
      · rfl

/-- R463, R464: stage 2 keeps the stream's id. -/
theorem Ingress.stage2_id (g : Ingress) (prev : Option (Word × Bool)) (ys : List (Word × Bool)) (i : Nat) (afterLock : Bool) :
    (g.stage2 prev ys i afterLock).2.id = g.id := by
  have hgood : ∀ y a, (g.goodSample y a).2.id = g.id := by
    intro y a
    have hboth : ∀ (b : Bool) (u v : Word × Ingress), u.2.id = g.id → v.2.id = g.id → (if b then u else v).2.id = g.id := by
      intro b u v hu hv
      cases b with
      | true => exact hu
      | false => exact hv
    exact hboth _ _ _ rfl rfl
  unfold Ingress.stage2
  dsimp only
  split
  · rfl
  · rfl
  · split
    · rfl
    · rfl
  · exact hgood _ _

/-- R465: stage 3 keeps the stream's id. -/
theorem Ingress.stage3_id (g : Ingress) (entry : List Byte) (i : Nat) (y z : Word) : (g.stage3 entry i y z).2.id = g.id := by
  unfold Ingress.stage3
  dsimp only
  split
  · rfl
  · rfl

/-- A sample keeps the stream's id. -/
theorem Ingress.sample_id (table5 : List (List Byte)) (prev : Option (Word × Bool)) (xs : List InSample)
    (ys : List (Word × Word × Bool)) (g : Ingress) (i : Nat) : (g.sample table5 prev xs ys i).id = g.id := by
  unfold Ingress.sample
  dsimp only
  rw [Ingress.stage3_id, Ingress.stage2_id]
  have hstart : (if g.pos == 0 then g.startFrame table5 else g).id = g.id := by
    split
    · exact g.startFrame_id table5
    · rfl
  split
  · exact hstart
  · exact hstart

/-- R471: a stripe keeps the stream's id. -/
theorem Ingress.stripe_id (g : Ingress) (table5 : List (List Byte)) : (g.stripe table5).id = g.id := by
  have hfold : ∀ (l : List Nat) (prev : Option (Word × Bool)) (xs : List InSample) (ys : List (Word × Word × Bool)) (g : Ingress),
      (l.foldl (Ingress.sample table5 prev xs ys) g).id = g.id := by
    intro l prev xs ys
    induction l with
    | nil => exact fun _ => rfl
    | cons i l ih => exact fun g => (ih _).trans (Ingress.sample_id table5 prev xs ys g i)
  exact hfold _ _ _ _ g

/-- R471: the stream whose stripe the engine takes is one of the device's. -/
theorem State.nextStripe_mem {s : State} {g : Ingress} (h : s.nextStripe = some g) : g ∈ s.audio.ingress := by
  unfold State.nextStripe at h
  obtain ⟨p, hp, rfl⟩ := Option.map_eq_some_iff.1 h
  obtain ⟨x, hx, hmap⟩ := List.mem_filterMap.1 (mem_sortBy.1 (List.mem_of_mem_head? hp))
  obtain ⟨_, _, rfl⟩ := Option.map_eq_some_iff.1 hmap
  exact hx

/-! ### Time slots (R440) -/

/-- The parity of a count. -/
theorem parity_foldl (f : Nat → Bool) (n : Nat) :
    (List.range n).foldl (fun p i => p != f i) false = decide (((List.range n).filter f).length % 2 = 1) := by
  induction n with
  | zero => rfl
  | succ n ih =>
    rw [List.range_succ, List.foldl_append, ih, List.filter_append, List.length_append, List.foldl_cons, List.foldl_nil]
    cases h : f n with
    | false => rw [filter_one_of_neg h]; simp
    | true =>
      rw [filter_one_of_pos h, List.length_singleton]
      rcases Nat.mod_two_eq_zero_or_one ((List.range n).filter f).length with hp | hp
      · simp [hp, Nat.add_mod]
      · simp [hp, Nat.add_mod]

/-- R440: time slots 4 to 30 of a subframe. -/
def aesBody (x : BitVec 24) (v status : Bool) : BitVec 27 := BitVec.ofBool status ++ 0#1 ++ BitVec.ofBool v ++ x

/-- R440: the parity of time slots 4 to 30. -/
def aesParity (body : BitVec 27) : Bool := (List.range 27).foldl (fun p i => p != body.getLsbD i) false

/-- R440: time slot 31 is the parity of those before it. -/
theorem aesSlots_getLsbD (x : BitVec 24) (v status : Bool) (i : Nat) :
    (aesSlots x v status).getLsbD i = if i < 27 then (aesBody x v status).getLsbD i
      else (BitVec.ofBool (aesParity (aesBody x v status))).getLsbD (i - 27) :=
  BitVec.getLsbD_append (x := BitVec.ofBool (aesParity (aesBody x v status))) (y := aesBody x v status)

/-- R440: the sample is in the first 24 of the slots. -/
theorem aesBody_getLsbD (x : BitVec 24) (v status : Bool) (i : Nat) :
    (aesBody x v status).getLsbD i = if i < 24 then x.getLsbD i
      else (BitVec.ofBool status ++ 0#1 ++ BitVec.ofBool v).getLsbD (i - 24) :=
  BitVec.getLsbD_append (x := BitVec.ofBool status ++ 0#1 ++ BitVec.ofBool v) (y := x)

/-- R440: the time slots of a subframe: the sample, the validity, user and status bits. -/
theorem aesSlots_bits (x : BitVec 24) (v status : Bool) :
    (∀ i < 24, (aesSlots x v status).getLsbD i = x.getLsbD i) ∧ (aesSlots x v status).getLsbD 24 = v
      ∧ (aesSlots x v status).getLsbD 25 = false ∧ (aesSlots x v status).getLsbD 26 = status := by
  have hflags : ∀ v status : Bool, (BitVec.ofBool status ++ 0#1 ++ BitVec.ofBool v).getLsbD 0 = v
      ∧ (BitVec.ofBool status ++ 0#1 ++ BitVec.ofBool v).getLsbD 1 = false
      ∧ (BitVec.ofBool status ++ 0#1 ++ BitVec.ofBool v).getLsbD 2 = status := by decide
  obtain ⟨hv, hu, hs⟩ := hflags v status
  refine ⟨fun i hi => ?_, ?_, ?_, ?_⟩
  · rw [aesSlots_getLsbD, if_pos (by omega), aesBody_getLsbD, if_pos hi]
  · rw [aesSlots_getLsbD, if_pos (by omega), aesBody_getLsbD, if_neg (by omega), hv]
  · rw [aesSlots_getLsbD, if_pos (by omega), aesBody_getLsbD, if_neg (by omega), hu]
  · rw [aesSlots_getLsbD, if_pos (by omega), aesBody_getLsbD, if_neg (by omega), hs]

/-- R440: an even number of the time slots is 1. -/
theorem aesSlots_even (x : BitVec 24) (v status : Bool) :
    ((List.range 28).filter fun i => (aesSlots x v status).getLsbD i).length % 2 = 0 := by
  generalize hbody : aesBody x v status = body
  have hlow : ((List.range 27).filter fun i => (aesSlots x v status).getLsbD i)
      = (List.range 27).filter fun i => body.getLsbD i := by
    refine List.filter_congr fun i hi => ?_
    rw [aesSlots_getLsbD, if_pos (List.mem_range.1 hi), hbody]
  have htop : (aesSlots x v status).getLsbD 27 = aesParity body := by
    rw [aesSlots_getLsbD, if_neg (by omega), hbody]
    cases aesParity body <;> rfl
  have hparity : aesParity body = decide (((List.range 27).filter fun i => body.getLsbD i).length % 2 = 1) :=
    parity_foldl body.getLsbD 27
  rw [show List.range 28 = List.range 27 ++ [27] from List.range_succ, List.filter_append, List.length_append, hlow]
  rcases Nat.mod_two_eq_zero_or_one ((List.range 27).filter fun i => body.getLsbD i).length with hp | hp
  · rw [filter_one_of_neg (htop.trans (hparity.trans (by rw [hp]; rfl))), List.length_nil, Nat.add_zero, hp]
  · rw [filter_one_of_pos (htop.trans (hparity.trans (by rw [hp]; rfl))), List.length_singleton, Nat.add_mod, hp]

/-! ### The obligation -/

/-- Settles O42: the ticks by their one output, the stripe by the stream that it replaces, the slots by their bits. -/
theorem reedOutputsComplete : Obligations.ReedOutputsComplete := by
  unfold Obligations.ReedOutputsComplete
  intro s code hs
  have hcore : s.power.boot = .ready ∧ s.power.state = .run := by
    have h := hs
    unfold State.computing at h
    simpa using h
  have hruns : s.audioRuns = true := by simp [State.audioRuns, hcore.1, hcore.2]
  refine ⟨?start, ?data, ?tick, ?loss, ?stripe, ?slots⟩
  case start =>
    intro k hr ha hg hu
    refine congrArg Host.Outcome.next ((if_pos hruns).trans ?_)
    unfold State.startTick
    dsimp only
    rw [if_neg (by simp [hr, ha, hu]), hg]
    exact State.mapReed_congr (if_pos (by simp [hr, ha]))
  case data =>
    intro hc hoff hset hall
    have hready : s.dataReady [code] = true := by
      unfold State.dataReady
      refine List.all_eq_true.2 fun t ht => ?_
      by_cases hmem : t.id ∈ (s.reed code).awaited
      · simp [hall t ht hmem]
      · simp [hmem]
    have hstart := State.dataStart_single hc hoff hset
    rw [if_pos hready, State.mapReed_output hc] at hstart
    have hreed := State.reed_mapReed_of_running (State.running_of_outputSet hset) ReedPort.withData
    rw [State.mapReed_output hc] at hreed
    refine ⟨_, (congrArg Host.Outcome.next (if_pos hs)).trans (congrArg _ hstart), ?_, ?_, rfl, rfl, rfl⟩
    · exact congrArg ReedPort.dataOn hreed
    · exact congrArg ReedPort.awaited hreed
  case tick =>
    intro hc hset hu hp hstop
    dsimp only
    have hr := State.running_of_outputSet hset
    have hexec : exec (.reedOutputFrame code) s = .next (s.outputTick code) := congrArg Host.Outcome.next (if_pos hs)
    have hreed : (s.mapReed code ReedPort.ticked).reed code = (s.reed code).ticked := State.reed_mapReed_of_running hr _
    refine ⟨fun hoff hready => ⟨_, hexec, State.outputTick_begins hc hset hu hp hstop hoff hready⟩, fun hoff hready => ?silent,
      fun t0 hon hlack hstreams he hn hb hend => ?sends⟩
    case silent =>
      refine ⟨_, hexec, ?_⟩
      rw [State.outputTick_silent hc hset hu hp hstop hoff hready]
      cases hsilent : (s.reedConfig code).getLsbD 19 with
      | true =>
        simp only [if_true]
        refine ⟨?_, ?_, ?_, ?_⟩
        · rw [State.mapReed_output hc, State.mapReed_output hc]; rfl
        · rw [State.mapReed_output hc, State.mapReed_output hc]; rfl
        · rw [State.mapReed_output hc, State.mapReed_output hc]; rfl
        · rw [State.reed_mapReed_of_running (by exact (congrArg ReedPort.running hreed).trans hr)]
          have hpos := congrArg (fun p : ReedPort => (p.csPos + 1) % 192) hreed
          exact hpos
      | false =>
        simp only [Bool.false_eq_true, if_false]
        refine ⟨?_, ?_, ?_, ?_⟩
        · rw [State.mapReed_output hc]
        · rw [State.mapReed_output hc]
        · rw [State.mapReed_output hc, List.append_nil]
        · have hpos := congrArg ReedPort.csPos hreed
          exact hpos
    case sends =>
      rw [State.outputTick_data hc hset hu hp hstop hon] at hexec
      have hopen : (s.mapReed code ReedPort.ticked).padsOpen (107 + code / 8) = true := by
        rw [State.mapReed_output hc]
        exact hp
      have hsame : (s.mapReed code ReedPort.ticked).audio.streams = [t0] := by
        rw [State.mapReed_output hc]
        exact hstreams
      have hlacking : ((s.mapReed code ReedPort.ticked).reed code).lacking = [] := (congrArg ReedPort.lacking hreed).trans hlack
      have hrunning : ((s.mapReed code ReedPort.ticked).reed code).running = true := (congrArg ReedPort.running hreed).trans hr
      refine ⟨fun x xs hx => ?sample, fun hx => ?lacks⟩
      case sample =>
        obtain ⟨t, ht, hout, hs', hpos, hlast, hmem⟩ :=
          State.dataFrame_sample hc hopen hrunning hsame he hn hb hend hlacking hx
        rw [hreed] at hout hpos
        rw [State.mapReed_output hc] at hout
        refine ⟨t, hexec.trans (congrArg _ ht), hout, hs', hpos, hlast, hmem.trans ?_⟩
        rw [State.mapReed_output hc]
      case lacks =>
        obtain ⟨t, ht, hs', hpos, hrepeats, hl', hout⟩ :=
          State.dataFrame_lacking hc hopen hrunning hsame he hn hb hend hlacking hx
        rw [hreed] at hpos hrepeats hout
        rw [State.mapReed_output hc] at hout
        exact ⟨t, hexec.trans (congrArg _ ht), hs', hpos, hrepeats, hl', hout⟩
  case loss =>
    intro n hn hr hok
    have hlost : s.outputLost n = (s.mapReed (16 + n) ReedPort.clockLost).mapStreams (Stream.losesOutput n) := by
      rw [State.outputLost_eq]
      exact if_neg (by simp [hn, hr, hok])
    have hreed := State.reed_mapReed_of_running hr ReedPort.clockLost
    refine ⟨_, (congrArg Host.Outcome.next (if_pos hruns)).trans (congrArg _ hlost), congrArg ReedPort.clockOk hreed,
      congrArg ReedPort.lockLosses hreed, ?_⟩
    rw [State.mapReed_output (Nat.le_add_right 16 n)]
    rfl
  case stripe =>
    intro g hd hnext hpos
    have hid := g.stripe_id s.live.table5
    have hcard : s.cardStripe = ({ s with audio := { s.audio with resident :=
        ((g.stripe s.live.table5).id :: s.audio.resident.filter (· != (g.stripe s.live.table5).id)).take 16 } } : State).mapIngress
          (g.stripe s.live.table5).id fun _ => g.stripe s.live.table5 := by
      unfold State.cardStripe
      rw [hnext]
      exact if_pos hpos
    refine ⟨_, (congrArg Host.Outcome.next (if_pos (by simp [hruns, hd]))).trans (congrArg _ hcard), ?_, rfl, rfl, rfl, rfl⟩
    have hmem := State.nextStripe_mem hnext
    obtain ⟨x, hx⟩ : ∃ x, s.ingress? (g.stripe s.live.table5).id = some x :=
      Option.isSome_iff_exists.1 (List.find?_isSome.2 ⟨g, hmem, by simp [hid]⟩)
    refine (find?_modifyFirst_const (x := x) (y := g.stripe s.live.table5) hx ?_)
    exact BEq.rfl
  case slots =>
    intro port z status v0 v1 x0 x1
    obtain ⟨h0, hv0, hu0, hs0⟩ := aesSlots_bits x0 v0 status
    obtain ⟨h1, hv1, hu1, hs1⟩ := aesSlots_bits x1 v1 status
    exact ⟨_, _, rfl, fun i hi => ⟨h0 i hi, h1 i hi⟩, hv0, hv1, hu0, hu1, hs0, hs1, aesSlots_even x0 v0 status, aesSlots_even x1 v1 status⟩

end Sys2Proof.Machine
end


section
/-!
PROOF. The pace counters' windows, the conversions of the thermal sensors, trips and undervoltage.
-/
namespace Sys2Proof.Machine

open Sys2Proof Sys2Proof.Safety

/-! ### What has left the device stays (R299, R310, R365) -/

/-- What has left the device has left it: more may follow. -/
def Appends (s t : State) : Prop := s.out <+: t.out

theorem Appends.refl (s : State) : Appends s s := List.prefix_refl _

theorem Appends.trans {s t u : State} (h : Appends s t) (h' : Appends t u) : Appends s u := List.IsPrefix.trans h h'

theorem Appends.of_out {s t : State} (h : t.out = s.out) : Appends s t := by
  unfold Appends
  rw [h]

theorem Appends.emitAll (s : State) (os : List Output) : Appends s (s.emitAll os) := List.prefix_append _ _

theorem Appends.foldl {α : Type} {f : State → α → State} (h : ∀ s a, Appends s (f s a)) (l : List α) (s : State) :
    Appends s (l.foldl f s) := by
  induction l generalizing s with
  | nil => exact Appends.refl s
  | cons a l ih => exact (h s a).trans (ih _)

/-- R299: the flits that wait. -/
theorem Appends.pump (fuel n : Nat) (s : State) : Appends s (State.pump fuel n s) := by
  induction fuel generalizing s with
  | zero => exact Appends.refl s
  | succ k ih =>
    unfold State.pump
    dsimp only
    split
    · exact Appends.refl s
    · split
      · exact Appends.refl s
      · next f _ =>
        refine Appends.trans (t := (s.emitFlit n ((s.port n).dataFlit (s.port n).txSeq f)).mapPort n fun p => p.sent f) ?_ (ih _)
        exact List.prefix_append _ _

/-- R314: a message sent by a port. -/
theorem Appends.messageBy (s : State) (n device mtype dport : Nat) (lsid tag : Byte) (seq : Word) (body : List Byte) :
    Appends s (s.messageBy n device mtype dport lsid tag seq body) := by
  unfold State.messageBy State.messageFrom State.queueFlits
  refine Appends.trans (Appends.of_out ?_) (Appends.pump _ _ _)
  rfl

/-- R314: a message. -/
theorem Appends.sendMessage (s : State) (via : Option Nat) (odd : Bool) (device mtype dport : Nat) (lsid tag : Byte)
    (seq : Word) (body : List Byte) : Appends s (s.sendMessage via odd device mtype dport lsid tag seq body) := by
  unfold State.sendMessage
  split
  · exact Appends.refl s
  · split
    · exact Appends.messageBy s _ _ _ _ _ _ _ _
    · exact Appends.refl s

/-- R358: a packet handed to its interface. -/
theorem Appends.sendPacket (s : State) (p : OutPacket) : Appends s (s.sendPacket p) := by
  unfold State.sendPacket
  split
  · exact Appends.refl s
  · exact List.prefix_append _ _
  · exact List.prefix_append _ _
  · exact Appends.sendMessage s _ _ _ _ _ _ _ _ _

/-- R365: the waiting events of both masters. -/
theorem Appends.drainEvents (s : State) : Appends s s.drainEvents := by
  have hhost : Appends s s.drainHost := by
    unfold State.drainHost
    dsimp only
    split
    · exact Appends.refl s
    · exact Appends.foldl (s := { s with proto := { s.proto with host := { s.proto.host with events := [] } } })
        Appends.sendPacket _
  exact hhost

/-- R365: an event for one master sends nothing itself. -/
theorem State.out_eventTo (s : State) (m : MasterId) (e : EventKind) (st : Status) (context hostTag : Word) (params : List Byte) :
    (s.eventTo m e st context hostTag params).out = s.out := by
  have hmap : ∀ f : MasterState → MasterState, (s.mapMaster m f).out = s.out := by
    intro f
    cases m <;> rfl
  unfold State.eventTo
  dsimp only
  split
  · rfl
  · split
    · exact hmap _
    · exact hmap _

/-- R365: an event. -/
theorem Appends.event (s : State) (e : EventKind) (st : Status) (context hostTag : Word) (params : List Byte) :
    Appends s (s.event e st context hostTag params) :=
  Appends.trans (Appends.of_out ((State.out_eventTo _ .mgmt e st context hostTag params).trans
    (State.out_eventTo s .host e st context hostTag params))) (Appends.drainEvents _)

/-! ### Governing (R498 to R500) -/

/-- What the events and requests of a window leave. -/
structure Governs (s t : State) : Prop where
  out : Appends s t
  memory : t.memory = s.memory
  sched : t.sched = s.sched
  audio : t.audio = s.audio
  recorder : t.recorder = s.recorder
  powerW : t.power.powerW = s.power.powerW
  governedMv : t.power.governedMv = s.power.governedMv
  counters : t.pace.counters = s.pace.counters

theorem Governs.refl (s : State) : Governs s s := ⟨Appends.refl s, rfl, rfl, rfl, rfl, rfl, rfl, rfl⟩

theorem Governs.trans {s t u : State} (h : Governs s t) (h' : Governs t u) : Governs s u :=
  ⟨h.out.trans h'.out, h'.memory.trans h.memory, h'.sched.trans h.sched, h'.audio.trans h.audio,
    h'.recorder.trans h.recorder, h'.powerW.trans h.powerW, h'.governedMv.trans h.governedMv, h'.counters.trans h.counters⟩

/-- R365: an event. -/
theorem Governs.event (s : State) (e : EventKind) (st : Status) (context hostTag : Word) (params : List Byte) :
    Governs s (s.event e st context hostTag params) := by
  have h := OutputOnly.event s e st context hostTag params
  exact ⟨Appends.event s e st context hostTag params, h.memory, h.sched, h.audio, h.recorder,
    congrArg Power.powerW h.power, congrArg Power.governedMv h.power, congrArg Pace.counters h.pace⟩

/-- R494: a request to a rail. -/
theorem Governs.requestRail (s : State) (rail : Rail) (mv : Nat) : Governs s (s.requestRail rail mv) := by
  unfold State.requestRail
  split
  · exact Governs.refl s
  · exact ⟨Appends.emitAll _ _, rfl, rfl, rfl, rfl, rfl, rfl, rfl⟩

/-- R57, R499: VCORE asked to move. -/
theorem Governs.retarget (s : State) : Governs s s.retarget := by
  unfold State.retarget
  split
  · split
    · exact Governs.refl s
    · exact Governs.requestRail s _ _
  · unfold State.steerVcore
    split
    · exact Governs.refl s
    · exact Governs.requestRail s _ _

/-- R500: the event of the voltage policy. -/
theorem Governs.policyEvent (s : State) : Governs s s.policyEvent := by
  unfold State.policyEvent
  dsimp only
  split
  · exact Governs.trans (t := s.mapPower fun p => { p with belowMin := decide (s.targetMv < fld s.live.voltagePolicy 63 54) })
      ⟨Appends.refl s, rfl, rfl, rfl, rfl, rfl, rfl, rfl⟩ (Governs.event _ _ _ _ _ _)
  · exact Governs.refl s

/-- R53: the event of a rate that has moved. -/
theorem Governs.rateChange (s : State) : Governs s s.rateChange := by
  have hpace : ∀ (t : State) (p : Pace), p.counters = t.pace.counters → Governs t { t with pace := p } := fun t p hp =>
    ⟨Appends.refl t, rfl, rfl, rfl, rfl, rfl, rfl, hp⟩
  unfold State.rateChange
  dsimp only
  split
  · exact hpace s _ rfl
  · exact hpace s _ rfl
  · next r p _ _ =>
    have hmoved : ∀ (b : Bool) (body : List Byte) (q u : Pace), q.counters = s.pace.counters → u.counters = s.pace.counters →
        Governs s (if b then { s.event .rateChange .ok 0 0 body with pace := q } else { s with pace := u }) := by
      intro b body q u hq hu
      have hevent := Governs.event s .rateChange .ok 0 0 body
      cases b with
      | true => exact hevent.trans (hpace _ q (hq.trans hevent.counters.symm))
      | false => exact hpace s u hu
    exact hmoved _ _ _ _ rfl rfl

/-- R498, R499: what governing leaves. -/
theorem State.govern_leaves (s : State) (draw : Nat) :
    (s.govern draw).power.powerW = BitVec.ofNat 16 (min draw 0xFFFF)
      ∧ (s.govern draw).power.governedMv
        = nextG s.power.governedMv draw s.live.ceiling.toNat (s.power.hot || s.power.hotHeld) s.policyMv
      ∧ s.out ++ drawReads <+: (s.govern draw).out ∧ (s.govern draw).memory = s.memory ∧ (s.govern draw).sched = s.sched
      ∧ (s.govern draw).audio = s.audio ∧ (s.govern draw).recorder = s.recorder
      ∧ (s.govern draw).pace.counters = s.pace.counters := by
  obtain ⟨hout, hmem, hsched, haudio, hrec, hpower, hmv, hcount⟩ := ((Governs.policyEvent ((s.emitAll drawReads).mapPower fun p =>
    { p with powerW := BitVec.ofNat 16 (min draw 0xFFFF),
             governedMv := nextG p.governedMv draw s.live.ceiling.toNat (s.power.hot || s.power.hotHeld) s.policyMv })).trans
      (Governs.retarget _)).trans (Governs.rateChange _)
  exact ⟨hpower, hmv, hout, hmem, hsched, haudio, hrec, hcount⟩

/-! ### Windows (R50, R51) -/

/-- R50: the close of a counter at a window. -/
def State.closed (s : State) (w : Sys2Proof.Window) (c : PaceCounter) : PaceCounter :=
  match w.waves.find? fun e => e.1 == c.kind && e.2.1 == c.index with
  | some e => if s.domainOn c.domain then c.close e.2.2.1 e.2.2.2 else c
  | none => c

theorem State.closeCounters_eq (s : State) (w : Sys2Proof.Window) :
    s.closeCounters w = { s with pace := { s.pace with counters := s.pace.counters.map (s.closed w) } } := rfl

/-- R50: the counter of a unit that is powered down stays. -/
theorem State.closed_of_off {s : State} {c : PaceCounter} (w : Sys2Proof.Window) (h : s.domainOn c.domain = false) :
    s.closed w c = c := by
  unfold State.closed
  split
  · rw [h]; rfl
  · rfl

/-- R50, R51: the counter of a powered unit closes its window. -/
theorem State.closed_of_on {s : State} {c : PaceCounter} {w : Sys2Proof.Window} {waves ring : Nat} (h : s.domainOn c.domain = true)
    (hw : w.waves.find? (fun e => e.1 == c.kind && e.2.1 == c.index) = some (c.kind, c.index, waves, ring)) :
    s.closed w c = c.close waves ring := by
  unfold State.closed
  rw [hw]
  exact if_pos h

/-- R50: a close keeps which unit a counter counts. -/
theorem State.closed_unit (s : State) (w : Sys2Proof.Window) (c : PaceCounter) :
    (s.closed w c).kind = c.kind ∧ (s.closed w c).index = c.index := by
  unfold State.closed
  split
  · split
    · exact ⟨rfl, rfl⟩
    · exact ⟨rfl, rfl⟩
  · exact ⟨rfl, rfl⟩

/-- R50, R51: the counters after a window. -/
theorem State.getElem?_closed {s : State} {w : Sys2Proof.Window} {n : Nat} {c : PaceCounter} (hc : s.pace.counters[n]? = some c) :
    ∃ c', (s.pace.counters.map (s.closed w))[n]? = some c' ∧ c'.kind = c.kind ∧ c'.index = c.index
      ∧ (∀ waves ring, w.waves.find? (fun e => e.1 == c.kind && e.2.1 == c.index) = some (c.kind, c.index, waves, ring) →
          s.domainOn c.domain = true → c'.waves = c.waves + BitVec.ofNat 64 waves ∧ c'.valid = true
          ∧ c'.rate = BitVec.ofNat 21 (min (if waves = 0 then ring else waves) 2097151)
          ∧ c'.minRate = (if c.cleared ∨ (BitVec.ofNat 21 (min (if waves = 0 then ring else waves) 2097151)).toNat < c.minRate.toNat
              then BitVec.ofNat 21 (min (if waves = 0 then ring else waves) 2097151) else c.minRate))
      ∧ (s.domainOn c.domain = false → c' = c) := by
  obtain ⟨hkind, hindex⟩ := s.closed_unit w c
  refine ⟨s.closed w c, by rw [List.getElem?_map, hc]; rfl, hkind, hindex, fun waves ring hw hd => ?_, fun hoff => State.closed_of_off w hoff⟩
  rw [State.closed_of_on hd hw]
  refine ⟨rfl, rfl, ?_, ?_⟩
  · simp [PaceCounter.close]
  · simp [PaceCounter.close]

/-! ### Sensors (R501, R594) -/

/-- R593: a usable conversion. -/
theorem State.convert_usable {s : State} {n : Nat} {q : Int} {ok : Bool} (hn : n < 80) (hex : n ∉ s.power.excluded)
    (hok : ok = true) (hlo : -240 ≤ q) (hhi : q ≤ 600) :
    s.convert ⟨n, q, ok⟩ = s.mapPower fun p => { p with sensors := p.sensors.set n q } := by
  unfold State.convert
  rw [if_neg (by simp [hn, hex]), if_neg (by simp [hok]), if_neg (by simp [hlo, hhi])]

/-- R594: a conversion without its reference, or out of range. -/
theorem State.convert_unusable {s : State} {n : Nat} {q : Int} {ok : Bool} (hn : n < 80) (hex : n ∉ s.power.excluded)
    (hno : ¬(ok = true ∧ -240 ≤ q ∧ q ≤ 600)) : s.convert ⟨n, q, ok⟩ = s.excludeSensor n (if ok then 1 else 0) := by
  unfold State.convert
  rw [if_neg (by simp [hn, hex])]
  cases ok with
  | false => rfl
  | true =>
    have hrange : q < -240 ∨ 600 < q := by
      by_contra hin
      exact hno ⟨rfl, by omega, by omega⟩
    rw [if_neg (by simp), if_pos (by simpa using hrange)]
    rfl

/-- R593, R594: a conversion leaves hot. -/
theorem State.convert_hot (s : State) (c : Conversion) : (s.convert c).power.hot = s.power.hot := by
  unfold State.convert
  split
  · rfl
  · split
    · rfl
    · split
      · rfl
      · rfl

/-- R501, R594: what hot becomes leaves of the sensors and the recorder, and hot itself. -/
theorem State.setHot_leaves (s : State) :
    s.setHot.power.sensors = s.power.sensors ∧ s.setHot.power.excluded = s.power.excluded ∧ s.setHot.recorder = s.recorder
      ∧ s.setHot.power.hotHeld = s.power.hotHeld ∧ s.setHot.hottest = s.hottest
      ∧ s.setHot.power.hot = (s.power.hotHeld
          || (if s.power.hot then decide (4 * (maxJunction - 3) < s.hottest) else decide (4 * maxJunction ≤ s.hottest))) := by
  unfold State.setHot
  dsimp only
  generalize (s.power.hotHeld || if s.power.hot = true then decide (4 * (maxJunction - 3) < s.hottest)
    else decide (4 * maxJunction ≤ s.hottest)) = hot
  split
  · have hpower : ∀ (u : State) (a b : PowerState) (c : Nat), (u.powerEvent a b c).power = u.power := fun u a b c =>
      (OutputOnly.event u _ _ _ _ _).power
    have hrec : ∀ (u : State) (a b : PowerState) (c : Nat), (u.powerEvent a b c).recorder = u.recorder := fun u a b c =>
      (OutputOnly.event u _ _ _ _ _).recorder
    unfold State.hottest
    rw [hpower, hrec]
    exact ⟨rfl, rfl, rfl, rfl, rfl, rfl⟩
  · exact ⟨rfl, rfl, rfl, rfl, rfl, rfl⟩

/-- R501: hot against its limits. -/
theorem State.setHot_hot (s : State) :
    (s.power.hot = false → (s.setHot.power.hot = true ↔ s.setHot.power.hotHeld = true ∨ 4 * maxJunction ≤ s.setHot.hottest))
      ∧ (s.power.hot = true →
          (s.setHot.power.hot = true ↔ s.setHot.power.hotHeld = true ∨ 4 * (maxJunction - 3) < s.setHot.hottest)) := by
  obtain ⟨-, -, -, hheld, hhottest, hhot⟩ := s.setHot_leaves
  rw [hhot, hheld, hhottest]
  exact ⟨fun h => by simp [h], fun h => by simp [h]⟩

/-! ### The obligation -/

/-- Settles O43: the windows by what governing leaves, the conversions by hot, the trip and the undervoltage by their branches. -/
theorem windowsAndSensorsComplete : Obligations.WindowsAndSensorsComplete := by
  unfold Obligations.WindowsAndSensorsComplete
  intro s hboot hstate
  have hruns : s.windowsRun = true := by
    unfold State.windowsRun State.started
    rw [hboot]
    rcases hstate with h | h | h <;> rw [h] <;> rfl
  refine ⟨fun w => ?window, fun n q ok hd hn hex hlen => ?sensor, fun n c hd ht hex hc => ?trip, fun mv hd => ⟨?low, ?fine⟩⟩
  case window =>
    dsimp only
    have hclosed := fun (n : Nat) (c : PaceCounter) => State.getElem?_closed (s := s) (w := w) (n := n) (c := c)
    by_cases hsleep : s.power.state = .sleep
    · have hexec : exec (.paceWindow w) s = .next { (s.mapRecorder fun r => { r with windows := r.windows + 1 }).closeCounters w with
          pace := { ((s.mapRecorder fun r => { r with windows := r.windows + 1 }).closeCounters w).pace with
            sinceEvent := s.pace.sinceEvent.map (· + 1) } } := by
        refine (if_neg (by simp [hruns])).trans (congrArg Host.Outcome.next ?_)
        rw [if_neg (by simp [hboot]), if_pos (by simp [hsleep])]
        rfl
      exact ⟨_, hexec, rfl, fun h => absurd hsleep h, fun _ => ⟨rfl, rfl, rfl, rfl, rfl⟩, rfl, rfl, rfl, hclosed⟩
    · have hexec : exec (.paceWindow w) s
          = .next (((s.mapRecorder fun r => { r with windows := r.windows + 1 }).closeCounters w).govern w.drawW) := by
        refine (if_neg (by simp [hruns])).trans (congrArg Host.Outcome.next ?_)
        rw [if_neg (by simp [hboot]), if_neg (by simpa using hsleep)]
      obtain ⟨hpower, hmv, hout, hmem, hsched, haudio, hrec, hcount⟩ :=
        ((s.mapRecorder fun r => { r with windows := r.windows + 1 }).closeCounters w).govern_leaves w.drawW
      refine ⟨_, hexec, congrArg Recorder.windows hrec, fun _ => ⟨hpower, ?_, hout⟩, fun h => absurd h hsleep, hmem, hsched, haudio, ?_⟩
      · rw [hmv]
        unfold nextG
        simp
        rfl
      · rw [hcount]
        exact hclosed
  case sensor =>
    dsimp only
    have hexec : exec (.thermalSensorConversion [⟨n, q, ok⟩]) s = .next ((s.convert ⟨n, q, ok⟩).holdHot.setHot) :=
      congrArg Host.Outcome.next (if_pos (by simp [State.senses, hruns, hd]))
    obtain ⟨hsensors, hexcluded, hrecorder, -, -, -⟩ := (s.convert ⟨n, q, ok⟩).holdHot.setHot_leaves
    obtain ⟨hcool, hwarm⟩ := (s.convert ⟨n, q, ok⟩).holdHot.setHot_hot
    have hsame : (s.convert ⟨n, q, ok⟩).holdHot.power.hot = s.power.hot := s.convert_hot _
    refine ⟨_, hexec, fun ⟨hok, hlo, hhi⟩ => ?usable, fun hno => ?unusable, fun h => hcool (hsame.trans h), fun h => hwarm (hsame.trans h)⟩
    case usable =>
      rw [hsensors, hexcluded, hrecorder, State.convert_usable hn hex hok hlo hhi]
      exact ⟨rfl, rfl, rfl⟩
    case unusable =>
      rw [hsensors, hexcluded, hrecorder, State.convert_unusable hn hex hno]
      exact ⟨rfl, rfl, rfl⟩
  case trip =>
    refine congrArg Host.Outcome.next (if_pos ?_)
    simp [State.senses, hruns, hd, ht, hex, hc]
  case low =>
    intro hlow
    have hsenses : s.senses = true := by simp [State.senses, hruns, hd]
    refine ⟨_, congrArg Host.Outcome.next (if_pos hsenses), ?_, ?_⟩
    · simp only [State.supplyRecord, hlow, if_true]; rfl
    · simp only [State.supplyRecord, hlow, if_true]; rfl
  case fine =>
    intro hfine
    refine congrArg Host.Outcome.next ?_
    simp only [State.supplyRecord, Nat.not_lt.2 hfine, if_false]
    exact ite_self s

end Sys2Proof.Machine
end


section
/-!
PROOF. Refresh, scrub and write-timing care of the memories.
-/
namespace Sys2Proof.Machine

open Sys2Proof Sys2Proof.Safety

/-- Settles O45: each event by the one branch that its conditions take. -/
theorem backgroundMemoryCareCompletes : Obligations.BackgroundMemoryCareCompletes := by
  unfold Obligations.BackgroundMemoryCareCompletes
  intro s
  refine ⟨fun t0 hself => ?supervision, fun q c hruns hself hd => ?refresh, fun v hc hd => ⟨?corrected, ?clean⟩,
    fun ch hc hp => ⟨?drift, ?steady⟩⟩
  case supervision =>
    refine congrArg Host.Outcome.next ((if_pos hself).trans ?_)
    unfold nextSelfRefresh refreshPeriod
    rfl
  case refresh => exact congrArg Host.Outcome.next (if_pos (by simp [hruns, hself, hd]))
  case corrected => exact congrArg Host.Outcome.next (if_pos (by simp [hc, hd]))
  case clean => exact congrArg Host.Outcome.next (if_neg (by simp))
  case drift => exact congrArg Host.Outcome.next (if_pos (by simp [hc, hp]))
  case steady => exact congrArg Host.Outcome.next (if_neg (by simp))

end Sys2Proof.Machine
end


section
/-!
PROOF. Faults of Looms, of Shuttles, of single units and of words of memory.
-/
namespace Sys2Proof.Machine

open Sys2Proof Sys2Proof.Safety

/-! ### The Looms and the dent map (R37, R281) -/

/-- Two states with the same Looms and the same dent map. -/
structure LoomsStay (s t : State) : Prop where
  looms : t.units.looms = s.units.looms
  dentMap : t.units.dentMap = s.units.dentMap

theorem LoomsStay.refl (s : State) : LoomsStay s s := ⟨rfl, rfl⟩

theorem LoomsStay.trans {s t u : State} (h : LoomsStay s t) (h' : LoomsStay t u) : LoomsStay s u :=
  ⟨h'.looms.trans h.looms, h'.dentMap.trans h.dentMap⟩

theorem LoomsStay.of_units {s t : State} (h : t.units = s.units) : LoomsStay s t := ⟨by rw [h], by rw [h]⟩

theorem LoomsStay.foldl {α : Type} {f : State → α → State} (h : ∀ s a, LoomsStay s (f s a)) (l : List α) (s : State) :
    LoomsStay s (l.foldl f s) := by
  induction l generalizing s with
  | nil => exact LoomsStay.refl s
  | cons a l ih => exact (h s a).trans (ih _)

theorem LoomsStay.event (s : State) (e : EventKind) (st : Status) (context hostTag : Word) (params : List Byte) :
    LoomsStay s (s.event e st context hostTag params) := LoomsStay.of_units (OutputOnly.event s e st context hostTag params).units

theorem LoomsStay.freeBlocks (s : State) (bs : List (Nat × Nat)) : LoomsStay s (s.freeBlocks bs) :=
  LoomsStay.foldl (f := State.freeBlock) (fun _ _ => LoomsStay.of_units rfl) bs s

/-- R112: the contexts of a job that ends. -/
theorem LoomsStay.dropCtxs (s : State) (job : Word) : LoomsStay s (s.dropCtxs job) := by
  have hone : ∀ (s : State) (p : Nat), LoomsStay s (s.dropCtx job p) := by
    intro s p
    unfold State.dropCtx
    split
    · exact LoomsStay.refl s
    · next c _ => exact (LoomsStay.freeBlocks s c.allBlocks).trans (LoomsStay.of_units rfl)
  exact (LoomsStay.foldl hone _ s).trans (LoomsStay.of_units rfl)

theorem LoomsStay.dropPortTransfers (s : State) (job : Word) : LoomsStay s (s.dropPortTransfers job) := LoomsStay.of_units rfl

/-- R313: the bindings of a job that ends. -/
theorem LoomsStay.leaveBindings (s : State) (job : Word) : LoomsStay s (s.leaveBindings job) := by
  unfold State.leaveBindings
  refine LoomsStay.trans (LoomsStay.of_units ?_) (LoomsStay.of_units (OutputOnly.foldl (fun s b => OutputOnly.tellLeft s b _) _ _).units)
  rfl

/-- R397: a phrase job leaves. -/
theorem LoomsStay.dropPhraseJob (s : State) (j : Job) (st : Status) : LoomsStay s (s.dropPhraseJob j st) := by
  unfold State.dropPhraseJob
  dsimp only
  split
  · exact LoomsStay.of_units rfl
  · refine LoomsStay.trans ?_ (LoomsStay.event _ _ _ _ _ _)
    exact LoomsStay.of_units rfl

/-- R269: the tags of a job's end. -/
theorem LoomsStay.tagDents (s : State) (a : Option Alternative) (b : Bool) :
    LoomsStay s (if b then a.elim s s.tagDents else s) := by
  split
  · cases a with
    | none => exact LoomsStay.refl s
    | some a => exact ⟨rfl, rfl⟩
  · exact LoomsStay.refl s

theorem LoomsStay.mapJob (s : State) (id : Word) (f : Job → Job) : LoomsStay s (s.mapJob id f) := LoomsStay.of_units rfl

/-- R405: the event of a job that has become Ready. -/
theorem LoomsStay.resultEventOf (s : State) (id : Word) : LoomsStay s ((s.job? id).elim s s.resultEvent) := by
  cases s.job? id with
  | none => exact LoomsStay.refl s
  | some j => exact LoomsStay.event s _ _ _ _ _

/-- R281: a job ends. -/
theorem LoomsStay.endOne (s : State) (id : Word) (st : Status) : LoomsStay s (s.endOne id st) := by
  unfold State.endOne
  split
  · exact LoomsStay.refl s
  · next j _ =>
    split
    · exact LoomsStay.refl s
    · dsimp only
      have hgone : LoomsStay s (((s.dropPortTransfers id).dropCtxs id).leaveBindings id) :=
        ((LoomsStay.dropPortTransfers s id).trans (LoomsStay.dropCtxs _ id)).trans (LoomsStay.leaveBindings _ id)
      generalize ((s.dropPortTransfers id).dropCtxs id).leaveBindings id = t at hgone ⊢
      have htagged := hgone.trans (LoomsStay.tagDents t j.alt j.started)
      generalize (if j.started = true then j.alt.elim t t.tagDents else t) = u at htagged ⊢
      refine (htagged.trans (LoomsStay.of_units (t := u.countEnd j.client st) rfl)).trans ?_
      generalize u.countEnd j.client st = v
      split
      · exact LoomsStay.dropPhraseJob v j st
      · exact (LoomsStay.mapJob v id _).trans (LoomsStay.resultEventOf _ id)

theorem LoomsStay.endJob (s : State) (id : Word) (st : Status) : LoomsStay s (s.endJob id st) :=
  (LoomsStay.foldl (fun s m => LoomsStay.endOne s m _) _ s).trans (LoomsStay.endOne _ id st)

/-! ### Replays (R532 to R537) -/

/-- What a change of a Loom leaves of the Looms. -/
theorem State.loom_mapLoom_keeps {α : Type} {g : LoomUnit → α} {f : LoomUnit → LoomUnit} (h : ∀ u, g (f u) = g u) (s : State)
    (m n : Nat) : g ((s.mapLoom m f).loom n) = g (s.loom n) := by
  unfold State.loom nth State.mapLoom
  dsimp only
  rw [List.getElem?_modify]
  by_cases hmn : m = n
  · cases hl : s.units.looms[n]? with
    | none => rfl
    | some u => simp [hmn, h]
  · cases s.units.looms[n]? with
    | none => rfl
    | some u => simp [hmn]

/-- Another Loom is as it was. -/
theorem State.loom_mapLoom_of_ne (s : State) {m n : Nat} (h : n ≠ m) (f : LoomUnit → LoomUnit) : (s.mapLoom m f).loom n = s.loom n := by
  simp [State.loom, nth, State.mapLoom, h.symm]

/-- A changed Loom of the device. -/
theorem State.loom_mapLoom {s : State} {n : Nat} (hn : n < s.units.looms.length) (f : LoomUnit → LoomUnit) :
    (s.mapLoom n f).loom n = f (s.loom n) := by
  simp [State.loom, nth, State.mapLoom, hn]

/-- R284: a context set back to its knot. -/
theorem LoomsStay.backToKnot (s : State) (c : Ctx) : LoomsStay s (s.backToKnot c) := by
  have hback : ∀ k, LoomsStay s (s.setBack c k) := fun k => (LoomsStay.freeBlocks s c.blocks).trans (LoomsStay.of_units rfl)
  unfold State.backToKnot
  split
  · exact hback none
  · split
    · exact LoomsStay.endJob s _ _
    · exact hback _

/-- R274: the engines of a Loom. -/
theorem LoomsStay.refresh (s : State) (loom : Nat) : LoomsStay s (s.refresh loom) := by
  obtain ⟨cs, hs, _⟩ := s.refresh_passes loom
  exact LoomsStay.of_units (by rw [hs])

/-- R532, R534: a context restored from its knot. -/
theorem LoomsStay.replayCtx (s : State) (target : Nat) (c : Ctx) : LoomsStay s (s.replayCtx target c) :=
  (LoomsStay.backToKnot s c).trans (LoomsStay.of_units (t := (s.backToKnot c).mapCtx c.job c.position _) rfl)

theorem LoomsStay.isolate (s : State) (loom target : Nat) : LoomsStay s (s.isolate loom target) := LoomsStay.of_units rfl

/-- R532: what a replay leaves of the dent map and of the failed Loom. -/
theorem State.replayLoom_units (s : State) (loom target : Nat) :
    (s.replayLoom loom target).units.dentMap = s.units.dentMap
      ∧ ∀ n, ((s.replayLoom loom target).loom n).failed = (s.loom n).failed := by
  have hreplayed : LoomsStay s (((s.replayable loom).foldl (fun s c => s.replayCtx target c) s).isolate loom target) :=
    (LoomsStay.foldl (fun s c => LoomsStay.replayCtx s target c) (s.replayable loom) s).trans (LoomsStay.isolate _ _ _)
  unfold State.replayLoom
  dsimp only
  generalize ((s.replayable loom).foldl (fun s c => s.replayCtx target c) s).isolate loom target = v at hreplayed ⊢
  split
  · exact ⟨hreplayed.dentMap, fun n => by unfold State.loom; rw [hreplayed.looms]⟩
  · have hcounted : ∀ n, ((v.mapLoom loom fun u => { u with replays := satAdd u.replays 1 }).loom n).failed = (v.loom n).failed :=
      fun n => State.loom_mapLoom_keeps (g := LoomUnit.failed) (by intro _; rfl) v loom n
    generalize hw : (v.mapLoom loom fun u => { u with replays := satAdd u.replays 1 }) = w at hcounted ⊢
    have hdents : w.units.dentMap = s.units.dentMap := by
      rw [← hw]
      exact hreplayed.dentMap
    have hevent := fun st context hostTag params =>
      (LoomsStay.refresh w target).trans (LoomsStay.event (w.refresh target) .fault st context hostTag params)
    refine ⟨(hevent _ _ _ _).dentMap.trans hdents, fun n => Eq.trans ?_ ((hcounted n).trans ?_)⟩
    · exact congrArg (fun l => (nth l n { LoomUnit.healthy with failed := true }).failed) (hevent _ _ _ _).looms
    · unfold State.loom
      rw [hreplayed.looms]

/-! ### Looms (R37, R530, R532) -/

/-- R28: a domain switched on leaves the Looms. -/
theorem LoomsStay.domainOnNow (s : State) (d : Nat) : LoomsStay s (s.domainOnNow d) := by
  have hpace : LoomsStay s ((s.mapPower fun p => { p with powered := setBit p.powered d true }).resetPace d) := by
    unfold State.resetPace
    split
    · exact LoomsStay.of_units rfl
    · exact LoomsStay.of_units rfl
  have hreed : ∀ (s : State) (c : Nat) (f : ReedPort → ReedPort), LoomsStay s (s.mapReed c f) := by
    intro s c f
    unfold State.mapReed
    split
    · exact LoomsStay.of_units rfl
    · exact LoomsStay.of_units rfl
  unfold State.domainOnNow
  split
  · exact LoomsStay.refl s
  · unfold State.switchOn State.unitOn
    dsimp only
    generalize (s.mapPower fun p => { p with powered := setBit p.powered d true }).resetPace d = v at hpace ⊢
    refine hpace.trans ?_
    split
    · exact LoomsStay.of_units rfl
    · split
      · exact LoomsStay.of_units rfl
      · split
        · exact LoomsStay.foldl (fun s i => hreed s _ _) (List.range 8) v
        · split
          · exact LoomsStay.trans (t := v.mapRecorder fun r => { r with late := [] }) (LoomsStay.of_units rfl)
              (LoomsStay.foldl (f := State.record) (fun _ _ => LoomsStay.of_units rfl) _ _)
          · exact LoomsStay.refl v

/-- R37: a dent mapped to a spare. -/
theorem State.mapDent_units (s : State) (loom dent spare : Nat) :
    (s.mapDent loom dent spare).units.dentMap = s.units.dentMap.set dent (some spare)
      ∧ ∀ n, (s.mapDent loom dent spare).loom n = s.loom n := by
  have hon := LoomsStay.domainOnNow s spare
  refine ⟨?_, fun n => ?_⟩
  · exact congrArg (fun m => m.set dent (some spare)) hon.dentMap
  · exact congrArg (fun l => nth l n { LoomUnit.healthy with failed := true }) hon.looms

/-- R37: the spares of a device of which a Loom that carries a dent changes. -/
theorem State.spareFor_congr {s t : State} {loom : Nat} (hd : t.units.dentMap = s.units.dentMap)
    (hf : ∀ n, n ≠ loom → (t.loom n).failed = (s.loom n).failed) (hl : (s.dentOf loom).isSome = true) (dent : Nat) :
    t.spareFor dent = s.spareFor dent := by
  have hdent : ∀ n, t.dentOf n = s.dentOf n := fun n => by unfold State.dentOf; rw [hd]
  have hspare : t.spareLoom = s.spareLoom := by
    funext n
    unfold State.spareLoom
    rw [hdent]
    by_cases hn : n = loom
    · obtain ⟨d, hd'⟩ := Option.isSome_iff_exists.1 hl
      rw [hn, hd']
      simp
    · rw [hf n hn]
  unfold State.spareFor
  rw [hspare]

/-- R37, R530: a retired Loom that carries a dent for which there is a spare. -/
theorem State.retireLoom_units {s : State} {loom dent spare : Nat} (mech faults : Nat) (hl : loom < s.units.looms.length)
    (hd : s.dentOf loom = some dent) (hs : s.spareFor dent = some spare) :
    ((s.retireLoom loom mech faults).loom loom).failed = true
      ∧ (s.retireLoom loom mech faults).units.dentMap = s.units.dentMap.set dent (some spare) := by
  unfold State.retireLoom
  generalize hv : (s.mapLoom loom fun u => { u with failed := true }).lifetime 0x0040 0 loom 0
    (leBytes 1 mech ++ leBytes 1 faults) = v
  have hunits : v.units = (s.mapLoom loom fun u => { u with failed := true }).units := by rw [← hv]; rfl
  have hloom : ∀ n, v.loom n = (s.mapLoom loom fun u => { u with failed := true }).loom n := fun n => by
    unfold State.loom
    rw [hunits]
  have hmap : v.units.dentMap = s.units.dentMap := by rw [hunits]; rfl
  have hdent : v.dentOf loom = some dent := by
    unfold State.dentOf at hd ⊢
    rw [hmap, hd]
  have hspare : v.spareFor dent = some spare := by
    rw [State.spareFor_congr hmap (fun n hn => ?_) (by rw [hd]; rfl), hs]
    rw [hloom, State.loom_mapLoom_of_ne s hn]
  obtain ⟨hset, hsame⟩ := v.mapDent_units loom dent spare
  obtain ⟨hkept, hfailed⟩ := (v.mapDent loom dent spare).replayLoom_units loom spare
  unfold State.failOver
  rw [hdent]
  dsimp only
  rw [hspare]
  dsimp only
  refine ⟨(hfailed loom).trans ?_, hkept.trans (hset.trans (by rw [hmap]))⟩
  rw [hsame, hloom, State.loom_mapLoom hl]

/-- R530: a Loom's fault noted. -/
def LoomUnit.noted (faults : List Word) (u : LoomUnit) : LoomUnit := { u with faults := faults }

/-- R530: a Loom's third fault in 60 minutes, or its watchdog's, retires it. -/
theorem State.loomFault_retires {s : State} {loom : Nat} {mech : Mechanism} (test : SelfTest)
    (h : 3 ≤ (recentFaults (s.loom loom).faults s.recorder.minutes).length ∨ mech = .watchdog) :
    s.loomFault loom mech test = (s.mapLoom loom (LoomUnit.noted (recentFaults (s.loom loom).faults s.recorder.minutes))).retireLoom
      loom (mechRow mech) (min (recentFaults (s.loom loom).faults s.recorder.minutes).length 255) := by
  unfold State.loomFault
  dsimp only
  rw [if_pos]
  · rfl
  · rcases h with h | h
    · simp [h]
    · simp [h]

/-- R530, R532: a Loom's fault that its self-test passes, of a Loom without contexts with state. -/
theorem State.loomFault_passes {s : State} {loom : Nat} {mech : Mechanism}
    (hf : (recentFaults (s.loom loom).faults s.recorder.minutes).length < 3) (hm : mech ≠ .watchdog) (hr : s.replayable loom = []) :
    s.loomFault loom mech .pass = (s.mapLoom loom (LoomUnit.noted (recentFaults (s.loom loom).faults s.recorder.minutes))).isolate
      loom loom := by
  have hnone : (s.mapLoom loom (LoomUnit.noted (recentFaults (s.loom loom).faults s.recorder.minutes))).replayable loom = [] := hr
  unfold State.loomFault
  dsimp only
  rw [if_neg (by simp [hm, hf])]
  unfold State.replayLoom
  dsimp only
  unfold LoomUnit.noted at hnone
  rw [hnone]
  rfl

/-! ### Shuttles (R228, R540) -/

/-- R540: a stream of a Shuttle's fault, set back where it holds a slot. -/
def Stream.setBack (free : Option Nat) (t : Stream) : Stream :=
  let t := if t.slot.isSome then t.rerun free else t
  if t.moving then t.depart else t

/-- R540: a rerun keeps the stream's id. -/
theorem Stream.rerun_id (t : Stream) (free : Option Nat) : (t.rerun free).id = t.id := by
  unfold Stream.rerun
  dsimp only
  split
  · rfl
  · rfl
  · rfl

/-- R540: a stream set back keeps its id. -/
theorem Stream.setBack_id (t : Stream) (free : Option Nat) : (t.setBack free).id = t.id := by
  have hslot : (if t.slot.isSome then t.rerun free else t).id = t.id := by
    split
    · exact t.rerun_id free
    · rfl
  have hleft : ∀ x : Stream, (if x.moving then x.depart else x).id = x.id := by
    intro x
    split
    · exact x.depart_id
    · rfl
  exact (hleft _).trans hslot

/-- R540: a stream without a cross-fade that stays is set back to its context as last written. -/
theorem Stream.setBack_of_staying {t : Stream} (hs : t.slot.isSome = true) (hm : t.moving = false) (hc : t.savedCompanion = none)
    (free : Option Nat) :
    t.setBack free = { ({ t with ctx := t.saved, again := t.redo, redo := none } : Stream).recallCompanion with companionSlot := none } := by
  have hrerun : t.rerun free
      = { ({ t with ctx := t.saved, again := t.redo, redo := none } : Stream).recallCompanion with companionSlot := none } := by
    unfold Stream.rerun
    dsimp only
    rw [hc]
    rfl
  unfold Stream.setBack
  dsimp only
  rw [if_pos hs, hrerun]
  exact if_neg (by rw [show ({ ({ t with ctx := t.saved, again := t.redo, redo := none } : Stream).recallCompanion with
    companionSlot := none } : Stream).moving = t.moving from rfl, hm]; decide)

/-- R540: one stream of a Shuttle restored in its slot. -/
def State.rerunOne (s : State) (c p : Nat) (id : Word) : State :=
  match s.stream? id, s.reread id with
  | some t, none => s.loseStream t
  | _, some v => v.mapStream id (Stream.setBack (s.freeSlot c p))
  | none, none => s

/-- R540: where a stream that is to move goes, once the Shuttle that it is to move to is replaced. -/
def Stream.retargeted (c p q : Nat) (t : Stream) : Stream :=
  { t with moveTo := t.moveTo.map fun m => if m == (c, p) then (c, q) else m }

/-- R540: a stream that another Shuttle serves. -/
def Stream.servedBy (c p q : Nat) (t : Stream) : Stream := if t.cluster == c && t.pos == p then { t with pos := q } else t

theorem State.rerunOn_eq (s : State) (c p q : Nat) (ids : List Word) :
    s.rerunOn c p q ids = (ids.foldl (fun s id => s.rerunOne c p id) ((s.mapStreams (Stream.retargeted c p q)).mapShuttle c p
      fun h => { h with batch := none, wavesSinceWrite := 0 })).mapStreams (Stream.servedBy c p q) := rfl

/-- R540: a stream is not sent elsewhere where its Shuttle is retried in place. -/
theorem Stream.inPlace (c p : Nat) (t : Stream) : t.retargeted c p p = t ∧ t.servedBy c p p = t := by
  constructor
  · unfold Stream.retargeted
    cases hm : t.moveTo with
    | none => rw [Option.map_none, ← hm]
    | some m =>
      have hid : (if m == (c, p) then (c, p) else m) = m := by
        split
        next h => exact (eq_of_beq h).symm
        next => rfl
      rw [Option.map_some, hid, ← hm]
  · unfold Stream.servedBy
    split
    next h => rw [← eq_of_beq (Bool.and_eq_true_iff.1 h).2]
    next => rfl

/-- R540: a Shuttle's one stream, whose context reads back right, restored in place. -/
theorem State.rerunOn_single {s : State} {c p : Nat} {t0 : Stream} {x : ShuttleCtx} (ht : s.stream? t0.id = some t0)
    (hx : s.readSaved t0 t0.saved.nextSeq = some x) :
    ∃ free, s.rerunOn c p p [t0.id] = ((s.mapShuttle c p fun h => { h with batch := none, wavesSinceWrite := 0 }).mapStream t0.id
      fun t => { t with saved := x }).mapStream t0.id (Stream.setBack free) := by
  refine ⟨(s.mapShuttle c p fun h => { h with batch := none, wavesSinceWrite := 0 }).freeSlot c p, ?_⟩
  rw [State.rerunOn_eq, State.mapStreams_self fun t _ => (t.inPlace c p).1, State.mapStreams_self fun t _ => (t.inPlace c p).2,
    List.foldl_cons, List.foldl_nil]
  generalize hw : (s.mapShuttle c p fun h => { h with batch := none, wavesSinceWrite := 0 }) = w
  have hstream : w.stream? t0.id = some t0 := by
    rw [← hw]
    exact ht
  have hread : w.reread t0.id = some (w.mapStream t0.id fun t => { t with saved := x }) := by
    have hsaved : w.readSaved t0 t0.saved.nextSeq = some x := by
      rw [← hw]
      exact hx
    unfold State.reread
    rw [hstream, Option.bind_some, hsaved, Option.map_some]
  unfold State.rerunOne
  rw [hstream, hread]

/-- A change of a Shuttle leaves what it keeps. -/
theorem State.shuttle_mapShuttle_keeps {α : Type} {g : Shuttle → α} {f : Shuttle → Shuttle} (h : ∀ x, g (f x) = g x) (s : State)
    (c p : Nat) : g ((s.mapShuttle c p f).shuttle c p) = g (s.shuttle c p) := by
  unfold State.shuttle nth State.mapShuttle State.mapCluster
  dsimp only
  cases hc : s.units.clusters[c]? with
  | none => simp [hc]
  | some k =>
    cases hp : k.shuttles[p]? with
    | none => simp [hc, hp]
    | some x => simp [hc, hp, h]

/-- A change of a cluster that keeps its Shuttles. -/
theorem State.shuttle_mapCluster {f : Cluster → Cluster} (h : ∀ k, (f k).shuttles = k.shuttles) (s : State) (c p : Nat) :
    (s.mapCluster c f).shuttle c p = s.shuttle c p := by
  unfold State.shuttle nth State.mapCluster
  dsimp only
  cases hc : s.units.clusters[c]? with
  | none => simp [hc]
  | some k => simp [hc, h]

/-- R540, R543: what a Shuttle's fault leaves of its one stream, whose context reads back right. -/
theorem State.rerun_leaves {s : State} {c p : Nat} {t0 : Stream} {x : ShuttleCtx} (ht : s.stream? t0.id = some t0)
    (hx : s.readSaved t0 t0.saved.nextSeq = some x) (hslot : t0.slot.isSome = true) (hm : t0.moving = false)
    (hc : t0.savedCompanion = none) :
    ∃ u, ((s.rerunOn c p p [t0.id]).replayedShuttle c p [t0.id]).stream? t0.id = some u ∧ u.ctx = x ∧ u.samples = t0.samples
      ∧ u.cluster = t0.cluster ∧ u.pos = t0.pos
      ∧ (((s.rerunOn c p p [t0.id]).replayedShuttle c p [t0.id]).shuttle c p).failed = (s.shuttle c p).failed
      ∧ (((s.rerunOn c p p [t0.id]).replayedShuttle c p [t0.id]).shuttle c p).faults = (s.shuttle c p).faults
      ∧ ((s.rerunOn c p p [t0.id]).replayedShuttle c p [t0.id]).memory = s.memory := by
  obtain ⟨free, hrerun⟩ := State.rerunOn_single (c := c) (p := p) ht hx
  rw [hrerun]
  generalize hw : ((s.mapShuttle c p fun h => { h with batch := none, wavesSinceWrite := 0 }).mapStream t0.id
    fun t => { t with saved := x }).mapStream t0.id (Stream.setBack free) = w
  have hstream : w.stream? t0.id = some (({ t0 with saved := x } : Stream).setBack free) := by
    have hsaved : ((s.mapShuttle c p fun h => { h with batch := none, wavesSinceWrite := 0 }).mapStream t0.id
        fun t => { t with saved := x }).stream? t0.id = some { t0 with saved := x } := by
      refine (State.stream?_mapStream _ t0.id (f := fun t => { t with saved := x }) fun _ => rfl).trans ?_
      exact congrArg (Option.map _) ht
    rw [← hw, State.stream?_mapStream _ t0.id fun t => t.setBack_id free, hsaved]
    rfl
  have hback := Stream.setBack_of_staying (t := { t0 with saved := x }) hslot hm hc free
  have hshuttle : ∀ {α : Type} {g : Shuttle → α}, (∀ h : Shuttle, g { h with batch := none, wavesSinceWrite := 0 } = g h) →
      g (w.shuttle c p) = g (s.shuttle c p) := by
    intro α g hg
    rw [← hw]
    exact State.shuttle_mapShuttle_keeps hg s c p
  have hmemory : w.memory = s.memory := by rw [← hw]; rfl
  have hevent : OutputOnly (w.mapShuttle c p fun h => { h with replays := satAdd h.replays 1 }) (w.replayedShuttle c p [t0.id]) :=
    OutputOnly.event _ _ _ _ _ _
  have hunits : ∀ {α : Type} {g : Shuttle → α}, (∀ h : Shuttle, g { h with replays := satAdd h.replays 1 } = g h) →
      g ((w.replayedShuttle c p [t0.id]).shuttle c p) = g (w.shuttle c p) := by
    intro α g hg
    refine Eq.trans ?_ (State.shuttle_mapShuttle_keeps hg w c p)
    unfold State.shuttle
    rw [hevent.units]
  refine ⟨({ t0 with saved := x } : Stream).setBack free, ?_, ?_, ?_, ?_, ?_, ?_, ?_, hevent.memory.trans hmemory⟩
  · unfold State.stream? at hstream ⊢
    rw [hevent.audio]
    exact hstream
  · rw [hback]; rfl
  · rw [hback]; rfl
  · rw [hback]; rfl
  · rw [hback]; rfl
  · exact (hunits (g := Shuttle.failed) fun _ => rfl).trans (hshuttle fun _ => rfl)
  · exact (hunits (g := Shuttle.faults) fun _ => rfl).trans (hshuttle fun _ => rfl)

/-! ### Words (R245) -/

/-- R245: a word that a resident context reads. -/
theorem State.wordRead_context {s : State} {loom slot : Nat} {c : Ctx} (v off : Nat) (h : s.resident? loom slot = some c) :
    s.wordRead (.vault v) off (.context loom slot)
      = some (((s.badPieces c.job c.position (.vault (vaultKey v off))).foldl State.withhold s).wordLost (.vault v) off c.job) := by
  unfold State.wordRead
  dsimp only
  rw [h]
  rfl

/-! ### The obligation -/

/-- Settles O46: every clause by the lemma of its event. -/
theorem faultEventsComplete : Obligations.FaultEventsComplete := by
  unfold Obligations.FaultEventsComplete
  intro s
  refine ⟨fun loom mech hmay hlt => ?looms, ?shuttles, fun n hmay => ?loomWatchdog, fun c p hmay => ?shuttleWatchdog,
    fun u mech hmay => ?solo, ?words⟩
  case looms =>
    dsimp only
    have hexec : ∀ test, exec (.loomFault loom mech test) s = .next (s.loomFault loom mech test) := fun test =>
      congrArg Host.Outcome.next (if_pos hmay)
    refine ⟨fun dent spare hmany hd hs test => ?retires, fun hfew hm hr => ?passes⟩
    case retires =>
      generalize hw : s.mapLoom loom (LoomUnit.noted (recentFaults (s.loom loom).faults s.recorder.minutes)) = w
      have hdents : w.units.dentMap = s.units.dentMap := by rw [← hw]; rfl
      have hlooms : ∀ n, (w.loom n).failed = (s.loom n).failed := fun n => by
        rw [← hw]
        exact State.loom_mapLoom_keeps (g := LoomUnit.failed) (by intro _; rfl) s loom n
      have hlength : loom < w.units.looms.length := by
        rw [← hw, show (s.mapLoom loom _).units.looms = s.units.looms.modify loom _ from rfl, List.length_modify]
        exact hlt
      have hcarries : w.dentOf loom = some dent := by
        unfold State.dentOf at hd ⊢
        rw [hdents, hd]
      have hspare : w.spareFor dent = some spare :=
        (State.spareFor_congr hdents (fun n _ => hlooms n) (by rw [hd]; rfl) dent).trans hs
      obtain ⟨hfailed, hset⟩ := State.retireLoom_units (mechRow mech)
        (min (recentFaults (s.loom loom).faults s.recorder.minutes).length 255) hlength hcarries hspare
      refine ⟨_, (hexec test).trans (congrArg _ ((State.loomFault_retires test hmany).trans (by rw [hw]))), hfailed, ?_⟩
      rw [hset, hdents]
    case passes =>
      have hloom := State.loom_mapLoom hlt (LoomUnit.noted (recentFaults (s.loom loom).faults s.recorder.minutes))
      have hfaults := congrArg LoomUnit.faults hloom
      have hlanes := congrArg LoomUnit.lanes hloom
      have hfailed := congrArg LoomUnit.failed hloom
      refine ⟨_, (hexec .pass).trans (congrArg _ (State.loomFault_passes hfew hm hr)), ?_, hfaults, hlanes, rfl, rfl, fun x hx => ?_⟩
      · have hhealthy : (s.loom loom).failed = false := by
          unfold State.loomMayFault at hmay
          simp only [Bool.and_eq_true, Bool.not_eq_true'] at hmay
          exact hmay.1.2
        exact hfailed.trans hhealthy
      · have hmem : x ∈ s.sched.transfers.filter (fun t => t.loom != loom) := hx
        simpa using (List.mem_filter.1 hmem).2
  case shuttles =>
    intro c p mech t0 x hmay hw hfew hx hs ht hslot hm hc
    have hpass : exec (.shuttleFault c p mech .pass) s
        = .next (if mech == .weightStore then s.storeFault c p else s.shuttleFault c p mech .pass) :=
      congrArg Host.Outcome.next (if_neg (by simp [hmay]))
    have hplace : t0.cluster = c ∧ t0.pos = p := by
      have hmem : t0 ∈ s.audio.streams.filter fun u => u.cluster == c && u.pos == p := by rw [hs]; exact List.mem_singleton_self _
      simpa using (List.mem_filter.1 hmem).2
    by_cases hstore : mech = .weightStore
    · have hreload : s.storeFault c p = ((s.reloadStore c).rerunOn c p p [t0.id]).replayedShuttle c p [t0.id] := by
        unfold State.storeFault
        rw [hs]
        rfl
      rw [hstore, if_pos BEq.rfl, hreload] at hpass
      obtain ⟨u, hu, hctx, hsamples, hcl, hpos, hfailed, hfaults, hmem⟩ :=
        State.rerun_leaves (s := s.reloadStore c) (c := c) (p := p) ht hx hslot hm hc
      have hsame := State.shuttle_mapCluster (f := fun k => { k with store := k.store.map fun e => (e.1, s.readProgram e.1) })
        (fun _ => rfl) s c p
      exact ⟨_, u, hstore ▸ hpass, hu, hctx, hsamples, hcl.trans hplace.1, hpos.trans hplace.2,
        hfailed.trans (congrArg Shuttle.failed hsame), hmem, fun _ => hfaults.trans (congrArg Shuttle.faults hsame)⟩
    · have hlen : (recentFaults (s.shuttle c p).faults s.recorder.minutes).length < 3 := by
        have hlt := hfew.resolve_left hstore
        unfold recentFaults
        rw [List.length_append, List.length_singleton]
        exact Nat.add_lt_add_right hlt 1
      have hretry : s.shuttleFault c p mech .pass = ((s.mapShuttle c p fun h => { h with
          faults := recentFaults (s.shuttle c p).faults s.recorder.minutes }).rerunOn c p p [t0.id]).replayedShuttle c p [t0.id] := by
        unfold State.shuttleFault
        dsimp only
        rw [hs, if_neg (by simp [hw, hlen])]
        rfl
      rw [if_neg (by simpa using hstore), hretry] at hpass
      obtain ⟨u, hu, hctx, hsamples, hcl, hpos, hfailed, -, hmem⟩ :=
        State.rerun_leaves (s := s.mapShuttle c p fun h => { h with faults := recentFaults (s.shuttle c p).faults s.recorder.minutes })
          (c := c) (p := p) ht hx hslot hm hc
      exact ⟨_, u, hpass, hu, hctx, hsamples, hcl.trans hplace.1, hpos.trans hplace.2,
        hfailed.trans (State.shuttle_mapShuttle_keeps (g := Shuttle.failed) (by intro _; rfl) s c p), hmem, fun h => absurd h hstore⟩
  case loomWatchdog =>
    refine congrArg Host.Outcome.next ?_
    rfl
  case shuttleWatchdog =>
    refine congrArg Host.Outcome.next ?_
    exact (if_pos hmay).trans (if_neg (by simp [hmay])).symm
  case solo =>
    refine ⟨_, congrArg Host.Outcome.next (if_pos hmay), rfl, rfl, rfl, ?_⟩
    unfold State.soloFault
    simp only [beq_iff_eq]
    rfl
  case words =>
    intro v loom slot off c j hc hd hres hj hready
    dsimp only
    have hexec : exec (.uncorrectableWord true v off (.context loom slot)) s = .next
        ((((s.badPieces c.job c.position (.vault (vaultKey v off.toNat))).foldl State.withhold
          (s.lifetime 0x0030 2 v 0 (leBytes 8 off.toNat))).wordLost (.vault v) off.toNat c.job)) := by
      refine congrArg Host.Outcome.next ?_
      unfold State.badWord
      dsimp only
      rw [if_neg (by simp [hc, hd])]
      simp only [if_true]
      rw [State.wordRead_context (s := s.lifetime 0x0030 2 v 0 (leBytes 8 off.toNat)) _ _ hres]
      rfl
    have hlost : ∀ (u : State) (k : Job), u.job? c.job = some k → k.ready = false → u.wordLost (.vault v) off.toNat c.job
        = (u.faultEvent .faultLost (.vault v) 0 off.toNat (u.fedBy [c.job]) [c.job]).stopJob c.job .faultLost := by
      intro u k hk hkr
      unfold State.wordLost
      rw [hk]
      exact if_neg (by simp [hkr])
    refine ⟨fun hnone => ?none, fun x q tag hone htag => ⟨fun hload hkept => ?load, fun hloadC => ?loadC⟩⟩
    case none =>
      rw [hexec, hnone]
      exact congrArg Host.Outcome.next (hlost _ j hj hready)
    case load =>
      rw [hexec, hone, List.foldl_cons, List.foldl_nil]
      have hheld : (s.lifetime 0x0030 2 v 0 (leBytes 8 off.toNat)).withhold (x, q)
          = (s.lifetime 0x0030 2 v 0 (leBytes 8 off.toNat)).donePiece x.loom tag := by
        unfold State.withhold
        dsimp only
        rw [if_neg (by rw [hload]; decide), htag]
        rfl
      rw [hheld]
      exact congrArg Host.Outcome.next (hlost _ j (hkept.symm.trans hj) hready)
    case loadC =>
      rw [hexec, hone, List.foldl_cons, List.foldl_nil]
      have hheld : (s.lifetime 0x0030 2 v 0 (leBytes 8 off.toNat)).withhold (x, q)
          = { s.lifetime 0x0030 2 v 0 (leBytes 8 off.toNat) with sched := { (s.lifetime 0x0030 2 v 0 (leBytes 8 off.toNat)).sched with
              transfers := s.sched.transfers.filter fun u => u.loom ≠ x.loom ∨ ∀ r ∈ u.pieces, r.tag ≠ some tag } } := by
        have hgone : (fun u : Transfer => !(u.loom == x.loom && u.pieces.any fun r => r.tag == some tag))
            = fun u => decide (u.loom ≠ x.loom ∨ ∀ r ∈ u.pieces, r.tag ≠ some tag) := by
          funext u
          rw [Bool.eq_iff_iff]
          simp [imp_iff_not_or]
        unfold State.withhold
        dsimp only
        rw [if_pos (by rw [hloadC]; decide), htag, hgone]
        rfl
      rw [hheld]
      exact congrArg Host.Outcome.next (hlost _ j hj hready)

end Sys2Proof.Machine
end


section
/-!
PROOF. O49 fails in its clause on the debug port: a write to a model region that is in reach of code F is not done. R255 keeps a
loaded model's bytes, so the model answers such a write with an error (log 172) and leaves the byte.
-/
namespace Sys2Proof.Machine

open Sys2Proof

/-- A device after reset, Provisioned, with a live grant whose JTAG flag is set: its debug port has reach F. -/
def jtagGranted : State :=
  { State.reset with bark := { State.reset.bark with lifecycle := 1, grants := [⟨1, 1, 3, 9, zeros 32⟩] } }

/-- A debug write of the first byte of model space. -/
def modelRegionWrite : DapAccess := ⟨.modelRegion 0, some 1⟩

theorem jtagGranted_reach : jtagGranted.reach = .f := by decide +kernel

theorem jtagGranted_dapReach_model : jtagGranted.dapReach (.modelRegion 0) = true := by decide +kernel

theorem jtagGranted_dapLoc_model : jtagGranted.dapLoc (.modelRegion 0) = some (.chan (chanKey 0 jtagGranted.extJob)) := by
  decide +kernel

/-- The write is answered as one out of reach. -/
theorem exec_modelRegionWrite :
    ∃ t, exec (.dapAccess modelRegionWrite) jtagGranted = .next t ∧ t.out = [.dap none] := by
  exact ⟨_, rfl, by decide +kernel⟩

/-- Refutes O49: where the debug port has reach F, a write to a model region meets the hypotheses of the clause on a memory access in
reach, but it is answered with an error and not with the empty response of a write that was done. -/
theorem not_lifetimeAndResetEventsComplete : ¬ Obligations.LifetimeAndResetEventsComplete := by
  intro h
  obtain ⟨-, -, -, -, -, -, -, -, -, -, hdap, -⟩ := h jtagGranted
  have hreach : jtagGranted.reach ≠ .z := by simp [jtagGranted_reach]
  obtain ⟨-, hwrite⟩ := hdap modelRegionWrite _ hreach rfl jtagGranted_dapReach_model jtagGranted_dapLoc_model
  obtain ⟨t, ht, -, hout⟩ := hwrite 1 rfl
  obtain ⟨u, hu, herr⟩ := exec_modelRegionWrite
  cases ht.symm.trans hu
  rw [herr] at hout
  exact absurd hout (by decide +kernel)

end Sys2Proof.Machine
end


section
/-!
PROOF. What leaves the bytes of the memories: flits, packets, events, blocks of system space, the recorder, units, bindings, jobs
and the transitions of power. One frame lemma per operation of the model, in the model's order, for O52.
-/
namespace Sys2Proof.Machine

open Sys2Proof Sys2Proof.Safety

/-- The bytes of the canopy and of external memory. -/
def Memory.bytes (m : Memory) : Mem × Mem := (m.vault, m.ext)

@[simp] theorem Memory.bytes_mk (m : Memory) (vaultCorr chCorr : List Word) (refreshMs : List Nat) (altered : Mem)
    (blocks : List (Nat × Nat × Nat)) (lent : Nat) :
    Memory.bytes ⟨m.vault, m.ext, vaultCorr, chCorr, refreshMs, altered, blocks, lent⟩ = m.bytes := rfl

/-! ### Branches, folds and options -/

@[simp] theorem State.ite_bytes (c : Prop) [Decidable c] (s t : State) :
    (if c then s else t).memory.bytes = if c then s.memory.bytes else t.memory.bytes :=
  apply_ite (fun s : State => s.memory.bytes) c s t

@[simp] theorem State.foldl_bytes {α : Type} {f : State → α → State} (h : ∀ s a, (f s a).memory.bytes = s.memory.bytes)
    (l : List α) (s : State) : (l.foldl f s).memory.bytes = s.memory.bytes := by
  induction l generalizing s with
  | nil => rfl
  | cons a l ih => exact (ih (f s a)).trans (h s a)

/-- Ports changed in turn. -/
@[simp] theorem State.foldl_mapPort_bytes {α : Type} (n : α → Nat) (f : α → Selvage → Selvage) (l : List α) (s : State) :
    (l.foldl (fun s a => s.mapPort (n a) (f a)) s).memory.bytes = s.memory.bytes :=
  State.foldl_bytes (fun s a => congrArg Memory.bytes (State.mapPort_memory s (n a) (f a))) l s

@[simp] theorem State.elim_bytes {α : Type} {f : α → State} {s : State} (h : ∀ a, (f a).memory.bytes = s.memory.bytes)
    (o : Option α) : (o.elim s f).memory.bytes = s.memory.bytes := by
  cases o with
  | none => rfl
  | some a => exact h a

/-! ### Flits and messages -/

@[simp] theorem State.emitFlit_bytes (s : State) (n : Nat) (bytes : List Byte) :
    (s.emitFlit n bytes).memory.bytes = s.memory.bytes := by
  simp [State.emitFlit]

@[simp] theorem State.sendControlFlit_bytes (s : State) (n : Nat) (nak : Bool) :
    (s.sendControlFlit n nak).memory.bytes = s.memory.bytes := by
  simp [State.sendControlFlit]

@[simp] theorem State.acknowledge_bytes (s : State) (n : Nat) : (s.acknowledge n).memory.bytes = s.memory.bytes := by
  simp [State.acknowledge]

@[simp] theorem State.pump_bytes (fuel n : Nat) (s : State) : (State.pump fuel n s).memory.bytes = s.memory.bytes := by
  induction fuel generalizing s with
  | zero => rfl
  | succ fuel ih =>
    unfold State.pump
    dsimp only
    split
    · rfl
    · split <;> simp [ih]

@[simp] theorem State.pumpPort_bytes (s : State) (n : Nat) : (s.pumpPort n).memory.bytes = s.memory.bytes := by
  simp [State.pumpPort]

@[simp] theorem State.resendFlits_bytes (s : State) (n : Nat) (fs : List (BitVec 12 × TxFlit)) (counted : Bool) :
    (s.resendFlits n fs counted).memory.bytes = s.memory.bytes := by
  simp [State.resendFlits]

@[simp] theorem State.queueFlits_bytes (s : State) (n : Nat) (fs : List TxFlit) :
    (s.queueFlits n fs).memory.bytes = s.memory.bytes := by
  simp [State.queueFlits]

@[simp] theorem State.messageFrom_bytes (s : State) (src : Byte) (n device mtype : Nat) (bs : List Byte) :
    (s.messageFrom src n device mtype bs).memory.bytes = s.memory.bytes := by
  simp [State.messageFrom]

@[simp] theorem State.messageBy_bytes (s : State) (n device mtype dport : Nat) (lsid tag : Byte) (seq : Word) (body : List
    Byte) : (s.messageBy n device mtype dport lsid tag seq body).memory.bytes = s.memory.bytes := by
  simp [State.messageBy]

@[simp] theorem State.sendMessage_bytes (s : State) (via : Option Nat) (odd : Bool) (device mtype dport : Nat) (lsid tag :
    Byte) (seq : Word) (body : List Byte) : (s.sendMessage via odd device mtype dport lsid tag seq body).memory.bytes =
    s.memory.bytes := by
  unfold State.sendMessage
  (repeat' split) <;> simp

@[simp] theorem State.tell_bytes (s : State) (device : Nat) (c : Control) :
    (s.tell device c).memory.bytes = s.memory.bytes := by
  simp [State.tell]

@[simp] theorem State.tellAll_bytes (s : State) (c : Control) : (s.tellAll c).memory.bytes = s.memory.bytes := by
  simp [State.tellAll]

/-! ### Packets and events -/

@[simp] theorem State.sendPacket_bytes (s : State) (p : OutPacket) : (s.sendPacket p).memory.bytes = s.memory.bytes := by
  unfold State.sendPacket
  split <;> simp

@[simp] theorem State.drainHost_bytes (s : State) : s.drainHost.memory.bytes = s.memory.bytes := by
  simp [State.drainHost]

@[simp] theorem State.drainEvents_bytes (s : State) : s.drainEvents.memory.bytes = s.memory.bytes := by
  simp [State.drainEvents]

@[simp] theorem State.eventTo_bytes (s : State) (m : MasterId) (e : EventKind) (status : Status) (context hostTag : Word)
    (params : List Byte) : (s.eventTo m e status context hostTag params).memory.bytes = s.memory.bytes := by
  simp [State.eventTo]

@[simp] theorem State.event_bytes (s : State) (e : EventKind) (status : Status) (context hostTag : Word) (params : List Byte) :
    (s.event e status context hostTag params).memory.bytes = s.memory.bytes := by
  simp [State.event]

@[simp] theorem State.drawKey_bytes (s : State) : s.drawKey.2.memory.bytes = s.memory.bytes := rfl

/-! ### Blocks of system space -/

@[simp] theorem State.countCorrected_bytes (s : State) (canopy : Bool) (unit n : Nat) :
    (s.countCorrected canopy unit n).memory.bytes = s.memory.bytes := by
  simp [State.countCorrected]

@[simp] theorem State.takeBlock_bytes (s : State) (v owner : Nat) : (s.takeBlock v owner).2.memory.bytes = s.memory.bytes := rfl

theorem State.allocBlock_bytes {s : State} {owner : Nat} {r : (Nat × Nat) × State} (h : s.allocBlock owner = some r) :
    r.2.memory.bytes = s.memory.bytes := by
  obtain ⟨p, -, rfl⟩ := Option.map_eq_some_iff.mp h
  simp

theorem State.allocBlocks_bytes {n owner : Nat} {s : State} {r : List (Nat × Nat) × State}
    (h : State.allocBlocks n owner s = some r) : r.2.memory.bytes = s.memory.bytes := by
  induction n generalizing s r with
  | zero =>
    cases h
    rfl
  | succ n ih =>
    rw [State.allocBlocks] at h
    split at h
    · cases h
    · next _ b s1 hone =>
      obtain ⟨q, hrest, rfl⟩ := Option.map_eq_some_iff.mp h
      exact (ih hrest).trans (State.allocBlock_bytes hone)

theorem State.allocSave_bytes {s : State} {quadrant owner : Nat} {r : (Nat × Nat) × State}
    (h : s.allocSave quadrant owner = some r) : r.2.memory.bytes = s.memory.bytes := by
  unfold State.allocSave at h
  dsimp only at h
  split at h
  · cases h
    simp
  · obtain ⟨p, -, rfl⟩ := Option.map_eq_some_iff.mp h
    simp

theorem State.borrowBlock_bytes {s : State} {owner : Nat} {r : (Nat × Nat) × State} (h : s.borrowBlock owner = some r) :
    r.2.memory.bytes = s.memory.bytes := by
  unfold State.borrowBlock at h
  split at h
  · cases h
  · obtain ⟨v, -, rfl⟩ := Option.map_eq_some_iff.mp h
    simp

@[simp] theorem State.freeBlock_bytes (s : State) (b : Nat × Nat) : (s.freeBlock b).memory.bytes = s.memory.bytes := by
  simp [State.freeBlock]

@[simp] theorem State.freeBlocks_bytes (s : State) (bs : List (Nat × Nat)) :
    (s.freeBlocks bs).memory.bytes = s.memory.bytes := by
  simp [State.freeBlocks]

/-! ### The recorder -/

@[simp] theorem State.record_bytes (s : State) (e : LateEvent) : (s.record e).memory.bytes = s.memory.bytes := by
  simp [State.record]

@[simp] theorem State.lifetime_bytes (s : State) (code kind unit status : Nat) (detail : List Byte) :
    (s.lifetime code kind unit status detail).memory.bytes = s.memory.bytes := by
  simp [State.lifetime]

@[simp] theorem State.service_bytes (s : State) (code : Nat) (detail : List Byte) :
    (s.service code detail).memory.bytes = s.memory.bytes := by
  simp [State.service]

@[simp] theorem State.flushLate_bytes (s : State) : s.flushLate.memory.bytes = s.memory.bytes := by
  simp [State.flushLate]

@[simp] theorem State.checkpoint_bytes (s : State) : s.checkpoint.memory.bytes = s.memory.bytes := by
  simp [State.checkpoint]

/-! ### Records of system space -/

@[simp] theorem State.rewrote_bytes (s : State) (blocks : List (Nat × Nat)) (off len : Nat) :
    (s.rewrote blocks off len).memory.bytes = s.memory.bytes := by
  unfold State.rewrote
  split <;> simp

@[simp] theorem State.alter_bytes (s : State) (key : Nat) (old new : Byte) :
    (s.alter key old new).memory.bytes = s.memory.bytes := by
  simp [State.alter]

@[simp] theorem State.wroteContexts_bytes (s : State) (ts : List Stream) :
    (s.wroteContexts ts).memory.bytes = s.memory.bytes := by
  simp [State.wroteContexts]

@[simp] theorem State.sysWrite_bytes (s : State) (p : SysPlace) (b : Byte) :
    (s.sysWrite p b).memory.bytes = s.memory.bytes := by
  unfold State.sysWrite
  split <;> simp

/-! ### Units and domains -/

@[simp] theorem State.mapReed_bytes (s : State) (code : Nat) (f : ReedPort → ReedPort) :
    (s.mapReed code f).memory.bytes = s.memory.bytes := by
  simp [State.mapReed]

@[simp] theorem State.startPorts_bytes (s : State) (named : List Nat) : (s.startPorts named).memory.bytes = s.memory.bytes := by
  simp [State.startPorts]

@[simp] theorem State.resetPace_bytes (s : State) (d : Nat) : (s.resetPace d).memory.bytes = s.memory.bytes := by
  unfold State.resetPace
  split <;> simp

@[simp] theorem State.sourceLost_bytes (s : State) (source : Nat) : (s.sourceLost source).memory.bytes = s.memory.bytes := by
  simp [State.sourceLost]

@[simp] theorem State.outputLost_bytes (s : State) (n : Nat) : (s.outputLost n).memory.bytes = s.memory.bytes := by
  simp [State.outputLost]

@[simp] theorem State.checkOutputs_bytes (s : State) : s.checkOutputs.memory.bytes = s.memory.bytes := by
  simp [State.checkOutputs]

@[simp] theorem State.unlockInput_bytes (s : State) (n : Nat) : (s.unlockInput n).memory.bytes = s.memory.bytes := by
  simp [State.unlockInput]

@[simp] theorem State.recordLink_bytes (s : State) (before after : BitVec 2) :
    (s.recordLink before after).memory.bytes = s.memory.bytes := by
  simp [State.recordLink]

@[simp] theorem State.linkLost_bytes (s : State) : s.linkLost.memory.bytes = s.memory.bytes := by
  simp [State.linkLost]

@[simp] theorem State.setWires_bytes (s : State) (wires : List (Nat × Nat)) :
    (s.setWires wires).memory.bytes = s.memory.bytes := by
  simp [State.setWires]

@[simp] theorem State.portLost_bytes (s : State) (n : Nat) : (s.portLost n).memory.bytes = s.memory.bytes := by
  simp [State.portLost]

@[simp] theorem State.unitOff_bytes (s : State) (d : Nat) : (s.unitOff d).memory.bytes = s.memory.bytes := by
  simp [State.unitOff]

@[simp] theorem State.unitOn_bytes (s : State) (d : Nat) : (s.unitOn d).memory.bytes = s.memory.bytes := by
  simp [State.unitOn]

@[simp] theorem State.switchOff_bytes (s : State) (d : Nat) : (s.switchOff d).memory.bytes = s.memory.bytes := by
  simp [State.switchOff]

@[simp] theorem State.switchOn_bytes (s : State) (d : Nat) : (s.switchOn d).memory.bytes = s.memory.bytes := by
  simp [State.switchOn]

@[simp] theorem State.latchPads_bytes (s : State) (d : Nat) (on : Bool) : (s.latchPads d on).memory.bytes = s.memory.bytes := by
  simp [State.latchPads]

@[simp] theorem State.tryV6_bytes (s : State) (addr : List Byte) : (s.tryV6 addr).memory.bytes = s.memory.bytes := by
  simp [State.tryV6]

@[simp] theorem State.formV6_bytes (s : State) : s.formV6.memory.bytes = s.memory.bytes := by
  simp [State.formV6]

@[simp] theorem State.keepGrants_bytes (s : State) (gs : List Grant) : (s.keepGrants gs).memory.bytes = s.memory.bytes := by
  simp [State.keepGrants]

@[simp] theorem State.sealGrants_bytes (s : State) (target : PowerState) :
    (s.sealGrants target).memory.bytes = s.memory.bytes := by
  unfold State.sealGrants
  split <;> simp

/-! ### Bindings and blocks -/

@[simp] theorem State.mapLinkStream_bytes (s : State) (port : Nat) (lsid : Byte) (f : LinkStream → LinkStream) :
    (s.mapLinkStream port lsid f).memory.bytes = s.memory.bytes := by
  simp [State.mapLinkStream]

@[simp] theorem State.tellLeft_bytes (s : State) (b b' : Binding) : (s.tellLeft b b').memory.bytes = s.memory.bytes := by
  simp [State.tellLeft]

@[simp] theorem State.tellAttached_bytes (s : State) (b b' : Binding) :
    (s.tellAttached b b').memory.bytes = s.memory.bytes := by
  simp [State.tellAttached]

theorem State.makeRoom_bytes {fuel port bytes : Nat} {left : List BindEnd} {s : State} {r : State × List BindEnd}
    (h : State.makeRoom fuel port bytes left s = some r) : r.1.memory.bytes = s.memory.bytes := by
  induction fuel generalizing s left with
  | zero => cases h
  | succ fuel ih =>
    unfold State.makeRoom at h
    split at h
    · cases h
      rfl
    · obtain ⟨x, -, h⟩ := Option.bind_eq_some_iff.mp h
      obtain ⟨e, -, h⟩ := Option.bind_eq_some_iff.mp h
      exact (ih h).trans (by simp)

theorem State.enterPlan_bytes {s : State} {b : Binding} {bytes : Nat} {r : State × Binding × List BindEnd}
    (h : s.enterPlan b bytes = some r) : r.1.memory.bytes = s.memory.bytes := by
  unfold State.enterPlan at h
  obtain ⟨b', -, h⟩ := Option.bind_eq_some_iff.mp h
  obtain ⟨q, hroom, h⟩ := Option.bind_eq_some_iff.mp h
  obtain ⟨k, -, rfl⟩ := Option.map_eq_some_iff.mp h
  exact (State.makeRoom_bytes hroom).trans (by simp)

@[simp] theorem State.sendBlock_bytes (s : State) (b : Binding) (e : BindEnd) (blk : Word × Byte × List Byte × List Byte) :
    (s.sendBlock b e blk).memory.bytes = s.memory.bytes := by
  simp [State.sendBlock]

@[simp] theorem State.sendGroup_bytes (s : State) (b : Binding) (n : Nat) (blk : Word × Byte × List Byte × List Byte) :
    (s.sendGroup b n blk).memory.bytes = s.memory.bytes := by
  simp [State.sendGroup]

@[simp] theorem State.sendCopies_bytes (s : State) (b : Binding) (ends : List BindEnd)
    (blk : Word × Byte × List Byte × List Byte) :
    (s.sendCopies b ends blk).memory.bytes = s.memory.bytes := by
  unfold State.sendCopies
  refine (State.foldl_bytes (fun s n => ?_) _ _).trans (by simp)
  split <;> simp

@[simp] theorem State.enterBlock_bytes (s : State) (b : Binding) (body record : List Byte) :
    (s.enterBlock b body record).memory.bytes = s.memory.bytes := by
  simp [State.enterBlock]

@[simp] theorem State.sendAck_bytes (s : State) (b : Binding) (e : BindEnd) (seq : Word) :
    (s.sendAck b e seq).memory.bytes = s.memory.bytes := by
  simp [State.sendAck]

@[simp] theorem State.announceReset_bytes (s : State) : s.announceReset.memory.bytes = s.memory.bytes := by
  simp [State.announceReset]

/-! ### Engines -/

@[simp] theorem State.raisePasses_bytes (s : State) (loom slot : Nat) (c : Ctx) :
    (s.raisePasses loom slot c).memory.bytes = s.memory.bytes := by
  simp [State.raisePasses]

@[simp] theorem State.refreshOne_bytes (s : State) (loom : Nat) (e : Engine) (slot : Nat) (c : Ctx) :
    (s.refreshOne loom e slot c).memory.bytes = s.memory.bytes := by
  simp [State.refreshOne]

/-- One engine of one context, as `State.refresh` takes them in turn. -/

theorem State.refreshSlot_bytes (s : State) (loom slot : Nat) (e : Engine) :
    (match s.resident? loom slot with
      | some c => s.refreshOne loom e slot c
      | none => s).memory.bytes = s.memory.bytes := by
  split <;> simp

@[simp] theorem State.refresh_bytes (s : State) (loom : Nat) : (s.refresh loom).memory.bytes = s.memory.bytes :=
  State.foldl_bytes (fun s (p : Nat × Ctx) => State.foldl_bytes (fun s e => State.refreshSlot_bytes s loom p.1 e) _ s) _ s

@[simp] theorem State.charge_bytes (s : State) (job : Word) (pos : Nat) (engines : List Engine) (waves fixed : Nat) :
    (s.charge job pos engines waves fixed).memory.bytes = s.memory.bytes := by
  unfold State.charge
  dsimp only
  split <;> simp

/-! ### Jobs and contexts -/

@[simp] theorem State.mapAccount_bytes (s : State) (client : Nat) (f : Counts → Counts) :
    (s.mapAccount client f).memory.bytes = s.memory.bytes := by
  simp [State.mapAccount]

@[simp] theorem State.countEnd_bytes (s : State) (client : Nat) (st : Status) :
    (s.countEnd client st).memory.bytes = s.memory.bytes := by
  simp [State.countEnd]

@[simp] theorem State.faultEvent_bytes (s : State) (st : Status) (u : FaultUnit) (repeats : Word) (detail : Nat) (streams jobs
    : List Word) : (s.faultEvent st u repeats detail streams jobs).memory.bytes = s.memory.bytes := by
  simp [State.faultEvent]

@[simp] theorem State.resultEvent_bytes (s : State) (j : Job) : (s.resultEvent j).memory.bytes = s.memory.bytes := by
  simp [State.resultEvent]

@[simp] theorem State.leaveScale_bytes (s : State) (job : Word) (pos : Nat) :
    (s.leaveScale job pos).memory.bytes = s.memory.bytes := by
  simp [State.leaveScale]

@[simp] theorem State.dropCtx_bytes (s : State) (job : Word) (pos : Nat) :
    (s.dropCtx job pos).memory.bytes = s.memory.bytes := by
  unfold State.dropCtx
  split <;> simp

@[simp] theorem State.dropCtxs_bytes (s : State) (job : Word) : (s.dropCtxs job).memory.bytes = s.memory.bytes := by
  simp [State.dropCtxs]

@[simp] theorem State.dropPortTransfers_bytes (s : State) (job : Word) :
    (s.dropPortTransfers job).memory.bytes = s.memory.bytes := by
  simp [State.dropPortTransfers]

@[simp] theorem State.leaveBindings_bytes (s : State) (job : Word) : (s.leaveBindings job).memory.bytes = s.memory.bytes := by
  simp [State.leaveBindings]

@[simp] theorem State.tagDents_bytes (s : State) (a : Alternative) : (s.tagDents a).memory.bytes = s.memory.bytes := by
  simp [State.tagDents]

@[simp] theorem State.dropPhraseJob_bytes (s : State) (j : Job) (st : Status) :
    (s.dropPhraseJob j st).memory.bytes = s.memory.bytes := by
  simp [State.dropPhraseJob]

@[simp] theorem State.endOne_bytes (s : State) (id : Word) (st : Status) : (s.endOne id st).memory.bytes = s.memory.bytes := by
  unfold State.endOne
  split <;> simp

@[simp] theorem State.endJob_bytes (s : State) (id : Word) (st : Status) : (s.endJob id st).memory.bytes = s.memory.bytes := by
  simp [State.endJob]

@[simp] theorem State.settleJob_bytes (s : State) (id : Word) : (s.settleJob id).memory.bytes = s.memory.bytes := by
  unfold State.settleJob
  split <;> simp

@[simp] theorem State.stopJob_bytes (s : State) (id : Word) (st : Status) :
    (s.stopJob id st).memory.bytes = s.memory.bytes := by
  unfold State.stopJob
  split <;> simp

@[simp] theorem State.stopCard_bytes (s : State) (c : Ctx) (e : Engine) (card : Nat) (st : Status) :
    (s.stopCard c e card st).memory.bytes = s.memory.bytes := by
  unfold State.stopCard
  split <;> simp

@[simp] theorem State.stopEnds_bytes (s : State) (ends : List BindEnd) (st : Status) :
    (s.stopEnds ends st).memory.bytes = s.memory.bytes := by
  simp [State.stopEnds]

@[simp] theorem State.finishPosition_bytes (s : State) (job : Word) (pos : Nat) :
    (s.finishPosition job pos).memory.bytes = s.memory.bytes := by
  unfold State.finishPosition
  dsimp only
  split <;> simp

/-! ### Settings -/

@[simp] theorem State.restoreSettings_bytes (s : State) : s.restoreSettings.memory.bytes = s.memory.bytes := by
  simp [State.restoreSettings]

@[simp] theorem State.wakeSettings_bytes (s : State) : s.wakeSettings.memory.bytes = s.memory.bytes := by
  simp [State.wakeSettings]

/-! ### Transitions of power -/

@[simp] theorem State.requestRail_bytes (s : State) (rail : Rail) (mv : Nat) :
    (s.requestRail rail mv).memory.bytes = s.memory.bytes := by
  simp [State.requestRail]

@[simp] theorem State.steerVcore_bytes (s : State) : s.steerVcore.memory.bytes = s.memory.bytes := by
  simp [State.steerVcore]

@[simp] theorem State.powerEvent_bytes (s : State) (reached fromState : PowerState) (cause : Nat) :
    (s.powerEvent reached fromState cause).memory.bytes = s.memory.bytes := by
  simp [State.powerEvent]

@[simp] theorem State.stopForEntry_bytes (s : State) (idle : Bool) : (s.stopForEntry idle).memory.bytes = s.memory.bytes := by
  simp [State.stopForEntry]

@[simp] theorem State.restartAfter_bytes (s : State) : s.restartAfter.memory.bytes = s.memory.bytes := by
  simp [State.restartAfter]

@[simp] theorem State.loseForDeepSleep_bytes (s : State) : s.loseForDeepSleep.memory.bytes = s.memory.bytes := by
  simp [State.loseForDeepSleep]

@[simp] theorem State.actOn_bytes (s : State) (d action : Nat) : (s.actOn d action).memory.bytes = s.memory.bytes := by
  unfold State.actOn
  split <;> simp

@[simp] theorem State.beforeStep_bytes (s : State) (doms : List Nat) (action : Nat) :
    (s.beforeStep doms action).memory.bytes = s.memory.bytes := by
  simp [State.beforeStep]

@[simp] theorem State.wakeFields_bytes (s : State) : s.wakeFields.memory.bytes = s.memory.bytes := by
  simp [State.wakeFields]

@[simp] theorem State.completeReturn_bytes (s : State) (t : Transition) :
    (s.completeReturn t).memory.bytes = s.memory.bytes := by
  simp [State.completeReturn]

@[simp] theorem State.completeEntry_bytes (s : State) (t : Transition) : (s.completeEntry t).memory.bytes = s.memory.bytes := by
  simp [State.completeEntry]

@[simp] theorem State.advance_bytes (n : Nat) (s : State) : (State.advance n s).memory.bytes = s.memory.bytes := by
  induction n generalizing s with
  | zero => rfl
  | succ n ih =>
    unfold State.advance
    split
    · rfl
    · dsimp only
      split
      · simp [ih]
      · split
        · split <;> simp [ih]
        · simp [ih]

@[simp] theorem State.acceptEntry_bytes (s : State) (target : PowerState) :
    (s.acceptEntry target).memory.bytes = s.memory.bytes := by
  simp [State.acceptEntry]

@[simp] theorem State.beginEntry_bytes (s : State) : s.beginEntry.memory.bytes = s.memory.bytes := by
  unfold State.beginEntry
  split <;> simp

@[simp] theorem State.startEntry_bytes (s : State) (target : PowerState) (cause : Byte) (replies : List Nat) :
    (s.startEntry target cause replies).memory.bytes = s.memory.bytes := by
  simp [State.startEntry]

@[simp] theorem State.replied_bytes (s : State) (gone : Nat → Bool) : (s.replied gone).memory.bytes = s.memory.bytes := by
  unfold State.replied
  split <;> simp

@[simp] theorem State.wake_bytes (s : State) (cause : Byte) : (s.wake cause).memory.bytes = s.memory.bytes := by
  unfold State.wake
  (repeat' split) <;> simp

@[simp] theorem State.reported_bytes (s : State) (d : Nat) : (s.reported d).memory.bytes = s.memory.bytes := by
  unfold State.reported
  split <;> simp

end Sys2Proof.Machine
end


section
/-!
PROOF. What leaves the bytes of the memories: the packet layer, transfers, residence, jobs, Shuttles, power and faults, for O52.
-/
namespace Sys2Proof.Machine

open Sys2Proof Sys2Proof.Safety

/-! ### The packet layer -/

@[simp] theorem State.rejectNow_bytes (s : State) (opcode : Nat) (h : Hdr) (status : Status) (params : List Byte) :
    (s.rejectNow opcode h status params).memory.bytes = s.memory.bytes := by
  simp [State.rejectNow]

@[simp] theorem State.endAssembly_bytes (s : State) (opcode : Nat) (h : Hdr) :
    (s.endAssembly opcode h).memory.bytes = s.memory.bytes := by
  simp [State.endAssembly]

@[simp] theorem State.duplicate_bytes (s : State) (h : Hdr) : (s.duplicate h).memory.bytes = s.memory.bytes := by
  unfold State.duplicate
  dsimp only
  split <;> simp

@[simp] theorem State.forwardTo_bytes (s : State) (opcode : Nat) (h : Hdr) (ps : List Byte) (more : Bool) (d : Nat) :
    (s.forwardTo opcode h ps more d).memory.bytes = s.memory.bytes := by
  simp [State.forwardTo]

@[simp] theorem State.unheard_bytes (s : State) (i : Iface) : (s.unheard i).memory.bytes = s.memory.bytes := by
  simp [State.unheard]

@[simp] theorem State.rejectRaw_bytes (s : State) (iface : Iface) (src : Endpoint) (b : List Byte) (st : Status) (ps : List
    Byte) : (s.rejectRaw iface src b st ps).memory.bytes = s.memory.bytes := by
  simp [State.rejectRaw]

/-! ### Transfers -/

@[simp] theorem State.flushTransfers_bytes (s : State) (job : Word) (pos : Nat) :
    (s.flushTransfers job pos).memory.bytes = s.memory.bytes := by
  simp [State.flushTransfers]

@[simp] theorem State.completeTransfer_bytes (s : State) (t : Transfer) :
    (s.completeTransfer t).memory.bytes = s.memory.bytes := by
  simp [State.completeTransfer]

@[simp] theorem State.mapTagged_bytes (s : State) (loom tag : Nat) (f : Transfer → Transfer) :
    (s.mapTagged loom tag f).memory.bytes = s.memory.bytes := by
  simp [State.mapTagged]

@[simp] theorem State.donePiece_bytes (s : State) (loom tag : Nat) : (s.donePiece loom tag).memory.bytes = s.memory.bytes := by
  unfold State.donePiece
  split <;> simp

@[simp] theorem State.issuePiece_bytes (s : State) (loom : Nat) : (s.issuePiece loom).memory.bytes = s.memory.bytes := by
  unfold State.issuePiece
  split <;> simp

@[simp] theorem State.deliver_bytes (s : State) (t : Transfer) (p : Piece) (a : Alternative) :
    (s.deliver t p a).memory.bytes = s.memory.bytes := by
  simp [State.deliver]

@[simp] theorem State.arriveAtPort_bytes (s : State) (t : Transfer) (p : Piece) (tag : Nat) (l : Loc) :
    (s.arriveAtPort t p tag l).memory.bytes = s.memory.bytes := by
  unfold State.arriveAtPort
  (repeat' split) <;> simp

@[simp] theorem State.pieceCorrected_bytes (s : State) (loom tag n : Nat) :
    (s.pieceCorrected loom tag n).memory.bytes = s.memory.bytes := by
  unfold State.pieceCorrected
  (repeat' split) <;> simp

@[simp] theorem State.abandonScale_bytes (s : State) (c : Ctx) : (s.abandonScale c).memory.bytes = s.memory.bytes := by
  unfold State.abandonScale
  dsimp only
  split
  · rfl
  · split <;> simp

@[simp] theorem State.saveCtx_bytes (s : State) (c : Ctx) : (s.saveCtx c).memory.bytes = s.memory.bytes := by
  unfold State.saveCtx
  dsimp only
  split <;> simp

/-! ### Start queue and residence -/

@[simp] theorem State.placeContexts_bytes (s : State) (j : Job) (a : Alternative) :
    (s.placeContexts j a).memory.bytes = s.memory.bytes := by
  simp [State.placeContexts]

@[simp] theorem State.reserve_bytes (s : State) : s.reserve.memory.bytes = s.memory.bytes := by
  unfold State.reserve
  dsimp only
  split
  · rfl
  · split <;> simp

theorem State.placeKnots_bytes {s t : State} {c : Ctx} (h : s.placeKnots c = some t) : t.memory.bytes = s.memory.bytes := by
  unfold State.placeKnots at h
  dsimp only at h
  split at h
  · cases h
    rfl
  · split at h
    · cases h
      simp
    · obtain ⟨r, halloc, rfl⟩ := Option.map_eq_some_iff.mp h
      simp [State.allocBlocks_bytes halloc]

theorem State.takeBlocks_bytes {n : Nat} {borrow : Bool} {s : State} {r : List (Nat × Nat) × State}
    (h : State.takeBlocks n borrow s = some r) : r.2.memory.bytes = s.memory.bytes := by
  induction n generalizing s r with
  | zero =>
    cases h
    rfl
  | succ n ih =>
    rw [State.takeBlocks] at h
    split at h
    · cases h
    · next _ b s1 hone =>
      obtain ⟨q, hrest, rfl⟩ := Option.map_eq_some_iff.mp h
      refine (ih hrest).trans ?_
      cases hown : s.allocBlock 0 with
      | some q =>
        rw [hown] at hone
        cases hone
        exact State.allocBlock_bytes hown
      | none =>
        rw [hown] at hone
        change (if _ then _ else _) = _ at hone
        split at hone
        · exact State.borrowBlock_bytes hone
        · cases hone

@[simp] theorem State.displace_bytes (s : State) (loom : Nat) (v : Ctx) :
    (s.displace loom v).memory.bytes = s.memory.bytes := by
  simp [State.displace]

@[simp] theorem State.giveUp_bytes (s : State) (unit : Bool) (t : Nat × Option (Word × Nat)) :
    (s.giveUp unit t).memory.bytes = s.memory.bytes := by
  unfold State.giveUp
  split <;> simp

@[simp] theorem State.settleRestore_bytes (s : State) (c : Ctx) : (s.settleRestore c).memory.bytes = s.memory.bytes := by
  simp [State.settleRestore]

/-- The blocks that an admission takes for what the contexts it displaces have to spill. -/

theorem State.takeBlocksFor_bytes {blocks : List ((Word × Nat) × Nat)} {borrow : Bool} {o : Option State} {s t : State}
    (ho : ∀ u, o = some u → u.memory.bytes = s.memory.bytes)
    (h : blocks.foldl (fun (acc : Option State) (b : (Word × Nat) × Nat) => acc.bind fun s =>
        (State.takeBlocks b.2 borrow s).map fun r =>
          r.2.mapCtx b.1.1 b.1.2 fun x => { x with blocks := x.blocks ++ r.1 }) o = some t) :
    t.memory.bytes = s.memory.bytes := by
  induction blocks generalizing o with
  | nil => exact ho t h
  | cons b blocks ih =>
    refine ih (fun u hu => ?_) h
    obtain ⟨v, hv, hu⟩ := Option.bind_eq_some_iff.mp hu
    obtain ⟨r, htake, rfl⟩ := Option.map_eq_some_iff.mp hu
    exact (State.takeBlocks_bytes htake).trans (ho v hv)

theorem State.admitCtx_bytes {s t : State} {loom : Nat} {c : Ctx} {victims : List Ctx} {held : Bool}
    (h : s.admitCtx loom c victims held = some t) : t.memory.bytes = s.memory.bytes := by
  unfold State.admitCtx at h
  dsimp only at h
  iterate 4
    split at h
    · cases h
  split at h
  · cases h
    simp
  · obtain ⟨slot, -, h⟩ := Option.bind_eq_some_iff.mp h
    obtain ⟨s1, hknots, h⟩ := Option.bind_eq_some_iff.mp h
    obtain ⟨s2, hblocks, rfl⟩ := Option.map_eq_some_iff.mp h
    have hs2 : s2.memory.bytes = s.memory.bytes :=
      (State.takeBlocksFor_bytes (fun u hu => by cases hu; rfl) hblocks).trans (State.placeKnots_bytes hknots)
    simp [hs2]

@[simp] theorem State.admitNext_bytes (s : State) (loom : Nat) : (s.admitNext loom).memory.bytes = s.memory.bytes := by
  unfold State.admitNext
  generalize hfound : List.findSome? _ _ = found
  cases found with
  | none => rfl
  | some t =>
    obtain ⟨c, -, hc⟩ := List.exists_of_findSome?_eq_some hfound
    obtain ⟨vs, -, hadmit⟩ := Option.bind_eq_some_iff.mp hc
    exact State.admitCtx_bytes hadmit

@[simp] theorem State.portStep_bytes (s : State) (loom : Nat) : (s.portStep loom).memory.bytes = s.memory.bytes := by
  unfold State.portStep
  split
  · rfl
  · dsimp only
    split
    · rfl
    · rw [State.refresh_bytes, State.elim_bytes fun c => by simp]
      simp

@[simp] theorem State.endSlice_bytes (s : State) (loom slot : Nat) : (s.endSlice loom slot).memory.bytes = s.memory.bytes := by
  unfold State.endSlice
  split
  · rfl
  · split
    · rfl
    · split
      · next c vs _ =>
        cases hadmit : s.admitCtx loom c vs true with
        | none => rfl
        | some t => exact State.admitCtx_bytes hadmit
      · simp

@[simp] theorem State.setBack_bytes (s : State) (c : Ctx) (knot : Option KnotSlot) :
    (s.setBack c knot).memory.bytes = s.memory.bytes := by
  simp [State.setBack]

@[simp] theorem State.backToKnot_bytes (s : State) (c : Ctx) : (s.backToKnot c).memory.bytes = s.memory.bytes := by
  unfold State.backToKnot
  (repeat' split) <;> simp

@[simp] theorem State.release_bytes (s : State) (loom : Nat) : (s.release loom).memory.bytes = s.memory.bytes := by
  unfold State.release
  split <;> simp

/-! ### Progress of jobs -/

@[simp] theorem State.feedLocal_bytes (s : State) (id : Word) (tokens : List Word) :
    (s.feedLocal id tokens).memory.bytes = s.memory.bytes := by
  simp [State.feedLocal]

@[simp] theorem State.feedSink_bytes (s : State) (j : Job) (tokens : List Word) :
    (s.feedSink j tokens).memory.bytes = s.memory.bytes := by
  simp [State.feedSink]

@[simp] theorem State.enterJob_bytes (s : State) (j : Job) : (s.enterJob j).memory.bytes = s.memory.bytes := by
  simp [State.enterJob]

@[simp] theorem State.cancelJob_bytes (s : State) (id : Word) : (s.cancelJob id).memory.bytes = s.memory.bytes := by
  unfold State.cancelJob
  (repeat' split) <;> simp

@[simp] theorem State.forgetJob_bytes (s : State) (j : Job) : (s.forgetJob j).memory.bytes = s.memory.bytes := by
  simp [State.forgetJob]

@[simp] theorem State.takeTokens_bytes (n : Nat) (id : Word) (s : State) :
    (State.takeTokens n id s).memory.bytes = s.memory.bytes := by
  induction n generalizing s with
  | zero => rfl
  | succ n ih =>
    unfold State.takeTokens
    split
    · rfl
    · split <;> simp [ih]

@[simp] theorem State.tokenRecord_bytes (s : State) (id : Word) : (s.tokenRecord id).memory.bytes = s.memory.bytes := by
  unfold State.tokenRecord
  split
  · rfl
  · split
    · rfl
    · dsimp only
      split
      · rw [State.elim_bytes fun c => by simp]
        simp
      · simp

@[simp] theorem State.startPhrase_bytes (s : State) (id : Word) : (s.startPhrase id).memory.bytes = s.memory.bytes := by
  unfold State.startPhrase
  (repeat' split) <;> simp

@[simp] theorem State.joinMember_bytes (s : State) (id : Word) : (s.joinMember id).memory.bytes = s.memory.bytes := by
  unfold State.joinMember
  split <;> simp

@[simp] theorem State.memberStep_bytes (s : State) (row : Word × Nat × Bool) (out : Word) :
    (s.memberStep row out).memory.bytes = s.memory.bytes := by
  unfold State.memberStep
  split <;> simp

@[simp] theorem State.endStep_bytes (s : State) (id : Word) : (s.endStep id).memory.bytes = s.memory.bytes := by
  unfold State.endStep
  split <;> simp

/-! ### Shuttles -/

@[simp] theorem State.frameRecord_bytes (s : State) (id : Word) : (s.frameRecord id).memory.bytes = s.memory.bytes := by
  unfold State.frameRecord
  (repeat' split) <;> simp

@[simp] theorem State.appliedEvent_bytes (s : State) (before after : Stream) :
    (s.appliedEvent before after).memory.bytes = s.memory.bytes := by
  unfold State.appliedEvent
  split <;> simp

theorem State.prepare_bytes {s t : State} {program : Word} {x : Candidate} (h : s.prepare program x = some t) :
    t.memory.bytes = s.memory.bytes := by
  unfold State.prepare at h
  split at h
  · cases h
  · split at h
    · cases h
      simp
    · dsimp only at h
      split at h
      · cases h
      · cases h
        simp

/-- The candidates of a batch prepared in turn. -/

theorem State.prepareAll_bytes (program : Word) (runs : List Candidate) (acc : State × List (Word × Bool)) :
    (runs.foldl (fun (s, ran) x =>
      match State.prepare s program x with
      | some s' => (s', ran ++ [(x.stream, x.companion)])
      | none => (s, ran)) acc).1.memory.bytes = acc.1.memory.bytes := by
  induction runs generalizing acc with
  | nil => rfl
  | cons x runs ih =>
    refine (ih _).trans ?_
    dsimp only
    split
    · next hprep => exact State.prepare_bytes hprep
    · rfl

@[simp] theorem State.startBatch_bytes (s : State) (c p : Nat) : (s.startBatch c p).memory.bytes = s.memory.bytes := by
  unfold State.startBatch
  split
  · rfl
  · dsimp only
    split
    · rfl
    · split
      · exact State.prepareAll_bytes ..
      · rw [State.mapShuttle_memory, State.mapCluster_memory]
        exact State.prepareAll_bytes ..

@[simp] theorem State.microOne_bytes (s : State) (p : Program) (weights : Mem) (m : Nat) (c : Card) (x : Word × Bool) :
    (s.microOne p weights m c x).memory.bytes = s.memory.bytes := by
  unfold State.microOne
  split <;> simp

@[simp] theorem State.microStep_bytes (s : State) (c p op : Nat) : (s.microStep c p op).memory.bytes = s.memory.bytes := by
  unfold State.microStep
  (repeat' split) <;> simp

@[simp] theorem State.endBatch_bytes (s : State) (c p : Nat) : (s.endBatch c p).memory.bytes = s.memory.bytes := by
  unfold State.endBatch
  (repeat' split) <;> simp

@[simp] theorem State.startMove_bytes (s : State) (id : Word) : (s.startMove id).memory.bytes = s.memory.bytes := by
  unfold State.startMove
  split <;> simp

@[simp] theorem State.closeStream_bytes (s : State) (id : Word) : (s.closeStream id).memory.bytes = s.memory.bytes := by
  unfold State.closeStream
  split <;> simp

@[simp] theorem State.loseStream_bytes (s : State) (t : Stream) : (s.loseStream t).memory.bytes = s.memory.bytes := by
  simp [State.loseStream]

@[simp] theorem State.arrive_bytes (s : State) (t : Stream) (k : Nat) : (s.arrive t k).memory.bytes = s.memory.bytes := by
  unfold State.arrive
  split
  · simp
  · dsimp only
    split
    · split <;> simp
    · simp

@[simp] theorem State.arriveIfChosen_bytes (s : State) (id : Word) : (s.arriveIfChosen id).memory.bytes = s.memory.bytes := by
  unfold State.arriveIfChosen
  (repeat' split) <;> simp

@[simp] theorem State.reloadStore_bytes (s : State) (c : Nat) : (s.reloadStore c).memory.bytes = s.memory.bytes := by
  simp [State.reloadStore]

@[simp] theorem State.loadProgram_bytes (s : State) (c : Nat) (program : Word) :
    (s.loadProgram c program).memory.bytes = s.memory.bytes := by
  simp [State.loadProgram]

/-! ### Events of power -/

@[simp] theorem State.cancelAll_bytes (s : State) : s.cancelAll.memory.bytes = s.memory.bytes := by
  simp [State.cancelAll]

@[simp] theorem State.enterState_bytes (s : State) (target : PowerState) (replies : List Nat) :
    (s.enterState target replies).memory.bytes = s.memory.bytes := by
  simp [State.enterState]

@[simp] theorem State.askedBy_bytes (s : State) (h : Hdr) (ps : List Byte) :
    (s.askedBy h ps).memory.bytes = s.memory.bytes := by
  simp [State.askedBy]

@[simp] theorem State.domainOff_bytes (s : State) (d : Nat) : (s.domainOff d).memory.bytes = s.memory.bytes := by
  simp [State.domainOff]

@[simp] theorem State.domainOnNow_bytes (s : State) (d : Nat) : (s.domainOnNow d).memory.bytes = s.memory.bytes := by
  simp [State.domainOnNow]

@[simp] theorem State.releasePads_bytes (s : State) (ds : List Nat) : (s.releasePads ds).memory.bytes = s.memory.bytes := by
  simp [State.releasePads]

@[simp] theorem State.closeCounters_bytes (s : State) (w : Sys2Proof.Window) :
    (s.closeCounters w).memory.bytes = s.memory.bytes := by
  simp [State.closeCounters]

@[simp] theorem State.rateChange_bytes (s : State) : s.rateChange.memory.bytes = s.memory.bytes := by
  unfold State.rateChange
  split <;> simp

@[simp] theorem State.retarget_bytes (s : State) : s.retarget.memory.bytes = s.memory.bytes := by
  simp [State.retarget]

@[simp] theorem State.policyEvent_bytes (s : State) : s.policyEvent.memory.bytes = s.memory.bytes := by
  simp [State.policyEvent]

@[simp] theorem State.govern_bytes (s : State) (draw : Nat) : (s.govern draw).memory.bytes = s.memory.bytes := by
  simp [State.govern]

@[simp] theorem State.excludeSensor_bytes (s : State) (n reason : Nat) :
    (s.excludeSensor n reason).memory.bytes = s.memory.bytes := by
  simp [State.excludeSensor]

@[simp] theorem State.convert_bytes (s : State) (c : Conversion) : (s.convert c).memory.bytes = s.memory.bytes := by
  simp [State.convert]

@[simp] theorem State.holdHot_bytes (s : State) : s.holdHot.memory.bytes = s.memory.bytes := by
  simp [State.holdHot]

@[simp] theorem State.setHot_bytes (s : State) : s.setHot.memory.bytes = s.memory.bytes := by
  simp [State.setHot]

@[simp] theorem State.tripOff_bytes (s : State) : s.tripOff.memory.bytes = s.memory.bytes := by
  simp [State.tripOff]

@[simp] theorem State.trip_bytes (s : State) (sensor : Nat) (tempC : Int) :
    (s.trip sensor tempC).memory.bytes = s.memory.bytes := by
  simp [State.trip]

@[simp] theorem State.coldReset_bytes (s : State) : s.coldReset.memory.bytes = s.memory.bytes := by
  simp [State.coldReset]

theorem State.supplyRecord_bytes {s t : State} {f : SupplyFault} (h : s.supplyRecord f = some t) :
    t.memory.bytes = s.memory.bytes := by
  cases f with
  | vcore mv =>
    change (if mv < 520 then _ else _) = _ at h
    split at h
    · cases h
      simp
    · cases h
  | pmbus page w =>
    cases h
    simp

@[simp] theorem State.retentionLost_bytes (s : State) : s.retentionLost.memory.bytes = s.memory.bytes := by
  simp [State.retentionLost]

@[simp] theorem State.dropRequest_bytes (s : State) (rail : Rail) : (s.dropRequest rail).memory.bytes = s.memory.bytes := by
  simp [State.dropRequest]

@[simp] theorem State.acknowledged_bytes (s : State) (r : RailRequest) : (s.acknowledged r).memory.bytes = s.memory.bytes := by
  simp [State.acknowledged]

@[simp] theorem State.unacknowledged_bytes (s : State) (r : RailRequest) :
    (s.unacknowledged r).memory.bytes = s.memory.bytes := by
  simp [State.unacknowledged]

@[simp] theorem State.wakeBusRead_bytes (s : State) : s.wakeBusRead.memory.bytes = s.memory.bytes := by
  unfold State.wakeBusRead
  split <;> simp

/-! ### Faults -/

@[simp] theorem State.replayCtx_bytes (s : State) (target : Nat) (c : Ctx) :
    (s.replayCtx target c).memory.bytes = s.memory.bytes := by
  simp [State.replayCtx]

@[simp] theorem State.isolate_bytes (s : State) (loom target : Nat) :
    (s.isolate loom target).memory.bytes = s.memory.bytes := by
  simp [State.isolate]

@[simp] theorem State.replayLoom_bytes (s : State) (loom target : Nat) :
    (s.replayLoom loom target).memory.bytes = s.memory.bytes := by
  simp [State.replayLoom]

@[simp] theorem State.loseDent_bytes (s : State) (loom dent : Nat) : (s.loseDent loom dent).memory.bytes = s.memory.bytes := by
  simp [State.loseDent]

@[simp] theorem State.mapDent_bytes (s : State) (loom dent spare : Nat) :
    (s.mapDent loom dent spare).memory.bytes = s.memory.bytes := by
  simp [State.mapDent]

@[simp] theorem State.failOver_bytes (s : State) (loom : Nat) : (s.failOver loom).memory.bytes = s.memory.bytes := by
  unfold State.failOver
  (repeat' split) <;> simp

@[simp] theorem State.retireLoom_bytes (s : State) (loom : Nat) (mech faults : Nat) :
    (s.retireLoom loom mech faults).memory.bytes = s.memory.bytes := by
  simp [State.retireLoom]

@[simp] theorem State.retireLane_bytes (s : State) (loom g : Nat) : (s.retireLane loom g).memory.bytes = s.memory.bytes := by
  simp [State.retireLane]

@[simp] theorem State.loomFault_bytes (s : State) (loom : Nat) (mech : Mechanism) (test : SelfTest) :
    (s.loomFault loom mech test).memory.bytes = s.memory.bytes := by
  unfold State.loomFault
  split <;> simp

theorem State.reread_bytes {s t : State} {id : Word} (h : s.reread id = some t) : t.memory.bytes = s.memory.bytes := by
  obtain ⟨x, -, hx⟩ := Option.bind_eq_some_iff.mp h
  obtain ⟨c, -, rfl⟩ := Option.map_eq_some_iff.mp hx
  simp

@[simp] theorem State.rerunOn_bytes (s : State) (c p q : Nat) (ids : List Word) :
    (s.rerunOn c p q ids).memory.bytes = s.memory.bytes := by
  unfold State.rerunOn
  dsimp only
  refine (State.foldl_bytes (fun s id => ?_) _ _).trans (by simp)
  split
  · simp
  · next hread => simp [State.reread_bytes hread]
  · rfl

@[simp] theorem State.replayedShuttle_bytes (s : State) (c p : Nat) (ids : List Word) :
    (s.replayedShuttle c p ids).memory.bytes = s.memory.bytes := by
  simp [State.replayedShuttle]

@[simp] theorem State.sendAway_bytes (s : State) (id : Word) (dest : Nat × Nat) :
    (s.sendAway id dest).memory.bytes = s.memory.bytes := by
  simp [State.sendAway]

@[simp] theorem State.scatter_bytes (s : State) (c p : Nat) (ids : List Word) :
    (s.scatter c p ids).memory.bytes = s.memory.bytes := by
  unfold State.scatter
  dsimp only
  rw [State.replayedShuttle_bytes]
  refine List.foldlRecOn (motive := fun acc : State × List Word => acc.1.memory.bytes = s.memory.bytes) ids _ rfl
    fun acc hacc id _ => ?_
  split
  · exact hacc
  · split <;> simp [hacc]

@[simp] theorem State.replaceShuttle_bytes (s : State) (c p : Nat) (ids : List Word) :
    (s.replaceShuttle c p ids).memory.bytes = s.memory.bytes := by
  unfold State.replaceShuttle
  dsimp only
  split
  · split <;> simp
  · simp

@[simp] theorem State.storeFault_bytes (s : State) (c p : Nat) : (s.storeFault c p).memory.bytes = s.memory.bytes := by
  simp [State.storeFault]

@[simp] theorem State.shuttleFault_bytes (s : State) (c p : Nat) (mech : Mechanism) (test : SelfTest) :
    (s.shuttleFault c p mech test).memory.bytes = s.memory.bytes := by
  simp [State.shuttleFault]

@[simp] theorem State.warmReset_bytes (s : State) : s.warmReset.memory.bytes = s.memory.bytes := by
  simp [State.warmReset]

@[simp] theorem State.soloFault_bytes (s : State) (u : SoloUnit) (mech : Mechanism) :
    (s.soloFault u mech).memory.bytes = s.memory.bytes := by
  simp [State.soloFault]

@[simp] theorem State.watchdog_bytes (s : State) (unit : WatchedUnit) : (s.watchdog unit).memory.bytes = s.memory.bytes := by
  unfold State.watchdog
  split <;> simp

@[simp] theorem State.wordLost_bytes (s : State) (u : FaultUnit) (offset : Nat) (job : Word) :
    (s.wordLost u offset job).memory.bytes = s.memory.bytes := by
  unfold State.wordLost
  split <;> simp

@[simp] theorem State.withhold_bytes (s : State) (q : Transfer × Piece) : (s.withhold q).memory.bytes = s.memory.bytes := by
  simp [State.withhold]

theorem State.wordRead_bytes {s t : State} {u : FaultUnit} {offset : Nat} {reader : Reader}
    (h : s.wordRead u offset reader = some t) : t.memory.bytes = s.memory.bytes := by
  cases reader with
  | context loom slot =>
    obtain ⟨c, -, rfl⟩ := Option.map_eq_some_iff.mp h
    simp
  | hotCopy id entry =>
    obtain ⟨m, -, hm⟩ := Option.bind_eq_some_iff.mp h
    split at hm
    · cases hm
      simp
    · cases hm
  | knotSlot job pos =>
    obtain ⟨c, -, hc⟩ := Option.bind_eq_some_iff.mp h
    split at hc
    · cases hc
      simp
    · cases hc
  | shuttleContext id =>
    obtain ⟨x, -, rfl⟩ := Option.map_eq_some_iff.mp h
    simp

@[simp] theorem State.badWord_bytes (s : State) (canopy : Bool) (unit : Nat) (offset : DWord) (reader : Reader) :
    (s.badWord canopy unit offset reader).memory.bytes = s.memory.bytes := by
  unfold State.badWord
  dsimp only
  rw [State.ite_bytes]
  generalize hread : State.wordRead _ _ _ _ = o
  cases o with
  | none => simp
  | some t => simp [State.wordRead_bytes hread]

end Sys2Proof.Machine
end


section
/-!
PROOF. What leaves the bytes of the memories: the host link, boots, audio, cards, Bark, system control and the ports, for O52.
-/
namespace Sys2Proof.Machine

open Sys2Proof Sys2Proof.Safety

/-! ### What the host link sends -/

@[simp] theorem State.linkEnqueue_bytes (s : State) : s.linkEnqueue.memory.bytes = s.memory.bytes := by
  simp [State.linkEnqueue]

@[simp] theorem State.linkSendOne_bytes (s : State) : s.linkSendOne.memory.bytes = s.memory.bytes := by
  unfold State.linkSendOne
  (repeat' split) <;> simp

@[simp] theorem State.linkSend_bytes (n : Nat) (s : State) : (State.linkSend n s).memory.bytes = s.memory.bytes := by
  induction n generalizing s with
  | zero => rfl
  | succ n ih => simp [State.linkSend, ih]

@[simp] theorem State.linkCatchUp_bytes (s : State) : s.linkCatchUp.memory.bytes = s.memory.bytes := by
  simp [State.linkCatchUp]

@[simp] theorem State.linkDrain_bytes (s : State) : s.linkDrain.memory.bytes = s.memory.bytes := by
  simp [State.linkDrain]

@[simp] theorem State.discard_bytes (s : State) (n : Nat) : (s.discard n).memory.bytes = s.memory.bytes := by
  simp [State.discard]

@[simp] theorem State.takeUnsecured_bytes (s : State) (f : FrameHead) : (s.takeUnsecured f).memory.bytes = s.memory.bytes := by
  simp [State.takeUnsecured]

@[simp] theorem State.takeHead_bytes (s : State) (f : FrameHead) : (s.takeHead f).memory.bytes = s.memory.bytes := by
  unfold State.takeHead
  (repeat' split) <;> simp

/-! ### Boots -/

@[simp] theorem State.advanceRollback_bytes (s : State) : s.advanceRollback.memory.bytes = s.memory.bytes := by
  simp [State.advanceRollback]

@[simp] theorem State.runFlashImage_bytes (s : State) : s.runFlashImage.memory.bytes = s.memory.bytes := by
  simp [State.runFlashImage]

@[simp] theorem State.bootFlash_bytes (s : State) : s.bootFlash.memory.bytes = s.memory.bytes := by
  unfold State.bootFlash
  split <;> simp

@[simp] theorem State.eraseSecrets_bytes (s : State) : s.eraseSecrets.memory.bytes = s.memory.bytes := by
  simp [State.eraseSecrets]

@[simp] theorem State.bootLink_bytes (s : State) (rate : Nat) (leader : Bool) :
    (s.bootLink rate leader).memory.bytes = s.memory.bytes := by
  simp [State.bootLink]

@[simp] theorem State.bootClocks_bytes (s : State) : s.bootClocks.memory.bytes = s.memory.bytes := by
  simp [State.bootClocks]

@[simp] theorem State.recordLanes_bytes (s : State) (f : BootFindings) : (s.recordLanes f).memory.bytes = s.memory.bytes := by
  simp [State.recordLanes]

@[simp] theorem State.startVoltage_bytes (s : State) : s.startVoltage.memory.bytes = s.memory.bytes := by
  simp [State.startVoltage]

@[simp] theorem State.warmState_bytes (s : State) : s.warmState.memory.bytes = s.memory.bytes := by
  simp [State.warmState]

@[simp] theorem State.warmLoom_bytes (s : State) (n : Nat) : (s.warmLoom n).memory.bytes = s.memory.bytes := by
  simp [State.warmLoom]

@[simp] theorem State.warmShuttle_bytes (s : State) (cp : Nat × Nat) : (s.warmShuttle cp).memory.bytes = s.memory.bytes := by
  simp [State.warmShuttle]

@[simp] theorem State.warmLane_bytes (s : State) (p : Nat × Nat) : (s.warmLane p).memory.bytes = s.memory.bytes := by
  simp [State.warmLane]

@[simp] theorem State.warmTest_bytes (s : State) (f : WarmFindings) : (s.warmTest f).memory.bytes = s.memory.bytes := by
  simp [State.warmTest]

@[simp] theorem State.warmImage_bytes (s : State) : s.warmImage.memory.bytes = s.memory.bytes := by
  unfold State.warmImage
  split <;> simp

@[simp] theorem State.warmBoot_bytes (s : State) (f : WarmFindings) : (s.warmBoot f).memory.bytes = s.memory.bytes := by
  simp [State.warmBoot]

@[simp] theorem State.leaveNetworkBoot_bytes (s : State) : s.leaveNetworkBoot.memory.bytes = s.memory.bytes := by
  simp [State.leaveNetworkBoot]

@[simp] theorem State.minute_bytes (s : State) : s.minute.memory.bytes = s.memory.bytes := by
  unfold State.minute
  dsimp only
  split <;> split <;> simp

/-! ### Egress -/

@[simp] theorem State.mapDest_bytes (s : State) (id : Word) (i : Nat) (f : Dest → Dest) :
    (s.mapDest id i f).memory.bytes = s.memory.bytes := by
  simp [State.mapDest]

@[simp] theorem State.sendTo_bytes (s : State) (t : Stream) (d : Dest) (i : Nat) (pkt : Output) :
    (s.sendTo t d i pkt).memory.bytes = s.memory.bytes := by
  simp [State.sendTo]

@[simp] theorem State.sendRtp_bytes (s : State) (t : Stream) (d : Rtp) (n : Nat) :
    (s.sendRtp t d n).memory.bytes = s.memory.bytes := by
  simp [State.sendRtp]

@[simp] theorem State.countWait_bytes (s : State) (id : Word) (n : Nat) : (s.countWait id n).memory.bytes = s.memory.bytes := by
  simp [State.countWait]

@[simp] theorem State.releaseOf_bytes (s : State) (t : Stream) (d : Rtp) : (s.releaseOf t d).memory.bytes = s.memory.bytes := by
  simp [State.releaseOf]

@[simp] theorem State.releaseInstant_bytes (s : State) (id : Word) : (s.releaseInstant id).memory.bytes = s.memory.bytes := by
  unfold State.releaseInstant
  dsimp only
  split
  · simp
  · split
    · simp
    · split
      · split <;> simp
      · simp

@[simp] theorem State.tallyDecision_bytes (s : State) (t : Stream) (threshold urgent : Nat) :
    (s.tallyDecision t threshold urgent).memory.bytes = s.memory.bytes := by
  unfold State.tallyDecision
  dsimp only
  split
  · simp
  · split <;> simp

@[simp] theorem State.evaluate_bytes (s : State) (t : Stream) : (s.evaluate t).memory.bytes = s.memory.bytes := by
  unfold State.evaluate
  split <;> simp

@[simp] theorem State.tallyReading_bytes (s : State) (id : Word) : (s.tallyReading id).memory.bytes = s.memory.bytes := by
  unfold State.tallyReading
  (repeat' split) <;> simp

/-! ### Reed ports -/

@[simp] theorem State.setRecord_bytes (s : State) (port record : Nat) (b : List Byte) :
    (s.setRecord port record b).memory.bytes = s.memory.bytes := by
  simp [State.setRecord]

@[simp] theorem State.stopPort_bytes (s : State) (code : Nat) : (s.stopPort code).memory.bytes = s.memory.bytes := by
  simp [State.stopPort]

@[simp] theorem State.lockInput_bytes (s : State) (n : Nat) : (s.lockInput n).memory.bytes = s.memory.bytes := by
  simp [State.lockInput]

@[simp] theorem State.unlockWclk_bytes (s : State) (n : Nat) : (s.unlockWclk n).memory.bytes = s.memory.bytes := by
  simp [State.unlockWclk]

@[simp] theorem State.rateMeasured_bytes (s : State) (port : Nat) (rate : BitVec 25) :
    (s.rateMeasured port rate).memory.bytes = s.memory.bytes := by
  simp [State.rateMeasured]

@[simp] theorem State.rateWindow_bytes (s : State) (port : Nat) (rate : BitVec 25) :
    (s.rateWindow port rate).memory.bytes = s.memory.bytes := by
  simp [State.rateWindow]

@[simp] theorem State.deliverFrame_bytes (s : State) (port : Nat) (f : BitVec 24 × Bool × BitVec 24 × Bool) :
    (s.deliverFrame port f).memory.bytes = s.memory.bytes := by
  simp [State.deliverFrame]

@[simp] theorem State.enterCrossing_bytes (s : State) (n : Nat) (f : BitVec 24 × Bool × BitVec 24 × Bool) :
    (s.enterCrossing n f).memory.bytes = s.memory.bytes := by
  simp [State.enterCrossing]

@[simp] theorem State.inputFrame_bytes (s : State) (n : Nat) (f : ReedFrame) :
    (s.inputFrame n f).memory.bytes = s.memory.bytes := by
  simp [State.inputFrame]

@[simp] theorem State.startTick_bytes (s : State) (code : Nat) : (s.startTick code).memory.bytes = s.memory.bytes := by
  simp [State.startTick]

@[simp] theorem State.dataStart_bytes (s : State) (code : Nat) : (s.dataStart code).memory.bytes = s.memory.bytes := by
  simp [State.dataStart]

@[simp] theorem State.takeRoutes_bytes (s : State) (outs : List Nat) : (s.takeRoutes outs).memory.bytes = s.memory.bytes := by
  simp [State.takeRoutes]

@[simp] theorem State.drive_bytes (s : State) (code : Nat) (frame : Output) :
    (s.drive code frame).memory.bytes = s.memory.bytes := by
  simp [State.drive]

@[simp] theorem State.sendFrame_bytes (s : State) (code : Nat) (taken : Word → Bool) :
    (s.sendFrame code taken).memory.bytes = s.memory.bytes := by
  simp [State.sendFrame]

@[simp] theorem State.repeatFrame_bytes (s : State) (code : Nat) : (s.repeatFrame code).memory.bytes = s.memory.bytes := by
  simp [State.repeatFrame]

@[simp] theorem State.dataFrame_bytes (s : State) (outs : List Nat) : (s.dataFrame outs).memory.bytes = s.memory.bytes := by
  simp [State.dataFrame]

@[simp] theorem State.silentFrame_bytes (s : State) (outs : List Nat) : (s.silentFrame outs).memory.bytes = s.memory.bytes := by
  simp [State.silentFrame]

@[simp] theorem State.outputTick_bytes (s : State) (code : Nat) : (s.outputTick code).memory.bytes = s.memory.bytes := by
  simp [State.outputTick]

/-! ### Carding -/

@[simp] theorem State.closeIngress_bytes (s : State) (g : Ingress) : (s.closeIngress g).memory.bytes = s.memory.bytes := by
  simp [State.closeIngress]

/-! ### Cards -/

@[simp] theorem State.runTransfer_bytes (kind : XferKind) (s : State) (c : Ctx) (card : Card) :
    (State.runTransfer kind s c card).memory.bytes = s.memory.bytes := by
  unfold State.runTransfer
  split <;> simp

@[simp] theorem State.runWait_bytes (e : Engine) (s : State) (c : Ctx) (card : Card) :
    (State.runWait e s c card).memory.bytes = s.memory.bytes := by
  unfold State.runWait
  split <;> simp

@[simp] theorem State.runSignal_bytes (e : Engine) (s : State) (c : Ctx) (card : Card) :
    (State.runSignal e s c card).memory.bytes = s.memory.bytes := by
  simp [State.runSignal]

@[simp] theorem State.runLoop_bytes (e : Engine) (s : State) (c : Ctx) (card : Card) :
    (State.runLoop e s c card).memory.bytes = s.memory.bytes := by
  simp [State.runLoop]

@[simp] theorem State.runEnd_bytes (e : Engine) (s : State) (c : Ctx) (card : Card) :
    (State.runEnd e s c card).memory.bytes = s.memory.bytes := by
  simp [State.runEnd]

@[simp] theorem State.runKnot_bytes (s : State) (c : Ctx) (card : Card) : (s.runKnot c card).memory.bytes = s.memory.bytes := by
  unfold State.runKnot
  split <;> simp

@[simp] theorem State.runHalt_bytes (e : Engine) (s : State) (c : Ctx) (card : Card) :
    (State.runHalt e s c card).memory.bytes = s.memory.bytes := by
  simp [State.runHalt]

@[simp] theorem State.finishExec_bytes (s : State) (c : Ctx) (card : Card) (o : CardOut) :
    (s.finishExec c card o).memory.bytes = s.memory.bytes := by
  simp [State.finishExec]

@[simp] theorem State.runExec_bytes (run : Card → CardIn → Except Status CardOut) (s : State) (c : Ctx) (card : Card) :
    (State.runExec run s c card).memory.bytes = s.memory.bytes := by
  unfold State.runExec
  (repeat' split) <;> simp

@[simp] theorem State.runKeyLoad_bytes (s : State) (c : Ctx) (card : Card) :
    (s.runKeyLoad c card).memory.bytes = s.memory.bytes := by
  unfold State.runKeyLoad
  (repeat' split) <;> simp

@[simp] theorem State.loadWindow_bytes (s : State) (card : Card) (regs : List ScaleReg) :
    (s.loadWindow card regs).memory.bytes = s.memory.bytes := by
  unfold State.loadWindow
  dsimp only
  split <;> simp

@[simp] theorem State.enterScale_bytes (s : State) (port : Nat) (c : Ctx) :
    (s.enterScale port c).memory.bytes = s.memory.bytes := by
  simp [State.enterScale]

@[simp] theorem State.runQstat_bytes (s : State) (c : Ctx) (card : Card) : (s.runQstat c card).memory.bytes = s.memory.bytes := by
  unfold State.runQstat
  dsimp only
  split
  · simp
  · split <;> simp

theorem State.finishNarrow_bytes {s s' : State} (hs : s'.memory.bytes = s.memory.bytes) (c : Ctx) (card : Card) (b : Binding)
    (regs : List ScaleReg) (replayed : Bool) (left : List BindEnd) :
    (s.finishNarrow c card b regs replayed s' left).memory.bytes = s.memory.bytes := by
  unfold State.finishNarrow
  simp [hs]

@[simp] theorem State.runNarrow_bytes (s : State) (c : Ctx) (card : Card) : (s.runNarrow c card).memory.bytes = s.memory.bytes := by
  unfold State.runNarrow
  dsimp only
  split
  · split
    · simp
    · split
      · simp
      · split
        · simp
        · split
          · rw [State.finishNarrow_bytes rfl]
            simp
          · split
            · simp
            · split
              · simp
              · next hplan =>
                rw [State.finishNarrow_bytes rfl]
                simp [State.enterPlan_bytes hplan]
  · simp

@[simp] theorem State.finishPeer_bytes (s : State) (c : Ctx) (card : Card) :
    (s.finishPeer c card).memory.bytes = s.memory.bytes := by
  simp [State.finishPeer]

@[simp] theorem State.runPeerSend_bytes (s : State) (c : Ctx) (card : Card) :
    (s.runPeerSend c card).memory.bytes = s.memory.bytes := by
  unfold State.runPeerSend
  dsimp only
  split
  · simp
  · split
    · simp
    · split
      · simp
      · split
        · simp
        · split
          · rfl
          · next hplan => simp [State.enterPlan_bytes hplan]

@[simp] theorem State.logBlock_bytes (s : State) (log : EndLog) (block : List Byte × List Byte) :
    (s.logBlock log block).2.memory.bytes = s.memory.bytes := by
  unfold State.logBlock
  dsimp only
  split
  · rfl
  · split
    · rfl
    · next halloc => exact State.allocBlocks_bytes halloc

/-! ### Bark -/

@[simp] theorem State.writeKeyStore_bytes (s : State) (k : KeyStore) : (s.writeKeyStore k).memory.bytes = s.memory.bytes := by
  simp [State.writeKeyStore]

@[simp] theorem State.installKey_bytes (s : State) (kind slot : Nat) (v : KeySlot) :
    (s.installKey kind slot v).memory.bytes = s.memory.bytes := by
  simp [State.installKey]

@[simp] theorem State.emptyDevice_bytes (s : State) : s.emptyDevice.memory.bytes = s.memory.bytes := by
  simp [State.emptyDevice]

@[simp] theorem State.setInstall_bytes (s : State) (i : Option Install) : (s.setInstall i).memory.bytes = s.memory.bytes := by
  simp [State.setInstall]

@[simp] theorem State.issueGrant_bytes (s : State) (level : Nat) (flags : Half) (notAfter : Word) (signer : List Byte) :
    (s.issueGrant level flags notAfter signer).memory.bytes = s.memory.bytes := by
  simp [State.issueGrant]

/-! ### Frames of the host link -/

@[simp] theorem State.answerFrame_bytes (s : State) (f : NetFrame) : (s.answerFrame f).memory.bytes = s.memory.bytes := by
  unfold State.answerFrame
  split <;> simp

@[simp] theorem State.configure_bytes (s : State) (f : DhcpFrame) : (s.configure f).memory.bytes = s.memory.bytes := by
  unfold State.configure
  split <;> simp

@[simp] theorem State.takeEapol_bytes (s : State) (bytes : List Byte) : (s.takeEapol bytes).memory.bytes = s.memory.bytes := by
  simp [State.takeEapol]

@[simp] theorem State.setIp_bytes (s : State) (f : IpFrag) (a : Option IpAssembly) :
    (s.setIp f a).memory.bytes = s.memory.bytes := by
  simp [State.setIp]

@[simp] theorem State.linkUpAt_bytes (s : State) (rate : BitVec 2) (leader lpi : Bool) :
    (s.linkUpAt rate leader lpi).memory.bytes = s.memory.bytes := by
  simp [State.linkUpAt]

/-! ### Settings images -/

@[simp] theorem State.commitSettings_bytes (s : State) : s.commitSettings.2.memory.bytes = s.memory.bytes := rfl

@[simp] theorem State.invalidateSettings_bytes (s : State) : s.invalidateSettings.memory.bytes = s.memory.bytes := by
  simp [State.invalidateSettings]

/-! ### System control -/

@[simp] theorem State.releaseStreams_bytes (s : State) (binding : Nat) :
    (s.releaseStreams binding).memory.bytes = s.memory.bytes := by
  simp [State.releaseStreams]

@[simp] theorem State.placeLink_bytes (s : State) (port : Nat) (t : LinkStream) :
    (s.placeLink port t).memory.bytes = s.memory.bytes := by
  simp [State.placeLink]

@[simp] theorem State.placeBinding_bytes (s : State) (b : Binding) : (s.placeBinding b).memory.bytes = s.memory.bytes := by
  simp [State.placeBinding]

@[simp] theorem State.dropBinding_bytes (s : State) (n : Nat) : (s.dropBinding n).memory.bytes = s.memory.bytes := by
  simp [State.dropBinding]

@[simp] theorem State.failBinding_bytes (s : State) (n : Nat) : (s.failBinding n).memory.bytes = s.memory.bytes := by
  unfold State.failBinding
  split <;> simp

@[simp] theorem State.moveEnd_bytes (s : State) (b : Binding) (i : Nat) (e : BindEnd) :
    (s.moveEnd b i e).memory.bytes = s.memory.bytes := by
  simp [State.moveEnd]

@[simp] theorem State.moveBinding_bytes (s : State) (b : Binding) : (s.moveBinding b).memory.bytes = s.memory.bytes := by
  simp [State.moveBinding]

@[simp] theorem State.installRoutes_bytes (s : State) (wires : List (Nat × Nat)) :
    (s.installRoutes wires).memory.bytes = s.memory.bytes := by
  simp [State.installRoutes]

@[simp] theorem State.noteDevice_bytes (before : List (Option (Nat × Nat))) (s : State) (d : Nat) :
    (State.noteDevice before s d).memory.bytes = s.memory.bytes := by
  simp [State.noteDevice]

@[simp] theorem State.recompute_bytes (s : State) (wires : List (Nat × Nat)) :
    (s.recompute wires).memory.bytes = s.memory.bytes := by
  simp [State.recompute]

@[simp] theorem State.wireChange_bytes (s : State) (device port : Nat) (up : Bool) :
    (s.wireChange device port up).memory.bytes = s.memory.bytes := by
  simp [State.wireChange]

@[simp] theorem State.portChanged_bytes (s : State) (n : Nat) : (s.portChanged n).memory.bytes = s.memory.bytes := by
  simp [State.portChanged]

@[simp] theorem State.rootGone_bytes (s : State) : s.rootGone.memory.bytes = s.memory.bytes := by
  simp [State.rootGone]

@[simp] theorem State.nameNeighbours_bytes (s : State) : s.nameNeighbours.memory.bytes = s.memory.bytes := by
  simp [State.nameNeighbours]

@[simp] theorem State.numbered_bytes (s : State) (d n : Nat) (wires : List (Nat × Nat)) :
    (s.numbered d n wires).memory.bytes = s.memory.bytes := by
  simp [State.numbered]

@[simp] theorem State.portsOff_bytes (s : State) (ports : List Nat) : (s.portsOff ports).memory.bytes = s.memory.bytes := by
  simp [State.portsOff]

@[simp] theorem State.sinkClosed_bytes (s : State) (device : Nat) (stream : Word) :
    (s.sinkClosed device stream).memory.bytes = s.memory.bytes := by
  simp [State.sinkClosed]

@[simp] theorem State.obey_bytes (s : State) (c : Control) : (s.obey c).memory.bytes = s.memory.bytes := by
  unfold State.obey
  (repeat' split) <;> simp

@[simp] theorem State.tellMisWired_bytes (ns : List (Nat × DWord)) (s : State) (l : FoundLink) :
    (State.tellMisWired ns s l).memory.bytes = s.memory.bytes := by
  simp [State.tellMisWired]

@[simp] theorem State.becomeRoot_bytes (s : State) (n : Nat) (wires : List (Nat × Nat)) :
    (s.becomeRoot n wires).memory.bytes = s.memory.bytes := by
  simp [State.becomeRoot]

@[simp] theorem State.setPhase_bytes (s : State) (d : Nat) (code : Byte) :
    (s.setPhase d code).memory.bytes = s.memory.bytes := by
  simp [State.setPhase]

@[simp] theorem State.bindNow_bytes (s : State) (b : Binding) : (s.bindNow b).memory.bytes = s.memory.bytes := by
  simp [State.bindNow]

/-! ### Selvage ports -/

@[simp] theorem State.takeAck_bytes (s : State) (n : Nat) (d : List Byte) : (s.takeAck n d).memory.bytes = s.memory.bytes := by
  simp [State.takeAck]

@[simp] theorem State.passOn_bytes (s : State) (n : Nat) (f : TxFlit) : (s.passOn n f).memory.bytes = s.memory.bytes := by
  unfold State.passOn
  dsimp only
  split <;> simp

@[simp] theorem State.takePayload_bytes (s : State) (n : Nat) (d : List Byte) :
    (s.takePayload n d).memory.bytes = s.memory.bytes := by
  simp [State.takePayload]

@[simp] theorem State.takeData_bytes (s : State) (n : Nat) (d : List Byte) :
    (s.takeData n d).memory.bytes = s.memory.bytes := by
  simp [State.takeData]

@[simp] theorem State.badFlit_bytes (s : State) (n : Nat) : (s.badFlit n).memory.bytes = s.memory.bytes := by
  simp [State.badFlit]

@[simp] theorem State.takeFlit_bytes (s : State) (n : Nat) (bytes : List Byte) :
    (s.takeFlit n bytes).memory.bytes = s.memory.bytes := by
  unfold State.takeFlit
  dsimp only
  split <;> simp

@[simp] theorem State.trained_bytes (s : State) (port : Nat) (t : Training) : (s.trained port t).memory.bytes = s.memory.bytes := by
  unfold State.trained
  dsimp only
  split <;> simp

@[simp] theorem State.untrained_bytes (s : State) (port : Nat) (lanes : Option (BitVec 8)) :
    (s.untrained port lanes).memory.bytes = s.memory.bytes := by
  simp [State.untrained]

@[simp] theorem State.identify_bytes (s : State) (port : Nat) : (s.identify port).memory.bytes = s.memory.bytes := by
  simp [State.identify]

@[simp] theorem State.ackBlock_bytes (s : State) (b : Binding) (i : Nat) (e : BindEnd) (seq : Word) :
    (s.ackBlock b i e seq).memory.bytes = s.memory.bytes := by
  simp [State.ackBlock]

@[simp] theorem State.resendFrom_bytes (s : State) (b : Binding) (e : BindEnd) (seq : Word) :
    (s.resendFrom b e seq).memory.bytes = s.memory.bytes := by
  simp [State.resendFrom]

@[simp] theorem State.recover_bytes (s : State) (port : Nat) (b : Binding) (e : BindEnd) (t : LinkStream) :
    (s.recover port b e t).memory.bytes = s.memory.bytes := by
  simp [State.recover]

@[simp] theorem State.pair_bytes (s : State) (port : Nat) (b : Binding) (e : BindEnd) (t : LinkStream) (block record : List
    Byte) : (s.pair port b e t block record).memory.bytes = s.memory.bytes := by
  simp [State.pair]

@[simp] theorem State.matchPair_bytes (s : State) (port : Nat) (lsid : Byte) :
    (s.matchPair port lsid).memory.bytes = s.memory.bytes := by
  unfold State.matchPair
  (repeat' split) <;> simp

@[simp] theorem State.ackAgain_bytes (s : State) (b : Binding) (e : BindEnd) (t : LinkStream) (seq : Word) :
    (s.ackAgain b e t seq).memory.bytes = s.memory.bytes := by
  simp [State.ackAgain]

@[simp] theorem State.takeRaw_bytes (s : State) (port : Nat) (b : Binding) (e : BindEnd) (t : LinkStream) (seq : Word) (body :
    List Byte) : (s.takeRaw port b e t seq body).memory.bytes = s.memory.bytes := by
  simp [State.takeRaw]

@[simp] theorem State.takeCoded_bytes (s : State) (port : Nat) (b : Binding) (e : BindEnd) (t : LinkStream) (isRecord : Bool)
    (tag : Byte) (seq : Word) (body : List Byte) : (s.takeCoded port b e t isRecord tag seq body).memory.bytes = s.memory.bytes
    := by
  simp [State.takeCoded]

@[simp] theorem State.badMessage_bytes (s : State) (n mtype dport : Nat) (lsid : Byte) (seq : Word) :
    (s.badMessage n mtype dport lsid seq).memory.bytes = s.memory.bytes := by
  unfold State.badMessage
  dsimp only
  split <;> simp

@[simp] theorem State.spread_bytes (s : State) (n : Nat) (src : Byte) (mtype sport : Nat) (lsid : Byte) (m : List Byte) :
    (s.spread n src mtype sport lsid m).memory.bytes = s.memory.bytes := by
  unfold State.spread
  split
  · rfl
  · dsimp only
    refine (State.foldl_bytes (fun s p => ?_) _ _).trans (by simp)
    split <;> simp

@[simp] theorem State.scaleAbandoned_bytes (s : State) (port : Nat) :
    (s.scaleAbandoned port).memory.bytes = s.memory.bytes := by
  unfold State.scaleAbandoned
  split <;> simp

/-! ### The block -/

@[simp] theorem State.idle_bytes (s : State) : s.idle.memory.bytes = s.memory.bytes := by
  simp [State.idle]

end Sys2Proof.Machine
end


section
/-!
PROOF. Commands that leave the bytes of the memories, for O52: each part checks its fields, and every answer is over the state
it was given, or over one that the operations above reach.
-/
namespace Sys2Proof.Machine

open Sys2Proof Sys2Proof.Safety

/-- An answer of a state keeps the bytes of its memories, and so does what follows the reply. -/
structure Answer.KeepsBytes (a : Answer) (s : State) : Prop where
  st : a.st.memory.bytes = s.memory.bytes
  post : ∀ t : State, (a.post t).memory.bytes = t.memory.bytes

@[simp] theorem Answer.mk_keepsBytes {status : Status} {ps : List Byte} {cx : Option Word} {rep : Bool} {t s : State}
    {post : State → State} :
    (Answer.mk status ps cx rep t post).KeepsBytes s ↔
      t.memory.bytes = s.memory.bytes ∧ ∀ u : State, (post u).memory.bytes = u.memory.bytes :=
  ⟨fun h => ⟨h.st, h.post⟩, fun h => ⟨h.1, h.2⟩⟩

@[simp] theorem ok_st (ps : List Byte) (s : State) : (ok ps s).st = s := rfl

@[simp] theorem ok_post (ps : List Byte) (s : State) : (ok ps s).post = id := rfl

@[simp] theorem answer_st (st : Status) (ps : List Byte) (s : State) : (answer st ps s).st = s := rfl

@[simp] theorem answer_post (st : Status) (ps : List Byte) (s : State) : (answer st ps s).post = id := rfl

theorem OnlyAnswers.keepsBytes {a : Answer} {s : State} (h : OnlyAnswers a s) : a.KeepsBytes s :=
  ⟨by rw [h.1], fun t => by rw [h.2]; rfl⟩

@[simp] theorem answer_keepsBytes {status : Status} {ps : List Byte} {t s : State} :
    (answer status ps t).KeepsBytes s ↔ t.memory.bytes = s.memory.bytes := by simp [answer]

@[simp] theorem ok_keepsBytes {ps : List Byte} {t s : State} : (ok ps t).KeepsBytes s ↔ t.memory.bytes = s.memory.bytes := by
  simp [ok]

@[simp] theorem failWith_keepsBytes {status : Status} {t s : State} :
    (failWith status t).KeepsBytes s ↔ t.memory.bytes = s.memory.bytes := by simp [failWith]

@[simp] theorem badParam_keepsBytes {off : Nat} {t s : State} :
    (badParam off t).KeepsBytes s ↔ t.memory.bytes = s.memory.bytes := by simp [badParam]

@[simp] theorem badLengthAt_keepsBytes {off : Nat} {t s : State} :
    (badLengthAt off t).KeepsBytes s ↔ t.memory.bytes = s.memory.bytes := by simp [badLengthAt]

@[simp] theorem badLength_keepsBytes {t s : State} : (badLength t).KeepsBytes s ↔ t.memory.bytes = s.memory.bytes := by
  simp [badLength]

@[simp] theorem Answer.ite_keepsBytes {c : Prop} [Decidable c] {a b : Answer} {s : State} :
    (if c then a else b).KeepsBytes s ↔ if c then a.KeepsBytes s else b.KeepsBytes s := by split <;> rfl

@[simp] theorem State.withStream_keepsBytes {s : State} {h : Hdr} {k : Stream → Answer} (hk : ∀ t, (k t).KeepsBytes s) :
    (s.withStream h k).KeepsBytes s := by
  unfold State.withStream
  split
  · exact hk _
  · simp

@[simp] theorem State.withIngress_keepsBytes {s : State} {h : Hdr} {k : Ingress → Answer} (hk : ∀ t, (k t).KeepsBytes s) :
    (s.withIngress h k).KeepsBytes s := by
  unfold State.withIngress
  split
  · exact hk _
  · simp

/-! ### The parts of the commands -/

@[simp] theorem helloBody_keepsBytes (h : Hdr) (ps : List Byte) (s : State) : (helloBody h ps s).KeepsBytes s := by
  unfold helloBody
  (repeat' split) <;> simp

@[simp] theorem identifyBody_keepsBytes (ps : List Byte) (s : State) : (identifyBody ps s).KeepsBytes s :=
  (identifyBody_onlyAnswers ..).keepsBytes

@[simp] theorem pingBody_keepsBytes (ps : List Byte) (s : State) : (pingBody ps s).KeepsBytes s :=
  (pingBody_onlyAnswers ..).keepsBytes

@[simp] theorem statusBody_keepsBytes (ps : List Byte) (s : State) : (statusBody ps s).KeepsBytes s :=
  (statusBody_onlyAnswers ..).keepsBytes

@[simp] theorem resetBody_keepsBytes (ps : List Byte) (s : State) : (resetBody ps s).KeepsBytes s := by
  unfold resetBody
  (repeat' split) <;> simp

@[simp] theorem paceReadBody_keepsBytes (ps : List Byte) (s : State) : (paceReadBody ps s).KeepsBytes s := by
  unfold paceReadBody
  dsimp only
  (repeat' split) <;> simp

@[simp] theorem jobSubmitBody_keepsBytes (h : Hdr) (ps : List Byte) (s : State) : (jobSubmitBody h ps s).KeepsBytes s := by
  simp only [jobSubmitBody, Answer.ite_keepsBytes, badLength_keepsBytes]
  split
  · trivial
  · split
    · simp
    · simp only [Answer.ite_keepsBytes, failWith_keepsBytes, if_true_left]
      intros
      split
      · simp
      · next halloc => simp [State.allocBlocks_bytes halloc]

@[simp] theorem jobCancelBody_keepsBytes (h : Hdr) (ps : List Byte) (s : State) : (jobCancelBody h ps s).KeepsBytes s := by
  unfold jobCancelBody
  (repeat' split) <;> simp

@[simp] theorem jobStatusBody_keepsBytes (h : Hdr) (ps : List Byte) (s : State) : (jobStatusBody h ps s).KeepsBytes s :=
  (jobStatusBody_onlyAnswers ..).keepsBytes

@[simp] theorem resultFetchBody_keepsBytes (h : Hdr) (ps : List Byte) (s : State) : (resultFetchBody h ps s).KeepsBytes s := by
  unfold resultFetchBody
  (repeat' split) <;> simp

@[simp] theorem resultReleaseBody_keepsBytes (h : Hdr) (ps : List Byte) (s : State) :
    (resultReleaseBody h ps s).KeepsBytes s := by
  unfold resultReleaseBody
  (repeat' split) <;> simp

@[simp] theorem sharesSetBody_keepsBytes (ps : List Byte) (s : State) : (sharesSetBody ps s).KeepsBytes s := by
  unfold sharesSetBody
  dsimp only
  (repeat' split) <;> simp

@[simp] theorem accountReadBody_keepsBytes (ps : List Byte) (s : State) : (accountReadBody ps s).KeepsBytes s := by
  unfold accountReadBody
  dsimp only
  (repeat' split) <;> simp

@[simp] theorem modelOpen_keepsBytes (ps : List Byte) (s : State) : (modelOpen ps s).KeepsBytes s := by
  cases hlen : ps.length != 24 with
  | true => simp [modelOpen, hlen]
  | false =>
    simp only [modelOpen, hlen]
    generalize firstBad [_, _, _, _, _, _] = bad
    cases bad with
    | some off => simp
    | none =>
      simp only [Bool.false_eq_true, if_false]
      split
      · split
        · simp
        · split <;> simp
      · split
        · simp
        · split <;> simp

@[simp] theorem modelVerifyBody_keepsBytes (ps : List Byte) (s : State) : (modelVerifyBody ps s).KeepsBytes s := by
  unfold modelVerifyBody
  dsimp only
  (repeat' split) <;> simp

@[simp] theorem modelUnloadBody_keepsBytes (ps : List Byte) (s : State) : (modelUnloadBody ps s).KeepsBytes s := by
  unfold modelUnloadBody
  dsimp only
  (repeat' split) <;> simp

@[simp] theorem memReadBody_keepsBytes (ps : List Byte) (s : State) : (memReadBody ps s).KeepsBytes s :=
  (memReadBody_onlyAnswers ..).keepsBytes

@[simp] theorem deckLoadBody_keepsBytes (ps : List Byte) (s : State) : (deckLoadBody ps s).KeepsBytes s := by
  unfold deckLoadBody
  dsimp only
  (repeat' split) <;> simp

@[simp] theorem deckUnloadBody_keepsBytes (h : Hdr) (ps : List Byte) (s : State) : (deckUnloadBody h ps s).KeepsBytes s := by
  simp [deckUnloadBody]

@[simp] theorem powerStateBody_keepsBytes (h : Hdr) (ps : List Byte) (s : State) : (powerStateBody h ps s).KeepsBytes s := by
  unfold powerStateBody
  (repeat' split) <;> simp

@[simp] theorem domainCtrlBody_keepsBytes (ps : List Byte) (s : State) : (domainCtrlBody ps s).KeepsBytes s := by
  unfold domainCtrlBody
  dsimp only
  (repeat' split) <;> simp

@[simp] theorem padReleaseBody_keepsBytes (ps : List Byte) (s : State) : (padReleaseBody ps s).KeepsBytes s := by
  unfold padReleaseBody
  dsimp only
  (repeat' split) <;> simp

@[simp] theorem voltagePolicyBody_keepsBytes (ps : List Byte) (s : State) : (voltagePolicyBody ps s).KeepsBytes s := by
  unfold voltagePolicyBody
  dsimp only
  (repeat' split) <;> simp

@[simp] theorem powerCeilingBody_keepsBytes (ps : List Byte) (s : State) : (powerCeilingBody ps s).KeepsBytes s := by
  unfold powerCeilingBody
  dsimp only
  (repeat' split) <;> simp

@[simp] theorem streamOpenBody_keepsBytes (ps : List Byte) (s : State) : (streamOpenBody ps s).KeepsBytes s := by
  unfold streamOpenBody
  dsimp only
  iterate 6
    split
    · simp
  split
  · simp
  · next halloc =>
    have hsave := State.allocSave_bytes halloc
    split <;> simp_all

@[simp] theorem streamFeedBody_keepsBytes (h : Hdr) (ps : List Byte) (s : State) : (streamFeedBody h ps s).KeepsBytes s := by
  unfold streamFeedBody
  dsimp only
  (repeat' split) <;> simp

@[simp] theorem streamMarkBody_keepsBytes (h : Hdr) (ps : List Byte) (s : State) : (streamMarkBody h ps s).KeepsBytes s := by
  unfold streamMarkBody
  (repeat' split) <;> simp

@[simp] theorem streamCloseBody_keepsBytes (h : Hdr) (ps : List Byte) (s : State) : (streamCloseBody h ps s).KeepsBytes s := by
  simp [streamCloseBody]

theorem State.routeAsked_keepsBytes {s : State} {t : Stream} {ps : List Byte} {a : Answer} (h : s.routeAsked t ps = .error a) :
    a.KeepsBytes s := by
  unfold State.routeAsked at h
  dsimp only at h
  split at h
  · split at h
    · cases h
      simp
    · split at h
      · cases h
        simp
      · cases h
  · split at h
    · cases h
      simp
    · split at h
      · cases h
        simp
      · split at h
        · cases h
          simp
        · cases h
  · split at h
    · cases h
    · cases h
      simp

theorem State.moveAsked_keepsBytes {s : State} {t : Stream} {ps : List Byte} {a : Answer} (h : s.moveAsked t ps = .error a) :
    a.KeepsBytes s := by
  unfold State.moveAsked at h
  dsimp only at h
  split at h
  · cases h
    simp
  · split at h
    · cases h
    · split at h
      · cases h
        simp
      · cases h

@[simp] theorem streamRouteBody_keepsBytes (h : Hdr) (ps : List Byte) (s : State) : (streamRouteBody h ps s).KeepsBytes s := by
  unfold streamRouteBody
  dsimp only
  have hrun : (s.withStream h fun t =>
        match s.routeAsked t ps, s.moveAsked t ps with
        | .error a, _ => a
        | _, .error a => a
        | .ok r, .ok d =>
          ok [] (s.mapStream t.id fun t =>
            let t := r.elim t t.route
            d.elim t fun d => { t with moveTo := some d })).KeepsBytes s := by
    refine State.withStream_keepsBytes fun t => ?_
    split
    · next hroute => exact State.routeAsked_keepsBytes hroute
    · next hmove _ => exact State.moveAsked_keepsBytes hmove
    · simp
  generalize firstBad _ = bad
  generalize (decide (ps.length < 28) || _) = short
  cases short with
  | true => simp
  | false =>
    cases bad with
    | some off => simp
    | none => exact hrun

@[simp] theorem streamFallbackBody_keepsBytes (h : Hdr) (ps : List Byte) (s : State) :
    (streamFallbackBody h ps s).KeepsBytes s := by
  unfold streamFallbackBody
  dsimp only
  (repeat' split) <;> simp

@[simp] theorem streamStatusBody_keepsBytes (h : Hdr) (ps : List Byte) (s : State) : (streamStatusBody h ps s).KeepsBytes s :=
  (streamStatusBody_onlyAnswers ..).keepsBytes

@[simp] theorem portConfigBody_keepsBytes (ps : List Byte) (s : State) : (portConfigBody ps s).KeepsBytes s := by
  unfold portConfigBody
  dsimp only
  (repeat' split) <;> simp

@[simp] theorem portStartBody_keepsBytes (ps : List Byte) (s : State) : (portStartBody ps s).KeepsBytes s := by
  simp [portStartBody]

@[simp] theorem portStopBody_keepsBytes (ps : List Byte) (s : State) : (portStopBody ps s).KeepsBytes s := by
  simp [portStopBody]

@[simp] theorem portStatusBody_keepsBytes (ps : List Byte) (s : State) : (portStatusBody ps s).KeepsBytes s :=
  (portStatusBody_onlyAnswers ..).keepsBytes

@[simp] theorem cardOpen_keepsBytes (ps : List Byte) (s : State) : (cardOpen ps s).KeepsBytes s := by
  unfold cardOpen
  dsimp only
  iterate 4
    split
    · simp
  split
  · simp
  · next halloc => simp [State.allocSave_bytes halloc]

@[simp] theorem cardConfigBody_keepsBytes (h : Hdr) (ps : List Byte) (s : State) : (cardConfigBody h ps s).KeepsBytes s := by
  unfold cardConfigBody
  (repeat' split) <;> simp

@[simp] theorem cardGainBody_keepsBytes (h : Hdr) (ps : List Byte) (s : State) : (cardGainBody h ps s).KeepsBytes s := by
  unfold cardGainBody
  dsimp only
  (repeat' split) <;> simp

@[simp] theorem cardTapBody_keepsBytes (h : Hdr) (ps : List Byte) (s : State) : (cardTapBody h ps s).KeepsBytes s := by
  unfold cardTapBody
  dsimp only
  (repeat' split) <;> simp

@[simp] theorem cardStatsBody_keepsBytes (h : Hdr) (ps : List Byte) (s : State) : (cardStatsBody h ps s).KeepsBytes s :=
  (cardStatsBody_onlyAnswers ..).keepsBytes

@[simp] theorem attestBody_keepsBytes (ps : List Byte) (s : State) : (attestBody ps s).KeepsBytes s := by
  simp [attestBody]

@[simp] theorem keyInstallBody_keepsBytes (ps : List Byte) (s : State) : (keyInstallBody ps s).KeepsBytes s := by
  unfold keyInstallBody
  dsimp only
  (repeat' split) <;> simp

@[simp] theorem fwManifest_keepsBytes (h : Hdr) (ps : List Byte) (s : State) : (fwManifest h ps s).KeepsBytes s := by
  unfold fwManifest
  dsimp only
  (repeat' split) <;> simp

@[simp] theorem fwChunk_keepsBytes (h : Hdr) (ps : List Byte) (s : State) : (fwChunk h ps s).KeepsBytes s := by
  unfold fwChunk
  dsimp only
  (repeat' split) <;> simp

@[simp] theorem fwFinish_keepsBytes (h : Hdr) (ps : List Byte) (s : State) : (fwFinish h ps s).KeepsBytes s := by
  unfold fwFinish
  (repeat' split) <;> simp

@[simp] theorem fwRead_keepsBytes (ps : List Byte) (s : State) : (fwRead ps s).KeepsBytes s :=
  (fwRead_onlyAnswers ..).keepsBytes

@[simp] theorem fwInstallBody_keepsBytes (h : Hdr) (ps : List Byte) (s : State) : (fwInstallBody h ps s).KeepsBytes s := by
  unfold fwInstallBody
  (repeat' split) <;> simp

@[simp] theorem modelKeyBody_keepsBytes (ps : List Byte) (s : State) : (modelKeyBody ps s).KeepsBytes s := by
  unfold modelKeyBody
  dsimp only
  (repeat' split) <;> simp

@[simp] theorem debugUnlockBody_keepsBytes (ps : List Byte) (s : State) : (debugUnlockBody ps s).KeepsBytes s := by
  unfold debugUnlockBody
  dsimp only
  (repeat' split) <;> simp

@[simp] theorem debugLockBody_keepsBytes (ps : List Byte) (s : State) : (debugLockBody ps s).KeepsBytes s := by
  simp [debugLockBody]

@[simp] theorem traceCtrlBody_keepsBytes (ps : List Byte) (s : State) : (traceCtrlBody ps s).KeepsBytes s := by
  unfold traceCtrlBody
  dsimp only
  (repeat' split) <;> simp

@[simp] theorem loomHaltBody_keepsBytes (ps : List Byte) (s : State) : (loomHaltBody ps s).KeepsBytes s := by
  unfold loomHaltBody
  dsimp only
  (repeat' split) <;> simp

@[simp] theorem ringInfoBody_keepsBytes (ps : List Byte) (s : State) : (ringInfoBody ps s).KeepsBytes s :=
  (ringInfoBody_onlyAnswers ..).keepsBytes

@[simp] theorem ringReadBody_keepsBytes (ps : List Byte) (s : State) : (ringReadBody ps s).KeepsBytes s :=
  (ringReadBody_onlyAnswers ..).keepsBytes

@[simp] theorem tableWriteBody_keepsBytes (ps : List Byte) (s : State) : (tableWriteBody ps s).KeepsBytes s := by
  unfold tableWriteBody
  dsimp only
  (repeat' split) <;> simp

@[simp] theorem tableReadBody_keepsBytes (ps : List Byte) (s : State) : (tableReadBody ps s).KeepsBytes s :=
  (tableReadBody_onlyAnswers ..).keepsBytes

@[simp] theorem settingsCommitBody_keepsBytes (ps : List Byte) (s : State) : (settingsCommitBody ps s).KeepsBytes s := by
  unfold settingsCommitBody
  (repeat' split) <;> simp

@[simp] theorem settingsReadBody_keepsBytes (ps : List Byte) (s : State) : (settingsReadBody ps s).KeepsBytes s :=
  (settingsReadBody_onlyAnswers ..).keepsBytes

@[simp] theorem sysEnumerateBody_keepsBytes (h : Hdr) (ps : List Byte) (s : State) :
    (sysEnumerateBody h ps s).KeepsBytes s := by
  unfold sysEnumerateBody
  dsimp only
  split
  · simp
  · split
    · simp
    · split
      · simp
      · split <;> simp

@[simp] theorem sysPhaseAssignBody_keepsBytes (h : Hdr) (ps : List Byte) (s : State) :
    (sysPhaseAssignBody h ps s).KeepsBytes s := by
  unfold sysPhaseAssignBody
  dsimp only
  (repeat' split) <;> simp

@[simp] theorem sysBind_keepsBytes (ps : List Byte) (s : State) : (sysBind ps s).KeepsBytes s := by
  unfold sysBind
  dsimp only
  (repeat' split) <;> simp

@[simp] theorem sysUnbind_keepsBytes (ps : List Byte) (s : State) : (sysUnbind ps s).KeepsBytes s := by
  unfold sysUnbind
  dsimp only
  split <;> simp

@[simp] theorem sysRouteBody_keepsBytes (h : Hdr) (ps : List Byte) (s : State) : (sysRouteBody h ps s).KeepsBytes s := by
  unfold sysRouteBody
  (repeat' split) <;> simp

@[simp] theorem linkStatusBody_keepsBytes (ps : List Byte) (s : State) : (linkStatusBody ps s).KeepsBytes s := by
  unfold linkStatusBody
  dsimp only
  split
  · simp
  · split
    · simp
    · simp

end Sys2Proof.Machine
end


section
/-!
PROOF. The operations that write memory keep it canonical, for O52: each writes by `Mem.write`, or leaves the memories empty.
-/
namespace Sys2Proof.Safety

open Sys2Proof Sys2Proof.Machine

/-- A state with the same bytes in its memories has them canonical too. -/
theorem MemoryCanonical.of_bytes {s t : State} (hs : MemoryCanonical s) (h : t.memory.bytes = s.memory.bytes) :
    MemoryCanonical t := by
  obtain ⟨hv, he⟩ := Prod.mk.inj h
  unfold MemoryCanonical
  rw [hv, he]
  exact hs

end Sys2Proof.Safety

namespace Sys2Proof.Machine

open Sys2Proof Sys2Proof.Safety

theorem State.foldl_canonical {α : Type} {f : State → α → State} (hf : ∀ s a, MemoryCanonical s → MemoryCanonical (f s a))
    (l : List α) {s : State} (hs : MemoryCanonical s) : MemoryCanonical (l.foldl f s) :=
  List.foldlRecOn l f hs fun s hs a _ => hf s a hs

theorem State.mapVault_write_canonical {s : State} (hs : MemoryCanonical s) (k : Nat) (bs : List Byte) :
    MemoryCanonical (s.mapVault fun m => m.write k bs) :=
  ⟨Mem.wf_write hs.1 k bs, hs.2⟩

theorem memoryCanonical_of_empty {s : State} (hv : s.memory.vault = []) (he : s.memory.ext = []) : MemoryCanonical s := by
  unfold MemoryCanonical
  rw [hv, he]
  exact ⟨rfl, rfl⟩

theorem State.eraseMemory_canonical (s : State) : MemoryCanonical s.eraseMemory := memoryCanonical_of_empty rfl rfl

theorem State.coldState_canonical (s : State) (straps : BitVec 6) : MemoryCanonical (s.coldState straps) :=
  memoryCanonical_of_empty rfl rfl

theorem State.writeDevice_canonical {s : State} (hs : MemoryCanonical s) (a : Alternative) (addr : Nat) (bs : List Byte) :
    MemoryCanonical (s.writeDevice a addr bs) := by
  refine State.foldl_canonical (fun s p hs => ?_) _ hs
  split
  · exact State.writeLoc_canonical hs ..
  · exact hs

theorem State.writeDent_canonical {s : State} (hs : MemoryCanonical s) (a : Nat) (bs : List Byte) :
    MemoryCanonical (s.writeDent a bs) := by
  unfold State.writeDent
  split
  · exact State.writeLoc_canonical hs ..
  · exact hs

theorem State.writeRing_canonical {s : State} (hs : MemoryCanonical s) (g : Ingress) (r : Ring) :
    MemoryCanonical (s.writeRing g r) := by
  unfold State.writeRing
  split
  · exact hs
  · exact State.writeDent_canonical (State.writeDent_canonical hs ..) ..

theorem State.cardStripe_canonical {s : State} (hs : MemoryCanonical s) : MemoryCanonical s.cardStripe := by
  unfold State.cardStripe
  split
  · exact hs
  · next g _ =>
    dsimp only
    generalize g.stripe s.live.table5 = g
    split
    · exact hs.of_bytes (by simp)
    · exact (State.foldl_canonical (fun s r hs => State.writeRing_canonical hs g r) (g.taps ++ [g.ring])
        (hs.of_bytes (t := { s with audio := { s.audio with resident := (g.id :: s.audio.resident.filter (· != g.id)).take 16 } })
          rfl)).of_bytes (by simp)

theorem State.writeHot_canonical {s : State} (hs : MemoryCanonical s) (m : Model) (h : HotRange) :
    MemoryCanonical (s.writeHot m h).2 := by
  refine List.foldlRecOn (motive := fun acc : HotRange × State => MemoryCanonical acc.2) _ _ hs fun acc hacc d _ => ?_
  refine List.foldlRecOn (motive := fun acc : Nat × State => MemoryCanonical acc.2) _ _ hacc fun acc hacc p _ => ?_
  exact State.mapVault_write_canonical hacc ..

theorem State.commitModel_canonical {s : State} (hs : MemoryCanonical s) (m : Model) : MemoryCanonical (s.commitModel m) := by
  refine State.foldl_canonical (fun s h hs => ?_) _ (hs.of_bytes (by simp))
  exact (State.writeHot_canonical hs m h).of_bytes (by simp)

theorem State.burnLifecycle_canonical {s : State} (hs : MemoryCanonical s) (target : Nat) (owner : List Byte) :
    MemoryCanonical (s.burnLifecycle target owner) := by
  unfold State.burnLifecycle
  dsimp only
  split
  · exact State.eraseMemory_canonical _
  · exact hs.of_bytes (by simp)

theorem State.bootRepair_canonical {s : State} (hs : MemoryCanonical s) : MemoryCanonical s.bootRepair := by
  unfold State.bootRepair
  split
  · exact State.eraseMemory_canonical _
  · exact hs

theorem State.coldBoot_canonical (s : State) (f : BootFindings) : MemoryCanonical (s.coldBoot f) := by
  unfold State.coldBoot
  dsimp only
  have hcold := State.coldState_canonical s.announceReset f.straps
  refine (State.bootRepair_canonical (hcold.of_bytes
    (t := (((s.announceReset.coldState f.straps).emit (.railEn true)).emitAll (railOutputs .vcore 800 ++ statusReads)).bootClocks)
    (by simp))).of_bytes ?_
  simp

theorem State.startStep_canonical {s : State} (hs : MemoryCanonical s) (id : Word) : MemoryCanonical (s.startStep id) := by
  unfold State.startStep
  split
  · exact hs
  · next j _ =>
    dsimp only
    split
    · exact hs
    · split
      · next key _ _ _ =>
        exact (State.mapVault_write_canonical hs key (stepTable j.stepNo (s.stepRows id))).of_bytes (by simp)
      · exact hs.of_bytes (by simp)

theorem State.finishPiece_canonical {s : State} (hs : MemoryCanonical s) (loom tag : Nat) :
    MemoryCanonical (s.finishPiece loom tag) := by
  unfold State.finishPiece
  split
  · exact hs
  · split
    · exact hs
    · split
      · split
        · exact hs.of_bytes (by simp)
        · exact hs.of_bytes (by simp)
        · split
          · exact hs.of_bytes (by simp)
          · exact hs.of_bytes (by simp)
          · exact (State.writeLoc_canonical hs ..).of_bytes (State.donePiece_bytes ..)
          · exact hs.of_bytes (by simp)
        · split
          · exact hs.of_bytes (by simp)
          · exact hs.of_bytes (by simp)
          · exact (State.writeLoc_canonical hs ..).of_bytes (State.donePiece_bytes ..)
          · exact hs.of_bytes (by simp)
      · exact hs

theorem State.writeFeed_canonical {s t : State} (hs : MemoryCanonical s) {j : Job} {a : Alternative} {p : Phrase}
    (h : s.writeFeed j a p = some t) : MemoryCanonical t := by
  obtain ⟨x, -, h⟩ := Option.bind_eq_some_iff.mp h
  dsimp only at h
  split at h
  · split at h
    · obtain ⟨d, -, rfl⟩ := Option.map_eq_some_iff.mp h
      exact State.writeLoc_canonical hs ..
    · cases h
  · cases h

theorem State.startJob_canonical {s : State} (hs : MemoryCanonical s) (j : Job) (i : Nat) :
    MemoryCanonical (s.startJob j i) := by
  unfold State.startJob
  split
  · exact hs
  · split
    · exact hs.of_bytes (by simp)
    · dsimp only
      split
      · exact hs.of_bytes (by simp)
      · split
        · next hfeed => exact (State.writeFeed_canonical hs hfeed).of_bytes (by simp)
        · exact hs.of_bytes (by simp)

theorem State.startNext_canonical {s : State} (hs : MemoryCanonical s) : MemoryCanonical s.startNext := by
  have hreserve : MemoryCanonical s.reserve := hs.of_bytes (by simp)
  unfold State.startNext
  dsimp only
  split
  · exact State.startJob_canonical hreserve ..
  · exact hreserve

theorem State.traceRecord_canonical {s : State} (hs : MemoryCanonical s) (loom slot : Nat) (e : Engine) (index op : Nat) :
    MemoryCanonical (s.traceRecord loom slot e index op) := by
  unfold State.traceRecord
  split
  · exact hs
  · split
    · exact hs
    · dsimp only
      split
      · exact (State.writeLoc_canonical hs ..).of_bytes rfl
      · exact hs

theorem State.traceCard_canonical {s : State} (hs : MemoryCanonical s) (loom slot : Nat) (e : Engine) (c : Ctx) (card : Card) :
    MemoryCanonical (s.traceCard loom slot e c card) := by
  unfold State.traceCard
  split
  · exact State.traceRecord_canonical (State.traceRecord_canonical hs ..) ..
  · exact State.traceRecord_canonical hs ..

theorem State.peerWrite_canonical {s : State} (hs : MemoryCanonical s) (c : Ctx) (card : Card) (bs : List Byte) :
    MemoryCanonical (s.peerWrite c card bs) := by
  unfold State.peerWrite
  dsimp only
  split
  · generalize Option.bind _ _ = alt
    cases alt with
    | none => exact hs
    | some a => exact State.writeDevice_canonical hs ..
  · exact hs.of_bytes (by simp)

theorem State.runPeerReceive_canonical {s : State} (hs : MemoryCanonical s) (c : Ctx) (card : Card) :
    MemoryCanonical (s.runPeerReceive c card) := by
  unfold State.runPeerReceive
  dsimp only
  split
  · exact hs.of_bytes (by simp)
  · split
    · exact hs.of_bytes (by simp)
    · split
      · split
        · exact hs.of_bytes (by simp)
        · split
          · exact hs.of_bytes (by simp)
          · next bs _ => exact (State.peerWrite_canonical hs c card bs).of_bytes (by simp)
      · split
        · exact hs.of_bytes (by simp)
        · split
          · exact hs.of_bytes (by simp)
          · next bs _ => exact (State.peerWrite_canonical hs c card bs).of_bytes (by simp)

theorem State.runCard_canonical {s : State} (hs : MemoryCanonical s) (e : Engine) (c : Ctx) (card : Card) :
    MemoryCanonical (State.runCard e s c card) := by
  unfold State.runCard
  split
  case h_5 =>
    split
    · exact State.runPeerReceive_canonical hs ..
    · exact hs.of_bytes (by simp)
  all_goals exact hs.of_bytes (by simp)

theorem State.stepCards_canonical {s : State} (hs : MemoryCanonical s) (n loom slot : Nat) (e : Engine) (done : Nat) :
    MemoryCanonical (State.stepCards n s loom slot e done).1 := by
  induction n generalizing s done with
  | zero => exact hs
  | succ n ih =>
    have hfresh : MemoryCanonical (s.refresh loom) := hs.of_bytes (by simp)
    unfold State.stepCards
    dsimp only
    split
    · exact hfresh
    · split
      · exact hfresh
      · split
        · exact ih ((State.runCard_canonical (State.traceCard_canonical hfresh ..) ..).of_bytes (State.refresh_bytes ..)) _
        · exact hfresh

theorem State.cardEvent_canonical {s : State} (hs : MemoryCanonical s) (loom slot : Nat) (e : Engine) (kind : Card → Bool)
    {run : State → Ctx → Card → State} (hrun : ∀ s c card, MemoryCanonical s → MemoryCanonical (run s c card)) :
    MemoryCanonical (s.cardEvent loom slot e kind run) := by
  have hfresh : MemoryCanonical (s.refresh loom) := hs.of_bytes (by simp)
  unfold State.cardEvent
  dsimp only
  split
  · exact hs
  · split
    · exact hs
    · split
      · exact hs
      · split
        · refine (hrun _ _ _ ?_).of_bytes (State.refresh_bytes ..)
          split
          · exact hfresh
          · exact State.traceCard_canonical hfresh ..
        · exact hs

theorem State.dapAnswer_canonical {s : State} (hs : MemoryCanonical s) (a : DapAccess) : MemoryCanonical (s.dapAnswer a) := by
  unfold State.dapAnswer
  split
  · exact (State.writeLoc_canonical hs ..).of_bytes rfl
  · exact hs.of_bytes (by simp)
  · refine hs.of_bytes ((State.elim_bytes (fun p => ?_) _).trans rfl)
    simp
  · split
    · exact hs.of_bytes (by simp)
    · exact hs.of_bytes (by simp)

theorem State.dapAccess_canonical {s : State} (hs : MemoryCanonical s) (a : DapAccess) : MemoryCanonical (s.dapAccess a) := by
  unfold State.dapAccess
  dsimp only
  split
  · exact hs
  · split
    · exact State.dapAnswer_canonical hs a
    · exact hs.of_bytes (by simp)

end Sys2Proof.Machine
end


section
/-!
PROOF. A command whose own part keeps the memories canonical keeps them so on every way it can take, for O52: refused, queued,
forwarded, joined from fragments or run.
-/
namespace Sys2Proof.Machine

open Sys2Proof Sys2Proof.Safety

/-- An answer whose state has canonical memories, as has what follows the reply of a state that had. -/
structure Answer.Canonical (a : Answer) : Prop where
  st : MemoryCanonical a.st
  post : ∀ t, MemoryCanonical t → MemoryCanonical (a.post t)

theorem Answer.KeepsBytes.canonical {a : Answer} {s : State} (h : a.KeepsBytes s) (hs : MemoryCanonical s) : a.Canonical :=
  ⟨hs.of_bytes h.st, fun t ht => ht.of_bytes (h.post t)⟩

/-- A command's own part keeps the memories canonical, over whatever parameters. -/
def KeepsCanonical (run : List Byte → State → Answer) : Prop := ∀ ps s, MemoryCanonical s → (run ps s).Canonical

theorem KeepsCanonical.of_bytes {run : List Byte → State → Answer} (h : ∀ ps s, (run ps s).KeepsBytes s) :
    KeepsCanonical run :=
  fun ps s hs => (h ps s).canonical hs

theorem failWith_keepsCanonical (st : Status) : KeepsCanonical fun _ s => failWith st s := .of_bytes fun ps s => by simp

theorem State.finish_canonical {a : Answer} (ha : a.Canonical) (opcode : Nat) (h : Hdr) :
    MemoryCanonical (State.finish opcode h a) :=
  ha.post _ (ha.st.of_bytes (by simp))

theorem Answer.leftFor_canonical {a : Answer} (ha : a.Canonical) (qs : List (Nat × Hdr × List Byte)) :
    (a.leftFor qs).Canonical := by
  unfold Answer.leftFor
  split
  · exact ha
  · exact ⟨ha.st.of_bytes rfl, ha.post⟩

theorem State.conflictCheck_error_keepsBytes {s : State} {p : Nat × Hdr × List Byte} {a : Answer}
    (h : s.conflictCheck p = .error a) :
    a.KeepsBytes s := by
  unfold State.conflictCheck at h
  dsimp only at h
  split at h
  · cases h
    simp
  · split at h
    · cases h
      simp
    · split at h
      · cases h
      · split at h
        · cases h
        · cases h
          simp

theorem State.conflictCheck_ok_bytes {s t : State} {p : Nat × Hdr × List Byte} (h : s.conflictCheck p = .ok t) :
    t.memory.bytes = s.memory.bytes := by
  unfold State.conflictCheck at h
  dsimp only at h
  split at h
  · cases h
  · split at h
    · cases h
    · split at h
      · cases h
        rfl
      · split at h
        · cases h
          rfl
        · cases h

section
variable {s : State} (hs : MemoryCanonical s) (opcode : Nat) (h : Hdr) (ps : List Byte) (more : Bool)
  {run : List Byte → State → Answer} (hrun : KeepsCanonical run)
include hs hrun

theorem State.assemble_canonical : (s.assemble opcode h ps more run).Canonical := by
  have hended : MemoryCanonical (s.endAssembly opcode h) := hs.of_bytes (by simp)
  unfold State.assemble
  dsimp only
  split
  · split
    · exact hrun _ _ hs
    · split
      · exact Answer.KeepsBytes.canonical (by simp) hs
      · split
        · exact Answer.KeepsBytes.canonical (by simp) hs
        · exact Answer.KeepsBytes.canonical (by simp) hs
  · iterate 4
      split
      · exact Answer.KeepsBytes.canonical (by simp) hs
    exact hrun _ _ hended

theorem State.judged_canonical : (s.judged opcode h ps more run).Canonical := by
  unfold State.judged
  dsimp only
  split
  · exact Answer.KeepsBytes.canonical (by simp) hs
  · split
    · next a herror =>
      have ha : a.KeepsBytes s := by
        split at herror
        · cases herror
        · exact State.conflictCheck_error_keepsBytes herror
      exact ⟨hs.of_bytes (by simp [ha.st]), fun t ht => ht.of_bytes (ha.post t)⟩
    · next t hok =>
      have ht : t.memory.bytes = s.memory.bytes := by
        split at hok
        · cases hok
          rfl
        · exact State.conflictCheck_ok_bytes hok
      exact Answer.leftFor_canonical (State.assemble_canonical (hs.of_bytes ht) _ _ _ _ hrun) _

theorem State.checked_canonical : (s.checked opcode h ps more run).Canonical := by
  unfold State.checked
  dsimp only
  iterate 3
    split
    · exact Answer.KeepsBytes.canonical (by simp) hs
  exact State.judged_canonical hs _ _ _ _ hrun

end

theorem State.sequenced_canonical {s : State} (hs : MemoryCanonical s) (opcode : Nat) (h : Hdr) {k : State → State}
    (hk : ∀ t, MemoryCanonical t → MemoryCanonical (k t)) : MemoryCanonical (s.sequenced opcode h k) := by
  have haccept : MemoryCanonical (k (s.mapMaster h.iface.master fun ms => ms.accept h.seq)) := hk _ (hs.of_bytes (by simp))
  unfold State.sequenced
  dsimp only
  split
  · exact hs.of_bytes (by simp)
  · split
    · exact haccept
    · exact hs.of_bytes (by simp)
  · split
    · exact hs
    · exact haccept

theorem State.route_canonical {s : State} (hs : MemoryCanonical s) (opcode : Nat) (h : Hdr) (ps : List Byte) (more : Bool)
    {here : State → State} (hhere : ∀ t, MemoryCanonical t → MemoryCanonical (here t)) :
    MemoryCanonical (s.route opcode h ps more here) := by
  unfold State.route
  split
  · exact hs.of_bytes (by simp)
  · split
    · exact hhere _ hs
    · exact hhere _ (hs.of_bytes (by simp))
    · exact hs.of_bytes (by simp)
    · exact hs.of_bytes (by simp)
    · exact hs.of_bytes (by simp)

section
variable {s : State} (hs : MemoryCanonical s) (opcode : Nat) (h : Hdr) (ps : List Byte) (more : Bool)
include hs

theorem State.execute_canonical {run : List Byte → State → Answer} (hrun : KeepsCanonical run) :
    MemoryCanonical (s.execute opcode h ps more run) :=
  State.sequenced_canonical hs opcode h fun _ ht => State.finish_canonical (State.checked_canonical ht _ _ _ _ hrun) _ _

theorem State.dispatch_canonical {run : List Byte → State → Answer} (hrun : KeepsCanonical run) :
    MemoryCanonical (s.dispatch opcode h ps more run) :=
  State.route_canonical hs opcode h ps more fun _ ht => State.execute_canonical ht _ _ _ _ hrun

theorem State.enqueue_canonical (i : Instr) : MemoryCanonical (s.enqueue i opcode h ps more) := by
  refine State.route_canonical hs opcode h ps more fun s hs => State.sequenced_canonical hs opcode h fun s hs => ?_
  split
  · exact State.finish_canonical (Answer.KeepsBytes.canonical (s := s) (by simp) hs) _ _
  · split
    · exact State.finish_canonical (Answer.KeepsBytes.canonical (s := s) (by simp) hs) _ _
    · split
      · exact State.finish_canonical (Answer.KeepsBytes.canonical (s := s) (by simp) hs) _ _
      · exact hs.of_bytes rfl

theorem State.runHeld_canonical (i : Instr) {run : List Byte → State → Answer} (hrun : KeepsCanonical run) :
    MemoryCanonical (s.runHeld i opcode h ps more run) := by
  have htaken (p : Proto) : MemoryCanonical { s with proto := p } := hs
  unfold State.runHeld
  dsimp only
  split
  · exact State.finish_canonical (State.checked_canonical (htaken _) _ _ _ _ hrun) _ _
  · exact State.finish_canonical (State.checked_canonical (htaken _) _ _ _ _ (failWith_keepsCanonical _)) _ _
  · exact hs.of_bytes rfl
  · exact hs.of_bytes rfl

theorem State.command_canonical (i : Instr) {run : List Byte → State → Answer} (hrun : KeepsCanonical run) :
    MemoryCanonical (s.command i opcode h ps more run) := by
  unfold State.command
  split
  · exact State.runHeld_canonical hs _ _ _ _ _ hrun
  · split
    · exact hs.of_bytes (by simp)
    · split
      · exact hs.of_bytes (by simp)
      · split
        · split
          · exact State.enqueue_canonical hs ..
          · exact State.dispatch_canonical hs _ _ _ _ hrun
        · exact hs
        · exact State.dispatch_canonical hs _ _ _ _ (failWith_keepsCanonical _)
        · exact (State.enqueue_canonical hs opcode h ps more i).of_bytes (by simp)

theorem State.unknownOpcode_canonical : MemoryCanonical (s.unknownOpcode opcode h ps more) :=
  State.dispatch_canonical hs opcode h ps more (failWith_keepsCanonical _)

end

section
variable {s : State} (hs : MemoryCanonical s)
include hs

theorem State.receiveRaw_canonical (iface : Iface) (src : Endpoint) (b : List Byte) :
    MemoryCanonical (s.receiveRaw iface src b) := by
  unfold State.receiveRaw
  dsimp only
  iterate 4
    split
    · exact hs.of_bytes (by simp)
  split
  · exact hs.of_bytes (by simp)
  · split
    · exact State.unknownOpcode_canonical hs ..
    · split
      · exact hs
      · exact State.dispatch_canonical hs _ _ _ _ (failWith_keepsCanonical _)
      · exact (State.enqueue_canonical hs ..).of_bytes (State.wake_bytes ..)
      · exact State.enqueue_canonical hs ..

theorem State.takePacket_canonical (bytes : List Byte) : MemoryCanonical (s.takePacket bytes) := by
  unfold State.takePacket
  split
  · refine hs.of_bytes ?_
    dsimp only
    split <;> split <;> simp
  · exact State.receiveRaw_canonical hs ..

theorem State.takeMessage_canonical (n : Nat) (src : Byte) (m : List Byte) : MemoryCanonical (s.takeMessage n src m) := by
  unfold State.takeMessage
  dsimp only
  split
  · exact hs.of_bytes (by simp)
  · split
    · exact hs.of_bytes (by simp)
    · split
      · exact State.takePacket_canonical hs _
      iterate 3
        · split
          · split
            · split <;> exact hs.of_bytes (by simp)
            · split <;> exact hs.of_bytes (by simp)
          · exact hs
      · exact hs.of_bytes (State.elim_bytes (fun x => State.ackBlock_bytes ..) _)
      · exact hs.of_bytes (State.elim_bytes (fun x => State.resendFrom_bytes ..) _)
      · exact hs.of_bytes (State.elim_bytes (fun c => State.obey_bytes ..) _)
      · exact hs

theorem State.joinFrag_canonical (a : IpAssembly) (f : IpFrag) : MemoryCanonical (s.joinFrag a f) := by
  unfold State.joinFrag
  split
  · exact hs.of_bytes (by simp)
  · dsimp only
    split
    · exact hs.of_bytes (by simp)
    · split
      · exact hs.of_bytes (by simp)
      · exact State.receiveRaw_canonical (hs.of_bytes (by simp)) ..

theorem State.takeFrag_canonical (f : IpFrag) : MemoryCanonical (s.takeFrag f) := by
  unfold State.takeFrag
  split
  · exact State.joinFrag_canonical hs ..
  · split
    · exact hs.of_bytes (by simp)
    · exact State.joinFrag_canonical hs ..

theorem State.onLinkUp_canonical {k : State → State} (hk : MemoryCanonical (k s)) : MemoryCanonical (s.onLinkUp k) := by
  unfold State.onLinkUp
  split
  · exact hs
  · split
    · exact hk
    · exact hs.of_bytes (by simp)

theorem State.serveFetches_canonical (id : Word) : MemoryCanonical (s.serveFetches id) := by
  refine State.foldl_canonical (fun s q hs => ?_) _ (hs.of_bytes rfl)
  exact State.finish_canonical (State.checked_canonical hs _ _ _ _ (.of_bytes fun ps s => by simp)) _ _

theorem State.expireResult_canonical (id : Word) : MemoryCanonical (s.expireResult id) := by
  unfold State.expireResult
  split
  · exact hs
  · split
    · exact (State.serveFetches_canonical hs id).of_bytes (by simp)
    · exact hs
end

/-! ### What commands do -/

theorem modelSegment_canonical : KeepsCanonical modelSegment := by
  intro ps s hs
  unfold modelSegment
  dsimp only
  iterate 2
    split
    · exact Answer.KeepsBytes.canonical (by simp) hs
  split
  · exact Answer.KeepsBytes.canonical (by simp) hs
  · iterate 4
      split
      · exact Answer.KeepsBytes.canonical (by simp) hs
    split
    · exact Answer.KeepsBytes.canonical (by simp) hs
    · split
      · exact Answer.KeepsBytes.canonical (by simp) hs
      · exact ⟨(State.modelWrite_canonical hs ..).of_bytes rfl, fun t ht => ht⟩

theorem modelCommit_canonical : KeepsCanonical modelCommit := by
  intro ps s hs
  unfold modelCommit
  dsimp only
  split
  · exact Answer.KeepsBytes.canonical (by simp) hs
  · iterate 4
      split
      · exact Answer.KeepsBytes.canonical (by simp) hs
    iterate 2
      split
      · exact Answer.KeepsBytes.canonical (by simp) hs
    exact ⟨State.commitModel_canonical hs _, fun t ht => ht⟩

theorem modelLoadBody_canonical : KeepsCanonical modelLoadBody := by
  intro ps s hs
  unfold modelLoadBody
  split
  · exact Answer.KeepsBytes.canonical (by simp) hs
  · split
    · exact Answer.KeepsBytes.canonical (by simp) hs
    · exact modelSegment_canonical ps s hs
    · exact modelCommit_canonical ps s hs
    · exact Answer.KeepsBytes.canonical (by simp) hs

theorem memWriteBody_canonical : KeepsCanonical memWriteBody := by
  intro ps s hs
  unfold memWriteBody
  dsimp only
  iterate 2
    split
    · exact Answer.KeepsBytes.canonical (by simp) hs
  split
  · split <;> exact Answer.KeepsBytes.canonical (by simp) hs
  · iterate 3
      split
      · exact Answer.KeepsBytes.canonical (by simp) hs
    exact ⟨(State.writeLoc_canonical hs ..).of_bytes rfl, fun t ht => ht⟩

theorem lifecycleBody_canonical : KeepsCanonical lifecycleBody := by
  intro ps s hs
  by_cases hop : be ps 0 1 = 0xFF
  · exact (lifecycleBody_onlyAnswers ps s hop).keepsBytes.canonical hs
  · have hnot : (be ps 0 1 == 0xFF) = false := by simpa using hop
    simp only [lifecycleBody, hnot, Bool.false_eq_true, if_false]
    iterate 5
      split
      · exact Answer.KeepsBytes.canonical (by simp) hs
    exact ⟨State.burnLifecycle_canonical hs .., fun t ht => ht.of_bytes (State.coldReset_bytes t)⟩

theorem loomStepBody_canonical : KeepsCanonical loomStepBody := by
  intro ps s hs
  unfold loomStepBody
  dsimp only
  iterate 5
    split
    · exact Answer.KeepsBytes.canonical (by simp) hs
  exact ⟨State.stepCards_canonical hs .., fun t ht => ht⟩

end Sys2Proof.Machine
end


section
/-!
PROOF. O52: every step keeps the memories canonical.
-/
namespace Sys2Proof.Machine

open Sys2Proof Sys2Proof.Safety

/-- The state that an outcome gives, where the outcome is known to give one. -/
theorem canonical_of_next {s t : State} (h : (Host.Outcome.next s : Host.Outcome State Fault Refusal) = .next t)
    (hs : MemoryCanonical s) : MemoryCanonical t := by
  cases h
  exact hs

/-- A command whose own part leaves the bytes of the memories. -/
theorem canonical_of_command {s t : State} (hs : MemoryCanonical s) {i : Instr} {op : Nat} {h : Hdr} {ps : List Byte} {more : Bool}
    {run : List Byte → State → Answer}
    (hexec : (Host.Outcome.next (s.command i op h ps more run) : Host.Outcome State Fault Refusal) = .next t)
    (hrun : ∀ ps s, (run ps s).KeepsBytes s) : MemoryCanonical t :=
  canonical_of_next hexec (State.command_canonical hs op h ps more i (.of_bytes hrun))

/-- A card that leaves the bytes of the memories; its record in the trace ring is written first. -/
theorem canonical_of_card {s t : State} (hs : MemoryCanonical s) {loom slot : Nat} {e : Engine} {kind : Card → Bool}
    {run : State → Ctx → Card → State}
    (hexec : (Host.Outcome.next (s.cardEvent loom slot e kind run) : Host.Outcome State Fault Refusal) = .next t)
    (hrun : ∀ s c card, (run s c card).memory.bytes = s.memory.bytes) : MemoryCanonical t :=
  canonical_of_next hexec (State.cardEvent_canonical hs loom slot e kind fun s c card hs => hs.of_bytes (hrun s c card))

/-- An event that leaves the bytes of the memories. -/
theorem canonical_of_event {s u t : State} (hs : MemoryCanonical s)
    (hexec : (Host.Outcome.next u : Host.Outcome State Fault Refusal) = .next t)
    (hu : u.memory.bytes = s.memory.bytes) : MemoryCanonical t :=
  canonical_of_next hexec (hs.of_bytes hu)

/-- Every command, card and event keeps the memories canonical. -/
theorem exec_canonical {s t : State} (hs : MemoryCanonical s) (i : Instr) (hexec : exec i s = .next t) : MemoryCanonical t := by
  cases i with
  | hello h ps => exact canonical_of_command hs hexec (helloBody_keepsBytes h)
  | identify h ps => exact canonical_of_command hs hexec identifyBody_keepsBytes
  | ping h ps => exact canonical_of_command hs hexec pingBody_keepsBytes
  | status h ps => exact canonical_of_command hs hexec statusBody_keepsBytes
  | reset h ps => exact canonical_of_command hs hexec resetBody_keepsBytes
  | paceRead h ps => exact canonical_of_command hs hexec paceReadBody_keepsBytes
  | modelLoadOpen h ps => exact canonical_of_next hexec (State.command_canonical hs _ _ _ _ _ modelLoadBody_canonical)
  | modelLoadSegment h ps => exact canonical_of_next hexec (State.command_canonical hs _ _ _ _ _ modelLoadBody_canonical)
  | modelLoadCommit h ps => exact canonical_of_next hexec (State.command_canonical hs _ _ _ _ _ modelLoadBody_canonical)
  | modelVerify h ps => exact canonical_of_command hs hexec modelVerifyBody_keepsBytes
  | modelUnload h ps => exact canonical_of_command hs hexec modelUnloadBody_keepsBytes
  | memWrite h ps => exact canonical_of_next hexec (State.command_canonical hs _ _ _ _ _ memWriteBody_canonical)
  | memLayoutWrite h ps => exact canonical_of_next hexec (State.command_canonical hs _ _ _ _ _ memWriteBody_canonical)
  | memRead h ps => exact canonical_of_command hs hexec memReadBody_keepsBytes
  | deckLoad h ps => exact canonical_of_command hs hexec deckLoadBody_keepsBytes
  | deckUnload h ps => exact canonical_of_command hs hexec (deckUnloadBody_keepsBytes h)
  | jobSubmit h ps => exact canonical_of_command hs hexec (jobSubmitBody_keepsBytes h)
  | jobCancel h ps => exact canonical_of_command hs hexec (jobCancelBody_keepsBytes h)
  | jobStatus h ps => exact canonical_of_command hs hexec (jobStatusBody_keepsBytes h)
  | resultFetch h ps => exact canonical_of_command hs hexec (resultFetchBody_keepsBytes h)
  | resultRelease h ps => exact canonical_of_command hs hexec (resultReleaseBody_keepsBytes h)
  | sharesSetClient h ps => exact canonical_of_command hs hexec sharesSetBody_keepsBytes
  | sharesReadClient h ps => exact canonical_of_command hs hexec sharesSetBody_keepsBytes
  | schedConfigWrite h ps => exact canonical_of_command hs hexec sharesSetBody_keepsBytes
  | schedConfigRead h ps => exact canonical_of_command hs hexec sharesSetBody_keepsBytes
  | accountRead h ps => exact canonical_of_command hs hexec accountReadBody_keepsBytes
  | streamOpen h ps => exact canonical_of_command hs hexec streamOpenBody_keepsBytes
  | streamFeed h ps => exact canonical_of_command hs hexec (streamFeedBody_keepsBytes h)
  | streamMarkPhrase h ps => exact canonical_of_command hs hexec (streamMarkBody_keepsBytes h)
  | streamMarkEnd h ps => exact canonical_of_command hs hexec (streamMarkBody_keepsBytes h)
  | streamClose h ps => exact canonical_of_command hs hexec (streamCloseBody_keepsBytes h)
  | streamRoute h ps => exact canonical_of_command hs hexec (streamRouteBody_keepsBytes h)
  | streamFallbackThreshold h ps => exact canonical_of_command hs hexec (streamFallbackBody_keepsBytes h)
  | streamFallbackClear h ps => exact canonical_of_command hs hexec (streamFallbackBody_keepsBytes h)
  | streamFallbackReturn h ps => exact canonical_of_command hs hexec (streamFallbackBody_keepsBytes h)
  | streamStatus h ps => exact canonical_of_command hs hexec (streamStatusBody_keepsBytes h)
  | portConfigWrite h ps => exact canonical_of_command hs hexec portConfigBody_keepsBytes
  | portConfigRead h ps => exact canonical_of_command hs hexec portConfigBody_keepsBytes
  | portStart h ps => exact canonical_of_command hs hexec portStartBody_keepsBytes
  | portStop h ps => exact canonical_of_command hs hexec portStopBody_keepsBytes
  | portStatus h ps => exact canonical_of_command hs hexec portStatusBody_keepsBytes
  | cardConfigOpen h ps => exact canonical_of_command hs hexec (cardConfigBody_keepsBytes h)
  | cardConfigClose h ps => exact canonical_of_command hs hexec (cardConfigBody_keepsBytes h)
  | cardGain h ps => exact canonical_of_command hs hexec (cardGainBody_keepsBytes h)
  | cardTapStart h ps => exact canonical_of_command hs hexec (cardTapBody_keepsBytes h)
  | cardTapStop h ps => exact canonical_of_command hs hexec (cardTapBody_keepsBytes h)
  | cardStats h ps => exact canonical_of_command hs hexec (cardStatsBody_keepsBytes h)
  | powerState h ps => exact canonical_of_command hs hexec (powerStateBody_keepsBytes h)
  | powerStateRead h ps => exact canonical_of_command hs hexec (powerStateBody_keepsBytes h)
  | domainCtrlOff h ps => exact canonical_of_command hs hexec domainCtrlBody_keepsBytes
  | domainCtrlOn h ps => exact canonical_of_command hs hexec domainCtrlBody_keepsBytes
  | domainCtrlRead h ps => exact canonical_of_command hs hexec domainCtrlBody_keepsBytes
  | padRelease h ps => exact canonical_of_command hs hexec padReleaseBody_keepsBytes
  | voltagePolicyWrite h ps => exact canonical_of_command hs hexec voltagePolicyBody_keepsBytes
  | voltagePolicyRead h ps => exact canonical_of_command hs hexec voltagePolicyBody_keepsBytes
  | powerCeilingSet h ps => exact canonical_of_command hs hexec powerCeilingBody_keepsBytes
  | powerCeilingRead h ps => exact canonical_of_command hs hexec powerCeilingBody_keepsBytes
  | attest h ps => exact canonical_of_command hs hexec attestBody_keepsBytes
  | keyInstall h ps => exact canonical_of_command hs hexec keyInstallBody_keepsBytes
  | lifecycleTransition h ps => exact canonical_of_next hexec (State.command_canonical hs _ _ _ _ _ lifecycleBody_canonical)
  | lifecycleRead h ps => exact canonical_of_next hexec (State.command_canonical hs _ _ _ _ _ lifecycleBody_canonical)
  | fwInstallManifest h ps => exact canonical_of_command hs hexec (fwInstallBody_keepsBytes h)
  | fwInstallChunk h ps => exact canonical_of_command hs hexec (fwInstallBody_keepsBytes h)
  | fwInstallFinish h ps => exact canonical_of_command hs hexec (fwInstallBody_keepsBytes h)
  | fwInstallRead h ps => exact canonical_of_command hs hexec (fwInstallBody_keepsBytes h)
  | modelKeyInstall h ps => exact canonical_of_command hs hexec modelKeyBody_keepsBytes
  | modelKeyDelete h ps => exact canonical_of_command hs hexec modelKeyBody_keepsBytes
  | debugUnlock h ps => exact canonical_of_command hs hexec debugUnlockBody_keepsBytes
  | debugLock h ps => exact canonical_of_command hs hexec debugLockBody_keepsBytes
  | traceCtrlStart h ps => exact canonical_of_command hs hexec traceCtrlBody_keepsBytes
  | traceCtrlStop h ps => exact canonical_of_command hs hexec traceCtrlBody_keepsBytes
  | loomHalt h ps => exact canonical_of_command hs hexec loomHaltBody_keepsBytes
  | loomResume h ps => exact canonical_of_command hs hexec loomHaltBody_keepsBytes
  | loomStep h ps => exact canonical_of_next hexec (State.command_canonical hs _ _ _ _ _ loomStepBody_canonical)
  | ringInfo h ps => exact canonical_of_command hs hexec ringInfoBody_keepsBytes
  | ringRead h ps => exact canonical_of_command hs hexec ringReadBody_keepsBytes
  | tableWrite h ps => exact canonical_of_command hs hexec tableWriteBody_keepsBytes
  | tableRead h ps => exact canonical_of_command hs hexec tableReadBody_keepsBytes
  | settingsCommit h ps => exact canonical_of_command hs hexec settingsCommitBody_keepsBytes
  | settingsInvalidate h ps => exact canonical_of_command hs hexec settingsCommitBody_keepsBytes
  | settingsRead h ps => exact canonical_of_command hs hexec settingsReadBody_keepsBytes
  | sysEnumerate h ps => exact canonical_of_command hs hexec (sysEnumerateBody_keepsBytes h)
  | sysPhaseAssign h ps => exact canonical_of_command hs hexec (sysPhaseAssignBody_keepsBytes h)
  | sysRouteBind h ps => exact canonical_of_command hs hexec (sysRouteBody_keepsBytes h)
  | sysRouteUnbind h ps => exact canonical_of_command hs hexec (sysRouteBody_keepsBytes h)
  | linkStatus h ps => exact canonical_of_command hs hexec linkStatusBody_keepsBytes
  | fragmentReceived opcode h ps => exact canonical_of_command hs hexec fun ps s => by simp
  | load loom slot => exact canonical_of_card hs hexec fun s c card => by simp
  | store loom slot => exact canonical_of_card hs hexec fun s c card => by simp
  | loadC loom slot => exact canonical_of_card hs hexec fun s c card => by simp
  | storeC loom slot => exact canonical_of_card hs hexec fun s c card => by simp
  | peerSend loom slot => exact canonical_of_card hs hexec fun s c card => by simp
  | peerReceive loom slot =>
    exact canonical_of_next hexec (State.cardEvent_canonical hs _ _ _ _ fun s c card hs => State.runPeerReceive_canonical hs c card)
  | wait loom slot eng => exact canonical_of_card hs hexec fun s c card => by simp
  | signal loom slot eng => exact canonical_of_card hs hexec fun s c card => by simp
  | knot loom slot => exact canonical_of_card hs hexec fun s c card => by simp
  | loop loom slot eng => exact canonical_of_card hs hexec fun s c card => by simp
  | endLoop loom slot eng => exact canonical_of_card hs hexec fun s c card => by simp
  | mma loom slot => exact canonical_of_card hs hexec fun s c card => by simp
  | mmaG loom slot => exact canonical_of_card hs hexec fun s c card => by simp
  | vop loom slot => exact canonical_of_card hs hexec fun s c card => by simp
  | curve loom slot => exact canonical_of_card hs hexec fun s c card => by simp
  | reduce loom slot => exact canonical_of_card hs hexec fun s c card => by simp
  | norm loom slot => exact canonical_of_card hs hexec fun s c card => by simp
  | scan loom slot => exact canonical_of_card hs hexec fun s c card => by simp
  | conv loom slot => exact canonical_of_card hs hexec fun s c card => by simp
  | qstat loom slot => exact canonical_of_card hs hexec fun s c card => by simp
  | narrow loom slot => exact canonical_of_card hs hexec fun s c card => by simp
  | widen loom slot => exact canonical_of_card hs hexec fun s c card => by simp
  | grainKeyLoad loom slot => exact canonical_of_card hs hexec fun s c card => by simp
  | grainFill loom slot => exact canonical_of_card hs hexec fun s c card => by simp
  | gsample loom slot => exact canonical_of_card hs hexec fun s c card => by simp
  | halt loom slot eng => exact canonical_of_card hs hexec fun s c card => by simp
  | malformedPacket iface src bytes =>
    refine canonical_of_next hexec ?_
    split
    · exact hs.of_bytes (by simp)
    · exact State.receiveRaw_canonical hs ..
  | fragmentAssemblyExpiry m opcode context hostTag => exact canonical_of_event hs hexec (by simp)
  | ipFragmentReceived f => exact canonical_of_next hexec (State.onLinkUp_canonical hs (State.takeFrag_canonical hs f))
  | ipReassemblyExpiry v6 src dst ident => exact canonical_of_event hs hexec (by simp)
  | networkControlFrame f =>
    refine canonical_of_next hexec ?_
    split
    · exact hs.of_bytes (by simp)
    · exact State.onLinkUp_canonical hs (hs.of_bytes (by simp))
  | dhcpReply f =>
    refine canonical_of_next hexec ?_
    split
    · exact hs
    · exact State.onLinkUp_canonical hs (hs.of_bytes (by simp))
  | eapolFrame bytes => exact canonical_of_event hs hexec (by simp)
  | hostLinkUp rate leader lpi => exact canonical_of_event hs hexec (by simp)
  | hostLinkDown => exact canonical_of_event hs hexec (by simp)
  | trainingFailed => exact canonical_of_event hs hexec (by simp)
  | readvertiseTimer => exact canonical_of_event hs hexec (by simp)
  | pieceIssue loom => exact canonical_of_event hs hexec (by simp)
  | pieceComplete loom piece =>
    refine canonical_of_next hexec ?_
    split
    · exact State.finishPiece_canonical (hs.of_bytes (by simp)) ..
    · exact hs
  | jobStart =>
    refine canonical_of_next hexec ?_
    split
    · exact State.startNext_canonical hs
    · exact hs
  | contextAdmit loom => exact canonical_of_event hs hexec (by simp)
  | waySpilled loom => exact canonical_of_event hs hexec (by simp)
  | sliceEnd loom slot => exact canonical_of_event hs hexec (by simp)
  | releaseToKnot loom => exact canonical_of_event hs hexec (by simp)
  | resultExpiry job => exact canonical_of_next hexec (State.expireResult_canonical hs job)
  | batchStepStart job =>
    refine canonical_of_next hexec ?_
    split
    · exact State.startStep_canonical hs job
    · exact hs
  | batchStepEnd job => exact canonical_of_event hs hexec (by simp)
  | phraseJobStart stream => exact canonical_of_event hs hexec (by simp)
  | tokenRecord job => exact canonical_of_event hs hexec (by simp)
  | frameRecord stream => exact canonical_of_event hs hexec (by simp)
  | frameCommit stream => exact canonical_of_event hs hexec (by simp)
  | batchStart cluster pos => exact canonical_of_event hs hexec (by simp)
  | microMv cluster pos => exact canonical_of_event hs hexec (by simp)
  | microEw cluster pos => exact canonical_of_event hs hexec (by simp)
  | microCrv cluster pos => exact canonical_of_event hs hexec (by simp)
  | microCvt cluster pos => exact canonical_of_event hs hexec (by simp)
  | microOut cluster pos => exact canonical_of_event hs hexec (by simp)
  | microDraw cluster pos => exact canonical_of_event hs hexec (by simp)
  | microEnd cluster pos => exact canonical_of_event hs hexec (by simp)
  | batchEnd cluster pos => exact canonical_of_event hs hexec (by simp)
  | contextMoveStart stream => exact canonical_of_event hs hexec (by simp)
  | contextMoveArrive stream => exact canonical_of_event hs hexec (by simp)
  | programLoadCluster cluster program => exact canonical_of_event hs hexec (by simp)
  | tallyEvaluation stream => exact canonical_of_event hs hexec (by simp)
  | egressStart stream => exact canonical_of_event hs hexec (by simp)
  | releaseInstant stream => exact canonical_of_event hs hexec (by simp)
  | reedInputLock n => exact canonical_of_event hs hexec (by simp)
  | reedInputLockLoss n => exact canonical_of_event hs hexec (by simp)
  | reedInputFrame n f => exact canonical_of_event hs hexec (by simp)
  | wclkLock n => exact canonical_of_event hs hexec (by simp)
  | wclkLockLoss n => exact canonical_of_event hs hexec (by simp)
  | reedStartTick port => exact canonical_of_event hs hexec (by simp)
  | reedDataStart port => exact canonical_of_event hs hexec (by simp)
  | reedOutputFrame port => exact canonical_of_event hs hexec (by simp)
  | reedOutputClockLoss n => exact canonical_of_event hs hexec (by simp)
  | rateMeasureWindow port rate => exact canonical_of_event hs hexec (by simp)
  | cardingStripe =>
    refine canonical_of_next hexec ?_
    split
    · exact State.cardStripe_canonical hs
    · exact hs
  | paceWindow w =>
    change (if _ then _ else _) = _ at hexec
    split at hexec
    · exact canonical_of_event hs hexec rfl
    · exact canonical_of_event hs hexec (by simp)
  | thermalSensorConversion cs => exact canonical_of_event hs hexec (by simp)
  | thermalTrip sensor tempC => exact canonical_of_event hs hexec (by simp)
  | vcoreUndervoltage f =>
    refine canonical_of_next hexec ?_
    split
    · cases hrecord : s.supplyRecord f with
      | none => exact hs
      | some u => exact hs.of_bytes (by simp [State.supplyRecord_bytes hrecord])
    · exact hs
  | domainPowerGood report => exact canonical_of_event hs hexec (by simp)
  | regulatorAck rail => exact canonical_of_event hs hexec (by simp)
  | regulatorTimeout rail => exact canonical_of_event hs hexec (by simp)
  | wakePin heldUs => exact canonical_of_event hs hexec (by simp)
  | wakeBusFrame addr bytes =>
    refine canonical_of_next hexec ?_
    split
    · exact hs
    · split
      · exact hs.of_bytes (by simp)
      · exact State.receiveRaw_canonical hs ..
  | wakeBusRead addr => exact canonical_of_event hs hexec (by simp)
  | wakeBusStall => exact canonical_of_event hs hexec (by simp)
  | selfRefreshSupervision temps => exact canonical_of_event hs hexec (by split <;> simp)
  | canopyRefresh quadrant tempC => exact canonical_of_event hs hexec (by simp)
  | patrolScrub vault corrected => exact canonical_of_event hs hexec (by simp)
  | wckDriftCheck ch drift => exact canonical_of_event hs hexec (by simp)
  | uncorrectableWord canopy unit offset reader => exact canonical_of_event hs hexec (by simp)
  | loomFault loom mech test => exact canonical_of_event hs hexec (by simp)
  | handshakeWatchdog unit => exact canonical_of_event hs hexec (by simp)
  | shuttleFault cluster pos mech test => exact canonical_of_event hs hexec (by simp)
  | faultNoSpare unit mech => exact canonical_of_event hs hexec (by simp)
  | scaleUnitFault port => exact canonical_of_event hs hexec (by simp)
  | flitReceived port bytes => exact canonical_of_event hs hexec (by simp)
  | ackTimer port => exact canonical_of_event hs hexec (by simp)
  | replayTimeout port => exact canonical_of_event hs hexec (by simp)
  | portRetrain port cause => exact canonical_of_event hs hexec (by simp)
  | portTraining port found =>
    refine canonical_of_next hexec ?_
    split
    · exact hs
    · split <;> exact hs.of_bytes (by simp)
  | failedPortRetry port => exact canonical_of_event hs hexec (by simp)
  | linkMessage port =>
    refine canonical_of_next hexec ?_
    split
    · exact hs
    · split
      · exact State.takeMessage_canonical (hs.of_bytes (by simp)) ..
      · exact hs
  | blockAck binding recvEnd blockSeq => exact canonical_of_event hs hexec (by split <;> simp)
  | retransmitRequest binding recvEnd blockSeq => exact canonical_of_event hs hexec (by split <;> simp)
  | pairMatch port lsid => exact canonical_of_event hs hexec (by simp)
  | operatingMinute => exact canonical_of_event hs hexec (by simp)
  | recordWrite => exact canonical_of_event hs hexec (by simp)
  | entropyFailure => exact canonical_of_event hs hexec (by simp)
  | vaonApplied => exact canonical_of_event hs hexec (by simp)
  | resetNRelease => exact canonical_of_event hs hexec (by simp)
  | coldBoot f =>
    refine canonical_of_next hexec ?_
    split
    · exact State.coldBoot_canonical s f
    · exact hs
  | warmReset f => exact canonical_of_event hs hexec (by simp)
  | vaonRemoved bitsWritten => exact canonical_of_event hs hexec (by simp)
  | resetNLow heldUs =>
    change (if _ then _ else if _ then _ else _) = _ at hexec
    split at hexec
    · exact canonical_of_event hs hexec rfl
    · split at hexec
      · cases hexec
      · exact canonical_of_event hs hexec (by simp)
  | dapAccess a => exact canonical_of_next hexec (State.dapAccess_canonical hs a)

/-- Settles O52: on an empty queue the block sends and takes packets, which leaves the memories; otherwise a command, a card or an
event runs. -/
theorem memoryCanonicalKept : Obligations.MemoryCanonicalKept := by
  unfold Obligations.MemoryCanonicalKept
  intro s s' hs hstep
  unfold step at hstep
  split at hstep
  · exact canonical_of_next hstep (hs.of_bytes (by simp))
  · next c rest _ =>
    have hrest : MemoryCanonical { s with pending := rest } := hs
    exact exec_canonical hrest c hstep

end Sys2Proof.Machine
end
